-- ==== Sys2Proof/Word.lean ====
section
/-!
DEFINITION. The widths of values: the 64-bit registers and memory words, the 32-bit instruction words and lanes (R130, R136).
-/

namespace Sys2Proof

/-- A 64-bit register or memory word (R7, R136). -/
abbrev Word := BitVec 64

/-- A 32-bit instruction word (R130). -/
abbrev IWord := BitVec 32

/-- A byte of memory. -/
abbrev Byte := BitVec 8

end Sys2Proof
end

