-- ==== Sys2Proof/Syntax.lean ====
section
/-!
DEFINITION. The abstract syntax: one constructor for each row of spec/opcode_table.json.

A word instruction carries the fields of its encoding (R131) under the table's names; a LONG form (R157) carries its
register and its extension word. The rows without an encoding are steps of the machine (spec/95): they carry the
numbers of the units they act on. Unit numbers are those of Machine/State.lean: `lin` names a creel of the pod, `core`
a core, `sl` a slot, `ag` a host agent (2 × module + 0 or 1), `port` a Cerern port (32 × module + port), `m` a module, `id` an
access, request or message in flight.
-/

namespace Sys2Proof

/-- The instructions of the word encodings and the steps of the machine, in the order of spec/opcode_table.json, the word that is no
instruction (R341) first among the steps. -/
inductive Instr where
  /-- R150: Writes x(a) + x(b) modulo 2^64 into x(d). -/
  | add (d : BitVec 7) (a : BitVec 7) (b : BitVec 7)
  /-- R150: Writes x(a) - x(b) modulo 2^64 into x(d). -/
  | sub (d : BitVec 7) (a : BitVec 7) (b : BitVec 7)
  /-- R150: Writes the bitwise AND of x(a) and x(b) into x(d). -/
  | and (d : BitVec 7) (a : BitVec 7) (b : BitVec 7)
  /-- R150: Writes the bitwise OR of x(a) and x(b) into x(d). -/
  | or (d : BitVec 7) (a : BitVec 7) (b : BitVec 7)
  /-- R150: Writes the bitwise XOR of x(a) and x(b) into x(d). -/
  | xor (d : BitVec 7) (a : BitVec 7) (b : BitVec 7)
  /-- R150: Writes x(a) AND NOT x(b) into x(d). -/
  | andn (d : BitVec 7) (a : BitVec 7) (b : BitVec 7)
  /-- R150: Shifts x(a) left by x(b)[5:0] into x(d). -/
  | sll (d : BitVec 7) (a : BitVec 7) (b : BitVec 7)
  /-- R150: Shifts x(a) right logically by x(b)[5:0] into x(d). -/
  | srl (d : BitVec 7) (a : BitVec 7) (b : BitVec 7)
  /-- R150: Shifts x(a) right arithmetically by x(b)[5:0] into x(d). -/
  | sra (d : BitVec 7) (a : BitVec 7) (b : BitVec 7)
  /-- R150: Rotates x(a) right by x(b)[5:0] into x(d). -/
  | rotr (d : BitVec 7) (a : BitVec 7) (b : BitVec 7)
  /-- R150: Writes the signed minimum of x(a) and x(b). -/
  | mins (d : BitVec 7) (a : BitVec 7) (b : BitVec 7)
  /-- R150: Writes the signed maximum of x(a) and x(b). -/
  | maxs (d : BitVec 7) (a : BitVec 7) (b : BitVec 7)
  /-- R150: Writes the unsigned minimum of x(a) and x(b). -/
  | minu (d : BitVec 7) (a : BitVec 7) (b : BitVec 7)
  /-- R150: Writes the unsigned maximum of x(a) and x(b). -/
  | maxu (d : BitVec 7) (a : BitVec 7) (b : BitVec 7)
  /-- R150: Writes 1 if x(a) is signed-less than x(b), else 0. -/
  | slt (d : BitVec 7) (a : BitVec 7) (b : BitVec 7)
  /-- R150: Writes 1 if x(a) is unsigned-less than x(b), else 0. -/
  | sltu (d : BitVec 7) (a : BitVec 7) (b : BitVec 7)
  /-- R150: Writes 1 if x(a) equals x(b), else 0. -/
  | seq (d : BitVec 7) (a : BitVec 7) (b : BitVec 7)
  /-- R150: Writes 1 if x(a) differs from x(b), else 0. -/
  | sne (d : BitVec 7) (a : BitVec 7) (b : BitVec 7)
  /-- R150: Adds the low 32 bits and writes the sign-extended result. -/
  | addw (d : BitVec 7) (a : BitVec 7) (b : BitVec 7)
  /-- R150: Subtracts the low 32 bits and writes the sign-extended result. -/
  | subw (d : BitVec 7) (a : BitVec 7) (b : BitVec 7)
  /-- R150: 32-bit left shift by x(b)[4:0], sign-extended. -/
  | sllw (d : BitVec 7) (a : BitVec 7) (b : BitVec 7)
  /-- R150: 32-bit logical right shift by x(b)[4:0], sign-extended. -/
  | srlw (d : BitVec 7) (a : BitVec 7) (b : BitVec 7)
  /-- R150: 32-bit arithmetic right shift by x(b)[4:0], sign-extended. -/
  | sraw (d : BitVec 7) (a : BitVec 7) (b : BitVec 7)
  /-- R150: Writes x(a) into x(d) if x(d) is nonzero, else x(b). -/
  | sel (d : BitVec 7) (a : BitVec 7) (b : BitVec 7)
  /-- R151: Writes the low 64 bits of x(a) times x(b). -/
  | mul (d : BitVec 7) (a : BitVec 7) (b : BitVec 7)
  /-- R151: Writes the high half of the signed 128-bit product. -/
  | mulh (d : BitVec 7) (a : BitVec 7) (b : BitVec 7)
  /-- R151: Writes the high half of the unsigned 128-bit product. -/
  | mulhu (d : BitVec 7) (a : BitVec 7) (b : BitVec 7)
  /-- R151: Multiplies the low 32 bits and writes the sign-extended result. -/
  | mulw (d : BitVec 7) (a : BitVec 7) (b : BitVec 7)
  /-- R151: Writes x(d) + x(a) times x(b) into x(d). -/
  | mad (d : BitVec 7) (a : BitVec 7) (b : BitVec 7)
  /-- R151: Writes the signed quotient under R109. -/
  | div (d : BitVec 7) (a : BitVec 7) (b : BitVec 7)
  /-- R151: Writes the unsigned quotient under R109. -/
  | divu (d : BitVec 7) (a : BitVec 7) (b : BitVec 7)
  /-- R151: Writes the signed remainder under R109. -/
  | rem (d : BitVec 7) (a : BitVec 7) (b : BitVec 7)
  /-- R151: Writes the unsigned remainder under R109. -/
  | remu (d : BitVec 7) (a : BitVec 7) (b : BitVec 7)
  /-- R151: Writes the signed 32-bit quotient, sign-extended. -/
  | divw (d : BitVec 7) (a : BitVec 7) (b : BitVec 7)
  /-- R151: Writes the signed 32-bit remainder, sign-extended. -/
  | remw (d : BitVec 7) (a : BitVec 7) (b : BitVec 7)
  /-- R152: Writes the count of leading zero bits of x(a). -/
  | clz (d : BitVec 7) (a : BitVec 7)
  /-- R152: Writes the count of trailing zero bits of x(a). -/
  | ctz (d : BitVec 7) (a : BitVec 7)
  /-- R152: Writes the count of one bits of x(a). -/
  | popc (d : BitVec 7) (a : BitVec 7)
  /-- R152: Writes x(a) with its bit order reversed. -/
  | brev (d : BitVec 7) (a : BitVec 7)
  /-- R152: Writes x(a) with its byte order reversed. -/
  | bswap (d : BitVec 7) (a : BitVec 7)
  /-- R152: Extracts a signed bit field of x(a) described by x(b). -/
  | bfx (d : BitVec 7) (a : BitVec 7) (b : BitVec 7)
  /-- R152: Extracts an unsigned bit field of x(a) described by x(b). -/
  | bfxu (d : BitVec 7) (a : BitVec 7) (b : BitVec 7)
  /-- R152: Inserts a field of x(a) into x(d) as x(b) describes. -/
  | bfi (d : BitVec 7) (a : BitVec 7) (b : BitVec 7)
  /-- R152: Sign-extends x(a) from the width in x(b). -/
  | sext (d : BitVec 7) (a : BitVec 7) (b : BitVec 7)
  /-- R153: Adds a sign-extended 12-bit immediate to x(a). -/
  | addi (d : BitVec 7) (a : BitVec 7) (i : BitVec 12)
  /-- R153: ANDs x(a) with a zero-extended immediate. -/
  | andi (d : BitVec 7) (a : BitVec 7) (i : BitVec 12)
  /-- R153: ORs x(a) with a zero-extended immediate. -/
  | ori (d : BitVec 7) (a : BitVec 7) (i : BitVec 12)
  /-- R153: XORs x(a) with a zero-extended immediate. -/
  | xori (d : BitVec 7) (a : BitVec 7) (i : BitVec 12)
  /-- R153: Writes 1 if x(a) is signed-less than the sign-extended immediate. -/
  | slti (d : BitVec 7) (a : BitVec 7) (i : BitVec 12)
  /-- R153: Writes 1 if x(a) is unsigned-less than the zero-extended immediate. -/
  | sltiu (d : BitVec 7) (a : BitVec 7) (i : BitVec 12)
  /-- R154: Shifts x(a) left by an immediate amount. -/
  | slli (d : BitVec 7) (a : BitVec 7) (s : BitVec 6)
  /-- R154: Shifts x(a) right logically by an immediate amount. -/
  | srli (d : BitVec 7) (a : BitVec 7) (s : BitVec 6)
  /-- R154: Shifts x(a) right arithmetically by an immediate amount. -/
  | srai (d : BitVec 7) (a : BitVec 7) (s : BitVec 6)
  /-- R154: Rotates x(a) right by an immediate amount. -/
  | rotri (d : BitVec 7) (a : BitVec 7) (s : BitVec 6)
  /-- R155: Writes x(a) + x(b) times 2^sh. -/
  | lea (d : BitVec 7) (a : BitVec 7) (b : BitVec 7) (s : BitVec 3)
  /-- R156: Places a local address below 2^45 into the executing creel's window. -/
  | mkg (d : BitVec 7) (a : BitVec 7)
  /-- R157: Loads a sign-extended 32-bit immediate from the extension word. -/
  | li (d : BitVec 7) (imm : BitVec 32)
  /-- R157: Loads a zero-extended 32-bit immediate. -/
  | liu (d : BitVec 7) (imm : BitVec 32)
  /-- R157: Replaces the high 32 bits of x(d) with the immediate. -/
  | lihi (d : BitVec 7) (imm : BitVec 32)
  /-- R157: Adds a sign-extended 32-bit immediate to x(d). -/
  | addl (d : BitVec 7) (imm : BitVec 32)
  /-- R157: ANDs x(d) with a sign-extended 32-bit immediate. -/
  | andl (d : BitVec 7) (imm : BitVec 32)
  /-- R157: ORs x(d) with a sign-extended 32-bit immediate. -/
  | orl (d : BitVec 7) (imm : BitVec 32)
  /-- R157: XORs x(d) with a sign-extended 32-bit immediate. -/
  | xorl (d : BitVec 7) (imm : BitVec 32)
  /-- R158: Branches when x(a) equals x(b). -/
  | beq (a : BitVec 7) (b : BitVec 7) (o : BitVec 12)
  /-- R158: Branches when x(a) differs from x(b). -/
  | bne (a : BitVec 7) (b : BitVec 7) (o : BitVec 12)
  /-- R158: Branches when x(a) is signed-less than x(b). -/
  | blt (a : BitVec 7) (b : BitVec 7) (o : BitVec 12)
  /-- R158: Branches when x(a) is signed-greater or equal to x(b). -/
  | bge (a : BitVec 7) (b : BitVec 7) (o : BitVec 12)
  /-- R158: Branches when x(a) is unsigned-less than x(b). -/
  | bltu (a : BitVec 7) (b : BitVec 7) (o : BitVec 12)
  /-- R158: Branches when x(a) is unsigned-greater or equal to x(b). -/
  | bgeu (a : BitVec 7) (b : BitVec 7) (o : BitVec 12)
  /-- R159: Jumps to pc + 4 times the signed offset. -/
  | j (o : BitVec 26)
  /-- R159: Jumps and writes the return address into x1. -/
  | jal (o : BitVec 26)
  /-- R160: Jumps to x(a) + offset and writes the return address into x(d). -/
  | jalr (d : BitVec 7) (a : BitVec 7) (i : BitVec 12)
  /-- R55: Checks and captures a frame of n following words for replay reps times with stepped fields. -/
  | coil (n : BitVec 4) (r : BitVec 6) (s : BitVec 5) (t : BitVec 5) (u : BitVec 5)
  /-- R50: Waits to rejoin the weave at this address, changing member and context states. -/
  | join
  /-- R52: Makes the member LEFT for good and continues alone. -/
  | leave
  /-- R52: Turns an attached member into a strand. -/
  | detach
  /-- R52: Writes the number of entries in the member's slack queue. -/
  | lag (d : BitVec 7)
  /-- R52: Writes 1 if any participant's x(a) is nonzero. -/
  | voteany (d : BitVec 7) (a : BitVec 7)
  /-- R52: Writes 1 if every participant's x(a) is nonzero. -/
  | voteall (d : BitVec 7) (a : BitVec 7)
  /-- R52: Writes the number of participants with nonzero x(a). -/
  | votecnt (d : BitVec 7) (a : BitVec 7)
  /-- R52: Writes the largest signed x(a) among participants. -/
  | votemax (d : BitVec 7) (a : BitVec 7)
  /-- R166: Loads 1 to 8 bytes from a local address into x(t). -/
  | ld (t : BitVec 7) (b : BitVec 7) (z : BitVec 3) (o : BitVec 7) (r : BitVec 2)
  /-- R167: Stores 1 to 8 bytes of x(t) at a local address. -/
  | st (t : BitVec 7) (b : BitVec 7) (z : BitVec 3) (o : BitVec 7) (r : BitVec 2)
  /-- R170: Waits for the word to be full and loads it. -/
  | ldf (t : BitVec 7) (b : BitVec 7) (o : BitVec 7) (r : BitVec 2)
  /-- R170: Waits for the word to be full, loads it and sets it empty. -/
  | ldfe (t : BitVec 7) (b : BitVec 7) (o : BitVec 7) (r : BitVec 2)
  /-- R170: Waits for the word to be empty, stores it and sets it full. -/
  | stfe (t : BitVec 7) (b : BitVec 7) (o : BitVec 7) (r : BitVec 2)
  /-- R170: Stores the word and sets it full. -/
  | stf (t : BitVec 7) (b : BitVec 7) (o : BitVec 7) (r : BitVec 2)
  /-- R170: Sets the word's full/empty bit empty. -/
  | sete (b : BitVec 7) (o : BitVec 7) (r : BitVec 2)
  /-- R172: Loads from a global virtual address, cached, non-caching or acquire. -/
  | gld (t : BitVec 7) (b : BitVec 7) (z : BitVec 3) (o : BitVec 7) (r : BitVec 2)
  /-- R173: Atomically adds x(val) to a 64-bit word and returns the old value. -/
  | aaddD (d : BitVec 7) (a : BitVec 7) (v : BitVec 7) (c : BitVec 1)
  /-- R173: Atomic 64-bit AND returning the old value. -/
  | aandD (d : BitVec 7) (a : BitVec 7) (v : BitVec 7) (c : BitVec 1)
  /-- R173: Atomic 64-bit OR returning the old value. -/
  | aorD (d : BitVec 7) (a : BitVec 7) (v : BitVec 7) (c : BitVec 1)
  /-- R173: Atomic 64-bit XOR returning the old value. -/
  | axorD (d : BitVec 7) (a : BitVec 7) (v : BitVec 7) (c : BitVec 1)
  /-- R173: Atomic 64-bit signed minimum returning the old value. -/
  | aminD (d : BitVec 7) (a : BitVec 7) (v : BitVec 7) (c : BitVec 1)
  /-- R173: Atomic 64-bit signed maximum returning the old value. -/
  | amaxD (d : BitVec 7) (a : BitVec 7) (v : BitVec 7) (c : BitVec 1)
  /-- R173: Atomic 64-bit unsigned minimum returning the old value. -/
  | aminuD (d : BitVec 7) (a : BitVec 7) (v : BitVec 7) (c : BitVec 1)
  /-- R173: Atomic 64-bit unsigned maximum returning the old value. -/
  | amaxuD (d : BitVec 7) (a : BitVec 7) (v : BitVec 7) (c : BitVec 1)
  /-- R173: Atomic 64-bit swap returning the old value. -/
  | aswapD (d : BitVec 7) (a : BitVec 7) (v : BitVec 7)
  /-- R173: Atomic 64-bit compare-and-swap against x(d). -/
  | acasD (d : BitVec 7) (a : BitVec 7) (v : BitVec 7)
  /-- R173: Atomically adds to a 32-bit word and returns the old value. -/
  | aaddW (d : BitVec 7) (a : BitVec 7) (v : BitVec 7) (c : BitVec 1)
  /-- R173: Atomic 32-bit AND returning the old value. -/
  | aandW (d : BitVec 7) (a : BitVec 7) (v : BitVec 7) (c : BitVec 1)
  /-- R173: Atomic 32-bit OR returning the old value. -/
  | aorW (d : BitVec 7) (a : BitVec 7) (v : BitVec 7) (c : BitVec 1)
  /-- R173: Atomic 32-bit XOR returning the old value. -/
  | axorW (d : BitVec 7) (a : BitVec 7) (v : BitVec 7) (c : BitVec 1)
  /-- R173: Atomic 32-bit signed minimum returning the old value. -/
  | aminW (d : BitVec 7) (a : BitVec 7) (v : BitVec 7) (c : BitVec 1)
  /-- R173: Atomic 32-bit signed maximum returning the old value. -/
  | amaxW (d : BitVec 7) (a : BitVec 7) (v : BitVec 7) (c : BitVec 1)
  /-- R173: Atomic 32-bit unsigned minimum returning the old value. -/
  | aminuW (d : BitVec 7) (a : BitVec 7) (v : BitVec 7) (c : BitVec 1)
  /-- R173: Atomic 32-bit unsigned maximum returning the old value. -/
  | amaxuW (d : BitVec 7) (a : BitVec 7) (v : BitVec 7) (c : BitVec 1)
  /-- R173: Atomic 32-bit swap returning the old value. -/
  | aswapW (d : BitVec 7) (a : BitVec 7) (v : BitVec 7)
  /-- R173: Atomic 32-bit compare-and-swap against x(d). -/
  | acasW (d : BitVec 7) (a : BitVec 7) (v : BitVec 7)
  /-- R128: Atomically adds an FP32 value to a word, rounded once, returning the old value. -/
  | afadd (d : BitVec 7) (a : BitVec 7) (v : BitVec 7) (c : BitVec 1)
  /-- R128: Atomic FP32 minimum returning the old value. -/
  | afmin (d : BitVec 7) (a : BitVec 7) (v : BitVec 7) (c : BitVec 1)
  /-- R128: Atomic FP32 maximum returning the old value. -/
  | afmax (d : BitVec 7) (a : BitVec 7) (v : BitVec 7) (c : BitVec 1)
  /-- R178: Initialises a barrier object with E expected arrivals per phase. -/
  | bari (a : BitVec 7) (b : BitVec 7)
  /-- R179: Arrives at a barrier object with count k for phase q, possibly advancing phases. -/
  | bara (d : BitVec 7) (a : BitVec 7) (b : BitVec 7)
  /-- R180: Waits, with optional bound, until phase q has completed. -/
  | barw (d : BitVec 7) (a : BitVec 7) (b : BitVec 7)
  /-- R180: Tests once whether phase q has completed. -/
  | bart (d : BitVec 7) (a : BitVec 7) (b : BitVec 7)
  /-- R183: Sends a value to a register of another slot of the same core and reports a status. -/
  | putx (d : BitVec 7) (a : BitVec 7) (b : BitVec 7)
  /-- R185: Clears the presence bit of x(d), optionally marking it interrupting. -/
  | emptyx (d : BitVec 7) (a : BitVec 7)
  /-- R186: Starts another slot of the core as a width-1 weave at an entry address. -/
  | spawn (d : BitVec 7) (a : BitVec 7) (b : BitVec 7)
  /-- R93: Waits for the slot's earlier accesses and orders later ones after them. -/
  | fence
  /-- R93: As FENCE, also waiting for and observing the slot's engine commands. -/
  | fenceE
  /-- R93: As FENCE, and orders later instruction fetch after it. -/
  | fenceI
  /-- R190: Loads 128 consecutive 32-bit lanes. -/
  | vld (w : BitVec 3) (a : BitVec 7) (m : BitVec 2)
  /-- R190: Stores 128 consecutive 32-bit lanes. -/
  | vst (w : BitVec 3) (a : BitVec 7) (m : BitVec 2)
  /-- R190: Loads lanes at a signed byte stride. -/
  | vlds (w : BitVec 3) (a : BitVec 7) (b : BitVec 7) (m : BitVec 2)
  /-- R190: Stores lanes at a signed byte stride. -/
  | vsts (w : BitVec 3) (a : BitVec 7) (b : BitVec 7) (m : BitVec 2)
  /-- R190: Gathers lanes through an index vector. -/
  | vldx (w : BitVec 3) (a : BitVec 7) (i : BitVec 3) (m : BitVec 2)
  /-- R190: Scatters lanes through an index vector. -/
  | vstx (w : BitVec 3) (a : BitVec 7) (i : BitVec 3) (m : BitVec 2)
  /-- R192: Floating-point lane addition. -/
  | vadd (d : BitVec 3) (a : BitVec 3) (b : BitVec 3) (m : BitVec 2) (y : BitVec 4) (r : BitVec 3)
  /-- R192: Floating-point lane subtraction. -/
  | vsub (d : BitVec 3) (a : BitVec 3) (b : BitVec 3) (m : BitVec 2) (y : BitVec 4) (r : BitVec 3)
  /-- R192: Floating-point lane multiplication. -/
  | vmul (d : BitVec 3) (a : BitVec 3) (b : BitVec 3) (m : BitVec 2) (y : BitVec 4) (r : BitVec 3)
  /-- R192: Fused multiply-add of lanes, rounded once. -/
  | vfma (d : BitVec 3) (a : BitVec 3) (b : BitVec 3) (c : BitVec 3) (m : BitVec 2) (y : BitVec 4) (r : BitVec 3)
  /-- R192: Floating-point lane minimum. -/
  | vmin (d : BitVec 3) (a : BitVec 3) (b : BitVec 3) (m : BitVec 2) (y : BitVec 4)
  /-- R192: Floating-point lane maximum. -/
  | vmax (d : BitVec 3) (a : BitVec 3) (b : BitVec 3) (m : BitVec 2) (y : BitVec 4)
  /-- R192: Floating-point lane absolute value. -/
  | vabs (d : BitVec 3) (a : BitVec 3) (m : BitVec 2) (y : BitVec 4)
  /-- R192: Floating-point lane negation. -/
  | vneg (d : BitVec 3) (a : BitVec 3) (m : BitVec 2) (y : BitVec 4)
  /-- R192: Floating-point lane equality compare. -/
  | vcmpeq (d : BitVec 3) (a : BitVec 3) (b : BitVec 3) (m : BitVec 2) (y : BitVec 4)
  /-- R192: Floating-point lane less-than compare. -/
  | vcmplt (d : BitVec 3) (a : BitVec 3) (b : BitVec 3) (m : BitVec 2) (y : BitVec 4)
  /-- R192: Floating-point lane less-or-equal compare. -/
  | vcmple (d : BitVec 3) (a : BitVec 3) (b : BitVec 3) (m : BitVec 2) (y : BitVec 4)
  /-- R192: Selects lanes of wa or wb by wc. -/
  | vsel (d : BitVec 3) (a : BitVec 3) (b : BitVec 3) (c : BitVec 3) (m : BitVec 2) (y : BitVec 4)
  /-- R192: Floating-point lane division. -/
  | vdiv (d : BitVec 3) (a : BitVec 3) (b : BitVec 3) (m : BitVec 2) (y : BitVec 4) (r : BitVec 3)
  /-- R192: Floating-point lane square root. -/
  | vsqrt (d : BitVec 3) (a : BitVec 3) (m : BitVec 2) (y : BitVec 4) (r : BitVec 3)
  /-- R192: Fused multiply-subtract of lanes, rounded once. -/
  | vfms (d : BitVec 3) (a : BitVec 3) (b : BitVec 3) (c : BitVec 3) (m : BitVec 2) (y : BitVec 4) (r : BitVec 3)
  /-- R193: Integer lane addition. -/
  | viadd (d : BitVec 3) (a : BitVec 3) (b : BitVec 3) (m : BitVec 2) (y : BitVec 4)
  /-- R193: Integer lane subtraction. -/
  | visub (d : BitVec 3) (a : BitVec 3) (b : BitVec 3) (m : BitVec 2) (y : BitVec 4)
  /-- R193: Integer lane multiplication, low bits. -/
  | vimul (d : BitVec 3) (a : BitVec 3) (b : BitVec 3) (m : BitVec 2) (y : BitVec 4)
  /-- R193: Integer lane multiply-add. -/
  | vimad (d : BitVec 3) (a : BitVec 3) (b : BitVec 3) (c : BitVec 3) (m : BitVec 2) (y : BitVec 4)
  /-- R193: Bitwise lane AND. -/
  | vand (d : BitVec 3) (a : BitVec 3) (b : BitVec 3) (m : BitVec 2) (y : BitVec 4)
  /-- R193: Bitwise lane OR. -/
  | vor (d : BitVec 3) (a : BitVec 3) (b : BitVec 3) (m : BitVec 2) (y : BitVec 4)
  /-- R193: Bitwise lane XOR. -/
  | vxor (d : BitVec 3) (a : BitVec 3) (b : BitVec 3) (m : BitVec 2) (y : BitVec 4)
  /-- R193: Integer lane left shift. -/
  | vshl (d : BitVec 3) (a : BitVec 3) (b : BitVec 3) (m : BitVec 2) (y : BitVec 4)
  /-- R193: Integer lane logical right shift. -/
  | vshr (d : BitVec 3) (a : BitVec 3) (b : BitVec 3) (m : BitVec 2) (y : BitVec 4)
  /-- R193: Integer lane arithmetic right shift. -/
  | vsra (d : BitVec 3) (a : BitVec 3) (b : BitVec 3) (m : BitVec 2) (y : BitVec 4)
  /-- R193: Signed integer lane minimum. -/
  | vimin (d : BitVec 3) (a : BitVec 3) (b : BitVec 3) (m : BitVec 2) (y : BitVec 4)
  /-- R193: Signed integer lane maximum. -/
  | vimax (d : BitVec 3) (a : BitVec 3) (b : BitVec 3) (m : BitVec 2) (y : BitVec 4)
  /-- R193: Integer lane equality compare. -/
  | vicmpeq (d : BitVec 3) (a : BitVec 3) (b : BitVec 3) (m : BitVec 2) (y : BitVec 4)
  /-- R193: Signed integer lane less-than compare. -/
  | vicmplt (d : BitVec 3) (a : BitVec 3) (b : BitVec 3) (m : BitVec 2) (y : BitVec 4)
  /-- R193: Four-way INT8 dot product accumulated into INT32 lanes. -/
  | vidot4 (d : BitVec 3) (a : BitVec 3) (b : BitVec 3) (c : BitVec 3) (m : BitVec 2)
  /-- R195: Converts elements between the accepted type pairs. -/
  | vcvt (d : BitVec 3) (a : BitVec 3) (b : BitVec 3) (c : BitVec 3) (m : BitVec 2) (y : BitVec 4) (r : BitVec 3)
  /-- R196: Decodes narrow codes through a descriptor into FP32 lanes. -/
  | vdec (d : BitVec 3) (a : BitVec 3) (b : BitVec 3) (c : BitVec 3) (m : BitVec 2)
  /-- R197: Encodes FP32 lanes into narrow codes through a descriptor. -/
  | venc (d : BitVec 3) (a : BitVec 3) (b : BitVec 3) (c : BitVec 3) (m : BitVec 2) (r : BitVec 3)
  /-- R198: Applies MX block scales to FP32 lanes. -/
  | vscl (d : BitVec 3) (a : BitVec 3) (b : BitVec 3) (c : BitVec 3) (m : BitVec 2) (r : BitVec 3)
  /-- R199: Quantises scaled FP32 lanes to saturated integers. -/
  | vqnt (d : BitVec 3) (a : BitVec 3) (b : BitVec 3) (c : BitVec 3) (m : BitVec 2) (y : BitVec 4) (r : BitVec 3)
  /-- R200: Emits one sign bit per lane and updates the error memory. -/
  | vsgn1 (d : BitVec 3) (a : BitVec 3) (b : BitVec 3) (c : BitVec 3) (m : BitVec 2)
  /-- R202: Broadcasts a general register into every active element. -/
  | vdup (d : BitVec 3) (x : BitVec 7) (m : BitVec 2) (y : BitVec 3)
  /-- R202: Reads one element into a general register. -/
  | vlane (x : BitVec 7) (a : BitVec 3) (y : BitVec 3)
  /-- R202: Inserts a general register into one element. -/
  | vins (d : BitVec 3) (x : BitVec 7) (y : BitVec 3)
  /-- R202: Permutes lanes of wa by indices in wd. -/
  | vperm (d : BitVec 3) (a : BitVec 3) (m : BitVec 2) (y : BitVec 3)
  /-- R202: Writes an arithmetic sequence into elements. -/
  | viota (d : BitVec 3) (x : BitVec 7) (m : BitVec 2) (y : BitVec 3) (u : BitVec 3)
  /-- R203: Sums lanes by the fixed pairwise tree into a general register. -/
  | vrsum (x : BitVec 7) (a : BitVec 3) (m : BitVec 2) (y : BitVec 3) (u : BitVec 3)
  /-- R203: Reduces lanes to their maximum. -/
  | vrmax (x : BitVec 7) (a : BitVec 3) (m : BitVec 2) (y : BitVec 3)
  /-- R203: Reduces lanes to their minimum. -/
  | vrmin (x : BitVec 7) (a : BitVec 3) (m : BitVec 2) (y : BitVec 3)
  /-- R202: Sets mask bits from nonzero lanes. -/
  | vmsk (a : BitVec 3) (m : BitVec 2) (u : BitVec 2)
  /-- R201: Lane power of two, correctly rounded. -/
  | vexp2 (d : BitVec 3) (a : BitVec 3) (m : BitVec 2) (y : BitVec 4) (r : BitVec 3)
  /-- R201: Lane base-2 logarithm, correctly rounded. -/
  | vlog2 (d : BitVec 3) (a : BitVec 3) (m : BitVec 2) (y : BitVec 4) (r : BitVec 3)
  /-- R201: Lane reciprocal, correctly rounded. -/
  | vrcp (d : BitVec 3) (a : BitVec 3) (m : BitVec 2) (y : BitVec 4) (r : BitVec 3)
  /-- R201: Lane reciprocal square root, correctly rounded. -/
  | vrsq (d : BitVec 3) (a : BitVec 3) (m : BitVec 2) (y : BitVec 4) (r : BitVec 3)
  /-- R201: Lane natural exponential, correctly rounded. -/
  | vexp (d : BitVec 3) (a : BitVec 3) (m : BitVec 2) (y : BitVec 4) (r : BitVec 3)
  /-- R205: Turns bucket identifiers into positions by atomic updates of counters. -/
  | vbuck (d : BitVec 3) (x : BitVec 7) (a : BitVec 3) (m : BitVec 2)
  /-- R204: Counts active lanes per value 0-127. -/
  | vcnt (d : BitVec 3) (a : BitVec 3) (m : BitVec 2)
  /-- R204: Copies a lane mask into lanes 0-3 of a vector register. -/
  | vmovmToVector (d : BitVec 3) (u : BitVec 2)
  /-- R204: Copies lanes 0-3 of a vector register into a lane mask. -/
  | vmovmToMask (a : BitVec 3) (u : BitVec 2)
  /-- R214: Writes the matrix configuration, claims or releases tiles and tables, and loads tables. -/
  | mcfg (a : BitVec 7) (b : BitVec 7)
  /-- R219: Queues a command that sets a tile to +0. -/
  | mzero (c : BitVec 7)
  /-- R218: Queues the accumulation of A times B into a tile. -/
  | mma (a : BitVec 7) (b : BitVec 7) (c : BitVec 7)
  /-- R218: Queues a block-scaled accumulation of A times B into a tile. -/
  | mmas (a : BitVec 7) (b : BitVec 7) (c : BitVec 7)
  /-- R220: Queues conversion of tile rows into creel SRAM, setting full bits. -/
  | mout (a : BitVec 7) (b : BitVec 7) (c : BitVec 7)
  /-- R221: Queues a load of tile rows from creel SRAM. -/
  | min (a : BitVec 7) (b : BitVec 7) (c : BitVec 7)
  /-- R226: Saves tile rows, configuration or a decode table to memory. -/
  | msave (a : BitVec 7) (b : BitVec 7)
  /-- R226: Restores tile rows, configuration or a decode table from memory. -/
  | mrest (a : BitVec 7) (b : BitVec 7)
  /-- R225: Waits for the slot's matrix commands and raises a pending matrix failure. -/
  | msync
  /-- R223: Pins and fills the DRAM lines of a range in their home slices. -/
  | tfpin (a : BitVec 7) (b : BitVec 7) (c : BitVec 7)
  /-- R224: Releases the slot's pin entry at a start address. -/
  | tfrel (a : BitVec 7)
  /-- R242: Queues a copy of bytes from a global source into local memory. -/
  | pull (a : BitVec 7) (b : BitVec 7) (c : BitVec 7)
  /-- R243: Queues a gather of elements by an index list. -/
  | pullx (a : BitVec 7) (b : BitVec 7) (c : BitVec 7)
  /-- R244: Queues an element-wise combination of remote data into local data. -/
  | pullr (a : BitVec 7) (b : BitVec 7) (c : BitVec 7)
  /-- R245: Queues a merge of a remote sorted list into a local one. -/
  | pullm (a : BitVec 7) (b : BitVec 7) (c : BitVec 7)
  /-- R249: Runs one node of a pull-tree instance. -/
  | cpull (a : BitVec 7) (b : BitVec 7) (c : BitVec 7)
  /-- R230: Writes a larger value into a local sequence word as a release. -/
  | pub (a : BitVec 7) (b : BitVec 7)
  /-- R230: Adds a positive increment to a local sequence word as a release. -/
  | puba (a : BitVec 7) (b : BitVec 7)
  /-- R232: Arms a watch register on a global sequence word with a threshold. -/
  | watch (a : BitVec 7) (b : BitVec 7) (c : BitVec 7)
  /-- R236: Binds a global range to a watch register and invalidates its reader-cache lines. -/
  | wrange (a : BitVec 7) (b : BitVec 7) (c : BitVec 7)
  /-- R235: Waits for or polls a watch register's answered value. -/
  | wwait (a : BitVec 7) (c : BitVec 7)
  /-- R237: Frees a watch register, withdrawing any pending arm. -/
  | wcancel (c : BitVec 7)
  /-- R246: Waits for every pull-engine command of the slot. -/
  | psync
  /-- R259: Queues a factor-to-variable message update. -/
  | gupd (a : BitVec 7) (b : BitVec 7) (c : BitVec 7)
  /-- R262: Queues the formation of a belief and optionally outgoing messages. -/
  | gbel (a : BitVec 7) (b : BitVec 7) (c : BitVec 7)
  /-- R263: Queues the addition of a message into a message or factor. -/
  | gadd (a : BitVec 7) (b : BitVec 7) (c : BitVec 7)
  /-- R264: Queues the elimination of a factor without adding messages. -/
  | gelim (a : BitVec 7) (b : BitVec 7) (c : BitVec 7)
  /-- R264: Queues a damped write of a new message over an old one. -/
  | gdamp (a : BitVec 7) (b : BitVec 7) (c : BitVec 7)
  /-- R265: Queues the solution of a record for its mean and covariance diagonal. -/
  | gsolve (a : BitVec 7) (c : BitVec 7)
  /-- R266: Queues the residual between two records into x(c). -/
  | gres (a : BitVec 7) (b : BitVec 7) (c : BitVec 7)
  /-- R267: Waits for the slot's Gaussian commands and raises a pending failure. -/
  | gsync
  /-- R276: Offers a packet from memory to the creel's task unit. -/
  | tqput (a : BitVec 7) (b : BitVec 7) (c : BitVec 7)
  /-- R277: Takes the tenant's first held packet into memory. -/
  | tqget (a : BitVec 7) (b : BitVec 7)
  /-- R31: Drains the member's work, frees its state and ends it. -/
  | exit
  /-- R278: Makes the slot miss its next turn. -/
  | yield
  /-- R279: Parks the slot for x(a) cycles or until a user interrupt. -/
  | sleep (a : BitVec 7)
  /-- R285: Raises cause 0x13 with STVAL from x(a). -/
  | trap (a : BitVec 7)
  /-- R40: Returns from a user interrupt handler, swapping the shadow registers. -/
  | eret
  /-- R286: Returns from a supervisor trap, reloading saved registers. -/
  | sret
  /-- R289: Saves selected parts of the slot's context into a save area. -/
  | csave (a : BitVec 7) (b : BitVec 7)
  /-- R290: Restores selected parts of the slot's context from a save area. -/
  | crest (a : BitVec 7) (b : BitVec 7)
  /-- R285: Raises the breakpoint cause 0x14. -/
  | brk
  /-- R292: Clears selected parts of the slot's state. -/
  | scrub (a : BitVec 7)
  /-- R285: Makes the slot miss 1 to 64 turns. -/
  | pause (a : BitVec 7)
  /-- R293: Writes back dirty sectors of a local range. -/
  | l2wb (a : BitVec 7) (b : BitVec 7)
  /-- R293: Drops the lines of a local range, discarding dirty data. -/
  | l2inv (a : BitVec 7) (b : BitVec 7)
  /-- R293: Writes back and drops the lines of a local range. -/
  | l2wbi (a : BitVec 7) (b : BitVec 7)
  /-- R293: Drops the creel's reader-cache lines of a global range. -/
  | rinv (a : BitVec 7) (b : BitVec 7)
  /-- R294: Replaces a hash mask with lines resident, returning and re-homing accesses. -/
  | l2hm (a : BitVec 7) (b : BitVec 7)
  /-- R293: Fills invalid sectors of a local range without faulting. -/
  | l2pf (a : BitVec 7) (b : BitVec 7)
  /-- R139: Reads a system register into x(d). -/
  | mfs (d : BitVec 7) (s : BitVec 12)
  /-- R139: Writes x(a) into a system register. -/
  | mts (a : BitVec 7) (s : BitVec 12)
  /-- R341: A word with an unassigned major, function code or sub-code, or a LONG first word failing stage 2, issues and raises cause 0x01, consuming one word or eight bytes. -/
  | illegalInstruction (w : BitVec 32)
  /-- R138: Writes a system or BAR0 register that has no behaviour of its own. -/
  | registerWrite (unit : Nat) (reg : Nat) (v : BitVec 64)
  /-- R36: Arms or disarms the user timer. -/
  | utimerWrite (sl : Nat) (v : BitVec 64)
  /-- R287: Arms or disarms the supervisor timer, clearing a pending event on zero. -/
  | stimerWrite (sl : Nat) (v : BitVec 64)
  /-- R85: Locks the slot's partition granules, or ignores an unlock. -/
  | slockWrite (sl : Nat) (v : BitVec 64)
  /-- R78: Writes a hash mask, trapping if resident lines record it. -/
  | hmaskWrite (sl : Nat) (k : Nat) (v : BitVec 64)
  /-- R74: Writes a root entry through TTDATA SPACE 0 and invalidates the ASID's translations. -/
  | rootEntryWrite (sl : Nat) (idx : Nat) (v : BitVec 64)
  /-- R247: Writes a tree-table group word or budget word through TTDATA SPACE 1. -/
  | treeTableWrite (sl : Nat) (idx : Nat) (v : BitVec 64)
  /-- R74: Invalidates translations of one page or all pages through TTDATA SPACE 2. -/
  | translationInvalidate (sl : Nat) (idx : Nat) (v : BitVec 64)
  /-- R85: Writes another slot's SBASE, SBOUND or SLOCK through TTDATA SPACE 3, clearing a lock only when the slot is idle. -/
  | partitionRegisterWrite (sl : Nat) (idx : Nat) (v : BitVec 64)
  /-- R74: Returns the table entry or register that TTIDX selects. -/
  | ttdataRead (sl : Nat) (d : Nat)
  /-- R77: Unparks the invalidating slot once TLBs, walks and translated accesses have drained. -/
  | invalidationComplete (sl : Nat)
  /-- R272: Writes a slot table entry through SLOTTAB KIND 0. -/
  | slotTableEntryWrite (sl : Nat) (idx : Nat) (v : BitVec 64)
  /-- R273: Writes a task-unit parameter through SLOTTAB KIND 1. -/
  | taskParameterWrite (sl : Nat) (idx : Nat) (v : BitVec 64)
  /-- R271: Selects a SLOTTAB item without writing it. -/
  | slottabSelect (sl : Nat) (v : BitVec 64)
  /-- R312: Changes the slot's world, scrubbing first when leaving a protected world. -/
  | worldWrite (sl : Nat) (v : BitVec 64)
  /-- R296: Host writes a channel context word, refused while enabled. -/
  | contextWordWrite (ag : Nat) (ctx : Nat) (word : Nat) (v : BitVec 64)
  /-- R296: Host enables a channel context; the agent reads the ASID's root entry to fix its world. -/
  | contextEnable (ag : Nat) (ctx : Nat) (v : BitVec 64)
  /-- R384: Host clears a context's sticky ERR bit. -/
  | errClear (ag : Nat) (ctx : Nat)
  /-- R305: Host writes a pending link key; the fourth word sets PV and resumes a stopped stream. -/
  | kpendWrite (port : Nat) (word : Nat) (v : BitVec 64)
  /-- R305: Host requests a link key rotation at the next flit boundary. -/
  | kctlRotWrite (port : Nat)
  /-- R369: Host requests a port retrain with every lane whose FAIL bit is clear. -/
  | lstatRetrain (port : Nat)
  /-- R369: Host clears sticky lane failure bits. -/
  | lstatFailClear (port : Nat) (v : BitVec 64)
  /-- R360: Host clears a module's lost bit so requests flow again. -/
  | mlostClear (m : Nat) (lost : Nat)
  /-- R302: Host reads agent memory, served by the read port and decrypted per staging window. -/
  | hostReadBar1 (ag : Nat) (addr : Nat) (n : Nat)
  /-- R302: Host reads a creel's memory through the HWIN window. -/
  | hostReadBar2 (ag : Nat) (off : Nat) (n : Nat)
  /-- R295: Host write to BAR1 or BAR2 is discarded and recorded. -/
  | hostWriteDiscard (ag : Nat) (bar : Nat) (addr : Nat)
  /-- R298: Agent reads a channel's HSEQ and reads records, advancing CONS. -/
  | channelPoll (ag : Nat) (ctx : Nat)
  /-- R299: Agent handles a launch record, pulling its packets and finishing with a status. -/
  | launchRecord (ag : Nat) (ctx : Nat)
  /-- R299: Agent copies host data into a staging window and finishes the record. -/
  | stageRecord (ag : Nat) (ctx : Nat)
  /-- R299: Agent finishes a marker record at once. -/
  | markerRecord (ag : Nat) (ctx : Nat)
  /-- R297: Agent places a packet into a creel's inbox when it has room and publishes the inbox sequence word. -/
  | inboxPlace (ag : Nat) (ctx : Nat)
  /-- R22: A task unit with free entries pulls new packets from its inbox after its watch is answered. -/
  | inboxPull (lin : Nat) (k : Nat)
  /-- R24: Task unit checks and accepts an arrived inbox packet and publishes its inbox count. -/
  | inboxPacketAccept (lin : Nat) (k : Nat)
  /-- R27: Task unit places the next resident packet whole at one slot index on W cores. -/
  | placePacket (lin : Nat)
  /-- R274: At each interval boundary wait counts advance and packets age. -/
  | balancingInterval (lin : Nat)
  /-- R282: An idle creel reads a neighbour's offer and publishes claims. -/
  | levellingClaim (lin : Nat) (nb : Nat)
  /-- R283: Every 256 cycles the offering creel grants claims and publishes GSEQ. -/
  | grantRound (lin : Nat)
  /-- R284: A claimant that observes its grant pulls the staged packet. -/
  | levelledStagePull (lin : Nat) (nb : Nat)
  /-- R284: Claimant accepts the pulled packet as a levelled packet of its home. -/
  | levelledAccept (lin : Nat) (nb : Nat)
  /-- R33: Home creel reads DRING entries and updates completion words, then writes DACK. -/
  | levelledCompletionUpdate (lin : Nat) (nb : Nat)
  /-- R43: Front end delivers one decoded instruction to an eligible weave context's attached members. -/
  | frontEndDeliver (lin : Nat)
  /-- R48: A strand instruction-cache miss is filled from the creel instruction cache. -/
  | strandFetchFill (sl : Nat)
  /-- R56: One stepped frame word issues from the coil buffer at the slot's turn. -/
  | coilReplayIssue (sl : Nat)
  /-- R51: A member waiting at a JOIN past the limit raises cause 0x0F and becomes a strand. -/
  | joinWatchdog (sl : Nat)
  /-- R168: Data for a load, atomic or GLD arrives and is written, setting the presence bit. -/
  | memoryReply (id : Nat)
  /-- R180: A bounded BARW leaves the wait list after B cycles and writes 0. -/
  | barwBoundExpire (sl : Nat)
  /-- R184: Eight cycles after issue the PUTX value lands and sets the presence bit. -/
  | putxLand (id : Nat)
  /-- R76: A table walk finishes, filling TLBs or reporting a fault to joined requesters. -/
  | pageWalkComplete (lin : Nat) (id : Nat)
  /-- R80: A DRAM sector fill completes into its home slice. -/
  | sectorFill (id : Nat)
  /-- R99: The owner's read port serves a remote read request at a place in its creel order. -/
  | readPortRead (id : Nat)
  /-- R233: An arm reaches the owner and is answered at once or held in the watch table. -/
  | watchArmArrive (id : Nat)
  /-- R232: A withdraw message removes an arm from the owner's table. -/
  | watchWithdrawArrive (id : Nat)
  /-- R233: An answer reaches the requester, setting ANSV and ANS. -/
  | watchAnswer (id : Nat)
  /-- R233: A refused arm turns the register LOST and is recorded. -/
  | watchRefusal (id : Nat)
  /-- R240: A pull channel issues a command's sector requests. -/
  | pullRequestIssue (lin : Nat) (ch : Nat)
  /-- R240: Source data arrives and is written or combined into the destination. -/
  | pullSectorData (id : Nat)
  /-- R249: An internal watch finds the parent or a child at the needed instance. -/
  | cpullPeerReady (lin : Nat) (g : Nat)
  /-- R250: A child's read port serves or refuses a tree pull. -/
  | treePullServe (id : Nat)
  /-- R376: A tree node waiting beyond the join watchdog limit completes with STATUS 0x0A. -/
  | cpullWatchdog (lin : Nat) (g : Nat)
  /-- R251: A new budget period restores every traffic class's sector budget. -/
  | budgetPeriod (lin : Nat)
  /-- R213: A queued matrix command completes and the next eligible one starts. -/
  | matrixCommandComplete (core : Nat) (id : Nat)
  /-- R258: A Gaussian command starts once its WF waits end and reads its records. -/
  | gaussCommandStart (core : Nat)
  /-- R260: A Gaussian command writes its output records with the header last. -/
  | gaussCommandComplete (core : Nat)
  /-- R36: The user timer steps from 1 to 0 and sets the timer pending bit. -/
  | utimerExpire (sl : Nat)
  /-- R38: A pending enabled user interrupt is delivered at an instruction boundary. -/
  | userInterruptDelivery (sl : Nat)
  /-- R287: The supervisor timer steps from 1 to 0 and makes the timer event pending. -/
  | stimerExpire (sl : Nat)
  /-- R287: The pending timer event raises cause 0x20 at a user-mode boundary. -/
  | supervisorTimerTrap (sl : Nat)
  /-- R328: An unhandled trap or supervisor EXIT ends the slot after its work drains. -/
  | slotTerminate (sl : Nat)
  /-- R279: A sleep ends after its duration. -/
  | sleepExpire (sl : Nat)
  /-- R285: A pausing slot resumes after its n turns. -/
  | pauseEnd (sl : Nat)
  /-- R352: The DRAM scrubber reads one sector per pseudo-channel every 256 cycles. -/
  | dramScrubRead (lin : Nat) (addr : Nat)
  /-- R352: The SRAM scrubber reads a bank row in a free cycle. -/
  | sramScrubRead (lin : Nat) (addr : Nat)
  /-- R352: The host agent scrubs agent memory. -/
  | agentScrubRead (ag : Nat) (addr : Nat)
  /-- R364: A received flit is checked, reordered and delivered in counter order. -/
  | flitArrival (port : Nat) (k : Nat)
  /-- R365: A link-control replay request makes the sender resend the named flits. -/
  | replayRequest (port : Nat) (k : Nat)
  /-- R366: A link-control width notice reports the peer's new port width. -/
  | widthNotice (port : Nat) (width : Nat)
  /-- R365: A gap still open 4,096 cycles after its request is requested again. -/
  | replayRequestRepeat (port : Nat)
  /-- R365: Without ACK progress for 16,384 cycles the sender resends its oldest flit. -/
  | ackTimeoutResend (port : Nat)
  /-- R368: A lane loses lock or exceeds its CRC rate and the port degrades to four lanes. -/
  | laneFailure (port : Nat) (lane : Nat)
  /-- R368: The retrained port replays every unacknowledged flit. -/
  | portRetrainComplete (port : Nat)
  /-- R385: The stream counter reaching 2^64 - 2^32 without a pending key writes a record. -/
  | ivExhaustionWarning (port : Nat)
  /-- R305: The counter reaching 2^64 - 2^16 rotates or stops the stream. -/
  | ivLimitReached (port : Nat)
  /-- R360: A request without data or acknowledgement for 2^26 cycles declares its module lost. -/
  | lossTimeout (m : Nat) (lost : Nat)
  /-- R381: The host link leaves DL_Active and the port stops its contexts. -/
  | hostLinkDown (ag : Nat)
  /-- R381: A Function Level Reset declares the host lost. -/
  | functionLevelReset (ag : Nat)
  /-- R383: The link returns and the agent sends MSI-X for each context with ERR set. -/
  | hostLinkUp (ag : Nat)
  /-- R381: A host read completion times out and stops its context. -/
  | hostReadTimeout (ag : Nat) (ctx : Nat)
  /-- R316: A supply sag stretches the clock period. -/
  | droopDetect (m : Nat)
  /-- R316: The supply recovers and the clock period returns. -/
  | droopRecover (m : Nat)
  /-- R317: Power above 7.2 kW over 1 ms lowers the clock one step. -/
  | powerLimitStep (m : Nat)
  /-- R317: A sensor above 95 C or excess flux lowers the clock one step per ms. -/
  | thermalStep (m : Nat)
  /-- R317: Sensors below 90 C let the clock rise again. -/
  | thermalRecover (m : Nat)
  /-- R317: A sensor above 110 C holds the clock at its lowest step. -/
  | thermalHold (m : Nat)
  /-- R317: A sensor above 120 C resets the module, keeping a record. -/
  | thermalReset (m : Nat)
  /-- R392: Supply below 40 V for 1 ms resets the module. -/
  | supplyUndervoltReset (m : Nat)
  /-- R392: A clock stretched by 50 % for 2^20 cycles resets the module. -/
  | stretchLimitReset (m : Nat)
  /-- R326: Module reset wipes memory and starts slot 0 of core 0 of each creel in firmware. -/
  | moduleReset (m : Nat)
  /-- R313: A power-gated unit is cleared and checked before use on waking. -/
  | unitWake (core : Nat) (unit : Nat)
  /-- R390: An image written to the inactive slot is checked and activated at the next reset. -/
  | firmwareImageWrite (m : Nat) (img : Nat)
  /-- R315: An owner-signed command raises the firmware version floor. -/
  | floorRaise (m : Nat) (floor : Nat)
  /-- R306: Housekeeping creates a world with its key and attributes under a signed command. -/
  | worldCreate (m : Nat) (world : Nat) (attr : Nat)
  /-- R389: Housekeeping terminates a world's slots, scrubs its granules and replaces its key. -/
  | worldDestroy (m : Nat) (world : Nat)
  /-- R314: The maker's signed command moves a blank module to Provisioned. -/
  | provision (m : Nat)
  /-- R314: Installing an owner key moves the module to Owned. -/
  | ownerKeyInstall (m : Nat)
  /-- R314: The owner's signed release returns the module to Provisioned. -/
  | ownerRelease (m : Nat)
  /-- R314: Retirement destroys every key for good. -/
  | retire (m : Nat)
  /-- R168: A store that has left its slot takes its place in the creel order, unparking a plain or release store and freeing a relaxed one's outstanding count. -/
  | storeCompletion (id : Nat)
  /-- R313: An idle unit is power-gated, records the world of its last user and, for an L2 way group, writes its dirty sectors back before gating. -/
  | powerGating (core : Nat) (unit : Nat)
  /-- R337: System software resets a creel after a class 0x7 failure of its task unit or translation unit, or after a unit fails its wake check. -/
  | creelReset (lin : Nat)
  deriving DecidableEq, Repr

end Sys2Proof
end

