-- ==== Sys2Proof/WellFormed.lean ====
section
/-!
DEFINITION. Well-formed instructions: the operand values that a word's form accepts (R135, R342).

A field value that the form does not accept raises cause 0x01 at stage 2 of R339, so it is a property of the word. What
depends on a register, a descriptor, the mode or the window is checked where the instruction issues.
-/

namespace Sys2Proof

/-- R135: the rounding field holds 0b000 to 0b011. -/
def rounding (r : BitVec 3) : Bool := decide (r.toNat ≤ 3)

/-- R192, R201: the element types FP32, BF16 pair and FP16 pair. -/
def floatTy (y : BitVec 4) : Bool := decide (y.toNat ≤ 2)

/-- R193: the element types INT32, INT16 pair and INT8 quad. -/
def intTy (y : BitVec 4) : Bool := decide (3 ≤ y.toNat ∧ y.toNat ≤ 5)

/-- R188: the elements per lane of an element type. -/
def lanesPerTy (y : BitVec 4) : Nat :=
  match y.toNat with
  | 0 => 1 | 1 => 2 | 2 => 2 | 3 => 1 | 4 => 2 | 5 => 4 | _ => 0

/-- R195: the pairs of destination type `y` and source type `c` that VCVT accepts, with the values of `b` and of the rounding
field that each kind accepts. -/
def cvtForm (y : BitVec 4) (c b r : BitVec 3) : Bool :=
  match y.toNat, c.toNat with
  | 1, 0 | 2, 0 => rounding r
  | 4, 3 | 5, 4 => r == 0#3
  | 0, 1 | 0, 2 | 3, 4 | 4, 5 => decide (b.toNat ≤ 1) && r == 0#3
  | 3, 0 | 0, 3 => b == 0#3 && rounding r
  | _, _ => false

/-- An instruction whose operand values its form accepts (R135, R342). The window, the mode and the operand values held in
registers are no part of it. -/
def Instr.wf : Instr → Bool
  | .add _ _ _ => true
  | .sub _ _ _ => true
  | .and _ _ _ => true
  | .or _ _ _ => true
  | .xor _ _ _ => true
  | .andn _ _ _ => true
  | .sll _ _ _ => true
  | .srl _ _ _ => true
  | .sra _ _ _ => true
  | .rotr _ _ _ => true
  | .mins _ _ _ => true
  | .maxs _ _ _ => true
  | .minu _ _ _ => true
  | .maxu _ _ _ => true
  | .slt _ _ _ => true
  | .sltu _ _ _ => true
  | .seq _ _ _ => true
  | .sne _ _ _ => true
  | .addw _ _ _ => true
  | .subw _ _ _ => true
  | .sllw _ _ _ => true
  | .srlw _ _ _ => true
  | .sraw _ _ _ => true
  | .sel _ _ _ => true
  | .mul _ _ _ => true
  | .mulh _ _ _ => true
  | .mulhu _ _ _ => true
  | .mulw _ _ _ => true
  | .mad _ _ _ => true
  | .div _ _ _ => true
  | .divu _ _ _ => true
  | .rem _ _ _ => true
  | .remu _ _ _ => true
  | .divw _ _ _ => true
  | .remw _ _ _ => true
  | .clz _ _ => true
  | .ctz _ _ => true
  | .popc _ _ => true
  | .brev _ _ => true
  | .bswap _ _ => true
  | .bfx _ _ _ => true
  | .bfxu _ _ _ => true
  | .bfi _ _ _ => true
  | .sext _ _ _ => true
  | .addi _ _ _ => true
  | .andi _ _ _ => true
  | .ori _ _ _ => true
  | .xori _ _ _ => true
  | .slti _ _ _ => true
  | .sltiu _ _ _ => true
  | .slli _ _ _ => true
  | .srli _ _ _ => true
  | .srai _ _ _ => true
  | .rotri _ _ _ => true
  | .lea _ _ _ _ => true
  | .mkg _ _ => true
  | .li _ _ => true
  | .liu _ _ => true
  | .lihi _ _ => true
  | .addl _ _ => true
  | .andl _ _ => true
  | .orl _ _ => true
  | .xorl _ _ => true
  | .beq _ _ _ => true
  | .bne _ _ _ => true
  | .blt _ _ _ => true
  | .bge _ _ _ => true
  | .bltu _ _ _ => true
  | .bgeu _ _ _ => true
  | .j _ => true
  | .jal _ => true
  | .jalr _ _ _ => true
  | .coil _ _ _ _ _ => true
  | .join => true
  | .leave => true
  | .detach => true
  | .lag _ => true
  | .voteany _ _ => true
  | .voteall _ _ => true
  | .votecnt _ _ => true
  | .votemax _ _ => true
  | .ld _ _ z _ r => z != 7#3 && r != 3#2
  | .st _ _ z _ r => z.getLsbD 0 == false && r != 3#2
  | .ldf _ _ _ r => r != 3#2
  | .ldfe _ _ _ r => r != 3#2
  | .stfe _ _ _ r => r != 3#2
  | .stf _ _ _ r => r != 3#2
  | .sete _ _ r => r != 3#2
  | .gld _ _ z _ r => z != 7#3 && r != 3#2
  | .aaddD _ _ _ _ => true
  | .aandD _ _ _ _ => true
  | .aorD _ _ _ _ => true
  | .axorD _ _ _ _ => true
  | .aminD _ _ _ _ => true
  | .amaxD _ _ _ _ => true
  | .aminuD _ _ _ _ => true
  | .amaxuD _ _ _ _ => true
  | .aswapD _ _ _ => true
  | .acasD _ _ _ => true
  | .aaddW _ _ _ _ => true
  | .aandW _ _ _ _ => true
  | .aorW _ _ _ _ => true
  | .axorW _ _ _ _ => true
  | .aminW _ _ _ _ => true
  | .amaxW _ _ _ _ => true
  | .aminuW _ _ _ _ => true
  | .amaxuW _ _ _ _ => true
  | .aswapW _ _ _ => true
  | .acasW _ _ _ => true
  | .afadd _ _ _ _ => true
  | .afmin _ _ _ _ => true
  | .afmax _ _ _ _ => true
  | .bari _ _ => true
  | .bara _ _ _ => true
  | .barw _ _ _ => true
  | .bart _ _ _ => true
  | .putx _ _ _ => true
  | .emptyx _ _ => true
  | .spawn _ _ _ => true
  | .fence => true
  | .fenceE => true
  | .fenceI => true
  | .vld _ _ _ => true
  | .vst _ _ _ => true
  | .vlds _ _ _ _ => true
  | .vsts _ _ _ _ => true
  | .vldx _ _ _ _ => true
  | .vstx _ _ _ _ => true
  | .vadd _ _ _ _ y r => floatTy y && rounding r
  | .vsub _ _ _ _ y r => floatTy y && rounding r
  | .vmul _ _ _ _ y r => floatTy y && rounding r
  | .vfma _ _ _ _ _ y r => floatTy y && rounding r
  | .vmin _ _ _ _ y => floatTy y
  | .vmax _ _ _ _ y => floatTy y
  | .vabs _ _ _ y => floatTy y
  | .vneg _ _ _ y => floatTy y
  | .vcmpeq _ _ _ _ y => floatTy y
  | .vcmplt _ _ _ _ y => floatTy y
  | .vcmple _ _ _ _ y => floatTy y
  | .vsel _ _ _ _ _ y => floatTy y
  | .vdiv _ _ _ _ y r => floatTy y && rounding r
  | .vsqrt _ _ _ y r => floatTy y && rounding r
  | .vfms _ _ _ _ _ y r => floatTy y && rounding r
  | .viadd _ _ _ _ y => intTy y
  | .visub _ _ _ _ y => intTy y
  | .vimul _ _ _ _ y => intTy y
  | .vimad _ _ _ _ _ y => intTy y
  | .vand _ _ _ _ y => intTy y
  | .vor _ _ _ _ y => intTy y
  | .vxor _ _ _ _ y => intTy y
  | .vshl _ _ _ _ y => intTy y
  | .vshr _ _ _ _ y => intTy y
  | .vsra _ _ _ _ y => intTy y
  | .vimin _ _ _ _ y => intTy y
  | .vimax _ _ _ _ y => intTy y
  | .vicmpeq _ _ _ _ y => intTy y
  | .vicmplt _ _ _ _ y => intTy y
  | .vidot4 _ _ _ _ _ => true
  | .vcvt _ _ b c _ y r => cvtForm y c b r
  | .vdec _ _ _ c _ => decide (c.toNat ≤ 2)
  | .venc _ _ _ c _ r => decide (c.toNat ≤ 2) && rounding r
  | .vscl _ _ _ _ _ r => rounding r
  | .vqnt _ _ _ c _ y r => intTy y && decide (c.toNat < lanesPerTy y) && rounding r
  | .vsgn1 d _ b _ _ => d != b
  | .vdup _ _ _ y => decide (y.toNat ≤ 5)
  | .vlane _ _ y => decide (y.toNat ≤ 5)
  | .vins _ _ y => decide (y.toNat ≤ 5)
  | .vperm _ _ _ y => y == 0#3 || y == 3#3
  | .viota _ _ _ y _ => decide (3 ≤ y.toNat ∧ y.toNat ≤ 5)
  | .vrsum _ _ _ y u => (decide (y.toNat ≤ 2) && rounding u) || (decide (3 ≤ y.toNat ∧ y.toNat ≤ 5) && u == 0#3)
  | .vrmax _ _ _ y => decide (y.toNat ≤ 5)
  | .vrmin _ _ _ y => decide (y.toNat ≤ 5)
  | .vmsk _ _ _ => true
  | .vexp2 _ _ _ y r => floatTy y && rounding r
  | .vlog2 _ _ _ y r => floatTy y && rounding r
  | .vrcp _ _ _ y r => floatTy y && rounding r
  | .vrsq _ _ _ y r => floatTy y && rounding r
  | .vexp _ _ _ y r => floatTy y && rounding r
  | .vbuck _ _ _ _ => true
  | .vcnt _ _ _ => true
  | .vmovmToVector _ _ => true
  | .vmovmToMask _ _ => true
  | .mcfg _ _ => true
  | .mzero _ => true
  | .mma _ _ _ => true
  | .mmas _ _ _ => true
  | .mout _ _ _ => true
  | .min _ _ _ => true
  | .msave _ _ => true
  | .mrest _ _ => true
  | .msync => true
  | .tfpin _ _ _ => true
  | .tfrel _ => true
  | .pull _ _ c => c != 127#7
  | .pullx _ _ c => c != 127#7
  | .pullr _ _ c => c != 127#7
  | .pullm _ _ c => c != 127#7
  | .cpull _ _ c => c != 127#7
  | .pub _ _ => true
  | .puba _ _ => true
  | .watch _ _ _ => true
  | .wrange _ _ _ => true
  | .wwait _ _ => true
  | .wcancel _ => true
  | .psync => true
  | .gupd _ _ c => c != 127#7
  | .gbel _ _ c => c != 127#7
  | .gadd _ _ _ => true
  | .gelim _ _ _ => true
  | .gdamp _ _ _ => true
  | .gsolve _ _ => true
  | .gres _ _ _ => true
  | .gsync => true
  | .tqput _ _ _ => true
  | .tqget _ _ => true
  | .exit => true
  | .yield => true
  | .sleep _ => true
  | .trap _ => true
  | .eret => true
  | .sret => true
  | .csave _ _ => true
  | .crest _ _ => true
  | .brk => true
  | .scrub _ => true
  | .pause _ => true
  | .l2wb _ _ => true
  | .l2inv _ _ => true
  | .l2wbi _ _ => true
  | .rinv _ _ => true
  | .l2hm _ _ => true
  | .l2pf _ _ => true
  | .mfs _ _ => true
  | .mts _ _ => true
  | .registerWrite _ _ _ => true
  | .utimerWrite _ _ => true
  | .stimerWrite _ _ => true
  | .slockWrite _ _ => true
  | .hmaskWrite _ _ _ => true
  | .rootEntryWrite _ _ _ => true
  | .treeTableWrite _ _ _ => true
  | .translationInvalidate _ _ _ => true
  | .partitionRegisterWrite _ _ _ => true
  | .ttdataRead _ _ => true
  | .invalidationComplete _ => true
  | .slotTableEntryWrite _ _ _ => true
  | .taskParameterWrite _ _ _ => true
  | .slottabSelect _ _ => true
  | .worldWrite _ _ => true
  | .contextWordWrite _ _ _ _ => true
  | .contextEnable _ _ _ => true
  | .errClear _ _ => true
  | .kpendWrite _ _ _ => true
  | .kctlRotWrite _ => true
  | .lstatRetrain _ => true
  | .lstatFailClear _ _ => true
  | .mlostClear _ _ => true
  | .hostReadBar1 _ _ _ => true
  | .hostReadBar2 _ _ _ => true
  | .hostWriteDiscard _ _ _ => true
  | .channelPoll _ _ => true
  | .launchRecord _ _ => true
  | .stageRecord _ _ => true
  | .markerRecord _ _ => true
  | .inboxPlace _ _ => true
  | .inboxPull _ _ => true
  | .inboxPacketAccept _ _ => true
  | .placePacket _ => true
  | .balancingInterval _ => true
  | .levellingClaim _ _ => true
  | .grantRound _ => true
  | .levelledStagePull _ _ => true
  | .levelledAccept _ _ => true
  | .levelledCompletionUpdate _ _ => true
  | .frontEndDeliver _ => true
  | .strandFetchFill _ => true
  | .coilReplayIssue _ => true
  | .joinWatchdog _ => true
  | .memoryReply _ => true
  | .barwBoundExpire _ => true
  | .putxLand _ => true
  | .pageWalkComplete _ _ => true
  | .sectorFill _ => true
  | .readPortRead _ => true
  | .watchArmArrive _ => true
  | .watchWithdrawArrive _ => true
  | .watchAnswer _ => true
  | .watchRefusal _ => true
  | .pullRequestIssue _ _ => true
  | .pullSectorData _ => true
  | .cpullPeerReady _ _ => true
  | .treePullServe _ => true
  | .cpullWatchdog _ _ => true
  | .budgetPeriod _ => true
  | .matrixCommandComplete _ _ => true
  | .gaussCommandStart _ => true
  | .gaussCommandComplete _ => true
  | .utimerExpire _ => true
  | .userInterruptDelivery _ => true
  | .stimerExpire _ => true
  | .supervisorTimerTrap _ => true
  | .slotTerminate _ => true
  | .sleepExpire _ => true
  | .pauseEnd _ => true
  | .dramScrubRead _ _ => true
  | .sramScrubRead _ _ => true
  | .agentScrubRead _ _ => true
  | .flitArrival _ _ => true
  | .replayRequest _ _ => true
  | .widthNotice _ _ => true
  | .replayRequestRepeat _ => true
  | .ackTimeoutResend _ => true
  | .laneFailure _ _ => true
  | .portRetrainComplete _ => true
  | .ivExhaustionWarning _ => true
  | .ivLimitReached _ => true
  | .lossTimeout _ _ => true
  | .hostLinkDown _ => true
  | .functionLevelReset _ => true
  | .hostLinkUp _ => true
  | .hostReadTimeout _ _ => true
  | .droopDetect _ => true
  | .droopRecover _ => true
  | .powerLimitStep _ => true
  | .thermalStep _ => true
  | .thermalRecover _ => true
  | .thermalHold _ => true
  | .thermalReset _ => true
  | .supplyUndervoltReset _ => true
  | .stretchLimitReset _ => true
  | .moduleReset _ => true
  | .unitWake _ _ => true
  | .firmwareImageWrite _ _ => true
  | .floorRaise _ _ => true
  | .worldCreate _ _ _ => true
  | .worldDestroy _ _ => true
  | .provision _ => true
  | .ownerKeyInstall _ => true
  | .ownerRelease _ => true
  | .retire _ => true
  | .illegalInstruction _ => true
  | .storeCompletion _ => true
  | .powerGating _ _ => true
  | .creelReset _ => true

end Sys2Proof
end

