-- ==== Sys2Proof/Decode.lean ====
section
/-!
DEFINITION. Instruction words: the encoder and the decoder (R130 to R135, R341, R342).

`encode` lays an instruction's fields out as the formats of R131 do, most significant first. `decodeFields` reads the fields
back by major and function code (R133, R134). `decodeWord` adds the tests of stage 2 of R339 that depend on the word
alone: every reserved field zero (R6), which is the test that the fields read encode to the same word, and every operand
value assigned (R135, R342), which is `Instr.wf`.
-/

namespace Sys2Proof

/-- Why a word is not an instruction (R341, R342, R6). -/
inductive DecodeError where
  /-- The major opcode is unassigned (R133, R341). -/
  | unassignedMajor
  /-- The function code or sub-code is unassigned (R134, R342). -/
  | unassignedFunction
  /-- A reserved field is not zero (R6, R342). -/
  | reservedField
  /-- An operand value is not accepted by the form (R135, R342). -/
  | operandValue
  /-- Fewer bytes than the instruction has. -/
  | tooShort
  deriving DecidableEq, Repr

/-- Bits [lo + n − 1 : lo] of a word (R3). -/
def bits (w : BitVec 32) (lo n : Nat) : BitVec n := BitVec.ofNat n (w.toNat / 2 ^ lo)

/-- Bits [lo + n − 1 : lo] of a word, read as a number. -/
def code (w : BitVec 32) (lo n : Nat) : Nat := w.toNat / 2 ^ lo % 2 ^ n

/-- Format RRR (R131): three registers and a function code. -/
def fmtRRR (op : Nat) (d : BitVec 7) (a : BitVec 7) (b : BitVec 7) (fn : Nat) : BitVec 32 :=
  BitVec.ofNat 32 (op * 2 ^ 26 + d.toNat * 2 ^ 19 + a.toNat * 2 ^ 12 + b.toNat * 2 ^ 5 + fn)

/-- Format RI (R131): two registers and a 12-bit immediate. -/
def fmtRI (op : Nat) (d : BitVec 7) (a : BitVec 7) (imm : BitVec 12) : BitVec 32 :=
  BitVec.ofNat 32 (op * 2 ^ 26 + d.toNat * 2 ^ 19 + a.toNat * 2 ^ 12 + imm.toNat)

/-- Format M (R131): memory. -/
def fmtM (op : Nat) (t : BitVec 7) (base : BitVec 7) (sz : BitVec 3) (off : BitVec 7) (ord : BitVec 2) : BitVec 32 :=
  BitVec.ofNat 32 (op * 2 ^ 26 + t.toNat * 2 ^ 19 + base.toNat * 2 ^ 12 + sz.toNat * 2 ^ 9 + off.toNat * 2 ^ 2 + ord.toNat)

/-- Format A (R131): atomic. -/
def fmtA (op : Nat) (d : BitVec 7) (addr : BitVec 7) (val : BitVec 7) (aop : Nat) (c : BitVec 1) : BitVec 32 :=
  BitVec.ofNat 32 (op * 2 ^ 26 + d.toNat * 2 ^ 19 + addr.toNat * 2 ^ 12 + val.toNat * 2 ^ 5 + aop * 2 ^ 1 + c.toNat)

/-- Format B (R131): compare and branch. -/
def fmtB (op : Nat) (a : BitVec 7) (b : BitVec 7) (off : BitVec 12) : BitVec 32 :=
  BitVec.ofNat 32 (op * 2 ^ 26 + a.toNat * 2 ^ 19 + b.toNat * 2 ^ 12 + off.toNat)

/-- Format J (R131): jump. -/
def fmtJ (op : Nat) (off : BitVec 26) : BitVec 32 :=
  BitVec.ofNat 32 (op * 2 ^ 26 + off.toNat)

/-- Format C (R131): coil. -/
def fmtC (op : Nat) (n : BitVec 4) (reps : BitVec 6) (sd : BitVec 5) (sa : BitVec 5) (sb : BitVec 5) : BitVec 32 :=
  BitVec.ofNat 32 (op * 2 ^ 26 + n.toNat * 2 ^ 22 + reps.toNat * 2 ^ 16 + sd.toNat * 2 ^ 11 + sa.toNat * 2 ^ 6 + sb.toNat * 2 ^ 1)

/-- Format S (R131): system register. -/
def fmtS (op : Nat) (d : BitVec 7) (a : BitVec 7) (reg : BitVec 12) : BitVec 32 :=
  BitVec.ofNat 32 (op * 2 ^ 26 + d.toNat * 2 ^ 19 + a.toNat * 2 ^ 12 + reg.toNat)

/-- Format V (R131): vector. -/
def fmtV (op : Nat) (vd : BitVec 3) (va : BitVec 3) (vb : BitVec 3) (vc : BitVec 3) (mk : BitVec 2) (ty : BitVec 4) (rm : BitVec 3) (fn : Nat) : BitVec 32 :=
  BitVec.ofNat 32 (op * 2 ^ 26 + vd.toNat * 2 ^ 23 + va.toNat * 2 ^ 20 + vb.toNat * 2 ^ 17 + vc.toNat * 2 ^ 14 + mk.toNat * 2 ^ 12 + ty.toNat * 2 ^ 8 + rm.toNat * 2 ^ 5 + fn)

/-- Format VM (R131): vector memory. -/
def fmtVM (op : Nat) (w : BitVec 3) (xa : BitVec 7) (xb : BitVec 7) (wi : BitVec 3) (mk : BitVec 2) (fn : Nat) : BitVec 32 :=
  BitVec.ofNat 32 (op * 2 ^ 26 + w.toNat * 2 ^ 23 + xa.toNat * 2 ^ 16 + xb.toNat * 2 ^ 9 + wi.toNat * 2 ^ 6 + mk.toNat * 2 ^ 4 + fn)

/-- Format VX (R131): vector and general register. -/
def fmtVX (op : Nat) (vd : BitVec 3) (x : BitVec 7) (va : BitVec 3) (mk : BitVec 2) (ty : BitVec 3) (aux : BitVec 3) (fn : Nat) : BitVec 32 :=
  BitVec.ofNat 32 (op * 2 ^ 26 + vd.toNat * 2 ^ 23 + x.toNat * 2 ^ 16 + va.toNat * 2 ^ 13 + mk.toNat * 2 ^ 11 + ty.toNat * 2 ^ 8 + aux.toNat * 2 ^ 5 + fn)

/-- Format E (R131): engine. -/
def fmtE (op : Nat) (a : BitVec 7) (b : BitVec 7) (c : BitVec 7) (fn : Nat) : BitVec 32 :=
  BitVec.ofNat 32 (op * 2 ^ 26 + a.toNat * 2 ^ 19 + b.toNat * 2 ^ 12 + c.toNat * 2 ^ 5 + fn)

/-- Format L (R131): the first word of a LONG form; bits [13:0] are zero. -/
def fmtL (op : Nat) (d : BitVec 7) (fn : Nat) : BitVec 32 :=
  BitVec.ofNat 32 (op * 2 ^ 26 + d.toNat * 2 ^ 19 + fn * 2 ^ 14)

/-- The words of an instruction, first word first; a LONG form has two (R130, R157). A step of the machine without an
encoding has none, and a word that is no instruction is its own encoding. -/
def encode : Instr → List (BitVec 32)
  | .add d a b => [fmtRRR 0x01 d a b 0x00]
  | .sub d a b => [fmtRRR 0x01 d a b 0x01]
  | .and d a b => [fmtRRR 0x01 d a b 0x02]
  | .or d a b => [fmtRRR 0x01 d a b 0x03]
  | .xor d a b => [fmtRRR 0x01 d a b 0x04]
  | .andn d a b => [fmtRRR 0x01 d a b 0x05]
  | .sll d a b => [fmtRRR 0x01 d a b 0x06]
  | .srl d a b => [fmtRRR 0x01 d a b 0x07]
  | .sra d a b => [fmtRRR 0x01 d a b 0x08]
  | .rotr d a b => [fmtRRR 0x01 d a b 0x09]
  | .mins d a b => [fmtRRR 0x01 d a b 0x0A]
  | .maxs d a b => [fmtRRR 0x01 d a b 0x0B]
  | .minu d a b => [fmtRRR 0x01 d a b 0x0C]
  | .maxu d a b => [fmtRRR 0x01 d a b 0x0D]
  | .slt d a b => [fmtRRR 0x01 d a b 0x0E]
  | .sltu d a b => [fmtRRR 0x01 d a b 0x0F]
  | .seq d a b => [fmtRRR 0x01 d a b 0x10]
  | .sne d a b => [fmtRRR 0x01 d a b 0x11]
  | .addw d a b => [fmtRRR 0x01 d a b 0x12]
  | .subw d a b => [fmtRRR 0x01 d a b 0x13]
  | .sllw d a b => [fmtRRR 0x01 d a b 0x14]
  | .srlw d a b => [fmtRRR 0x01 d a b 0x15]
  | .sraw d a b => [fmtRRR 0x01 d a b 0x16]
  | .sel d a b => [fmtRRR 0x01 d a b 0x17]
  | .mul d a b => [fmtRRR 0x02 d a b 0x00]
  | .mulh d a b => [fmtRRR 0x02 d a b 0x01]
  | .mulhu d a b => [fmtRRR 0x02 d a b 0x02]
  | .mulw d a b => [fmtRRR 0x02 d a b 0x03]
  | .mad d a b => [fmtRRR 0x02 d a b 0x04]
  | .div d a b => [fmtRRR 0x02 d a b 0x05]
  | .divu d a b => [fmtRRR 0x02 d a b 0x06]
  | .rem d a b => [fmtRRR 0x02 d a b 0x07]
  | .remu d a b => [fmtRRR 0x02 d a b 0x08]
  | .divw d a b => [fmtRRR 0x02 d a b 0x09]
  | .remw d a b => [fmtRRR 0x02 d a b 0x0A]
  | .clz d a => [fmtRRR 0x03 d a 0 0x00]
  | .ctz d a => [fmtRRR 0x03 d a 0 0x01]
  | .popc d a => [fmtRRR 0x03 d a 0 0x02]
  | .brev d a => [fmtRRR 0x03 d a 0 0x03]
  | .bswap d a => [fmtRRR 0x03 d a 0 0x04]
  | .bfx d a b => [fmtRRR 0x03 d a b 0x05]
  | .bfxu d a b => [fmtRRR 0x03 d a b 0x06]
  | .bfi d a b => [fmtRRR 0x03 d a b 0x07]
  | .sext d a b => [fmtRRR 0x03 d a b 0x08]
  | .addi d a i => [fmtRI 0x04 d a i]
  | .andi d a i => [fmtRI 0x05 d a i]
  | .ori d a i => [fmtRI 0x06 d a i]
  | .xori d a i => [fmtRI 0x07 d a i]
  | .slti d a i => [fmtRI 0x08 d a i]
  | .sltiu d a i => [fmtRI 0x09 d a i]
  | .slli d a s => [fmtRI 0x0A d a (BitVec.ofNat 12 (s.toNat))]
  | .srli d a s => [fmtRI 0x0A d a (BitVec.ofNat 12 (s.toNat + 1024))]
  | .srai d a s => [fmtRI 0x0A d a (BitVec.ofNat 12 (s.toNat + 2048))]
  | .rotri d a s => [fmtRI 0x0A d a (BitVec.ofNat 12 (s.toNat + 3072))]
  | .lea d a b s => [fmtRRR 0x0B d a b (s.toNat)]
  | .mkg d a => [fmtRRR 0x0C d a 0 0x00]
  | .li d imm => [fmtL 0x0D d 0x00, imm]
  | .liu d imm => [fmtL 0x0D d 0x01, imm]
  | .lihi d imm => [fmtL 0x0D d 0x02, imm]
  | .addl d imm => [fmtL 0x0D d 0x03, imm]
  | .andl d imm => [fmtL 0x0D d 0x04, imm]
  | .orl d imm => [fmtL 0x0D d 0x05, imm]
  | .xorl d imm => [fmtL 0x0D d 0x06, imm]
  | .beq a b o => [fmtB 0x10 a b o]
  | .bne a b o => [fmtB 0x11 a b o]
  | .blt a b o => [fmtB 0x12 a b o]
  | .bge a b o => [fmtB 0x13 a b o]
  | .bltu a b o => [fmtB 0x14 a b o]
  | .bgeu a b o => [fmtB 0x15 a b o]
  | .j o => [fmtJ 0x16 o]
  | .jal o => [fmtJ 0x17 o]
  | .jalr d a i => [fmtRI 0x18 d a i]
  | .coil n r s t u => [fmtC 0x19 n r s t u]
  | .join => [fmtRRR 0x1A 0 0 0 0x00]
  | .leave => [fmtRRR 0x1A 0 0 0 0x01]
  | .detach => [fmtRRR 0x1A 0 0 0 0x02]
  | .lag d => [fmtRRR 0x1A d 0 0 0x03]
  | .voteany d a => [fmtRRR 0x1A d a 0 0x04]
  | .voteall d a => [fmtRRR 0x1A d a 0 0x05]
  | .votecnt d a => [fmtRRR 0x1A d a 0 0x06]
  | .votemax d a => [fmtRRR 0x1A d a 0 0x07]
  | .ld t b z o r => [fmtM 0x20 t b z o r]
  | .st t b z o r => [fmtM 0x21 t b z o r]
  | .ldf t b o r => [fmtM 0x22 t b 0 o r]
  | .ldfe t b o r => [fmtM 0x22 t b 1 o r]
  | .stfe t b o r => [fmtM 0x22 t b 2 o r]
  | .stf t b o r => [fmtM 0x22 t b 3 o r]
  | .sete b o r => [fmtM 0x22 0 b 4 o r]
  | .gld t b z o r => [fmtM 0x23 t b z o r]
  | .aaddD d a v c => [fmtA 0x24 d a v 0x00 c]
  | .aandD d a v c => [fmtA 0x24 d a v 0x01 c]
  | .aorD d a v c => [fmtA 0x24 d a v 0x02 c]
  | .axorD d a v c => [fmtA 0x24 d a v 0x03 c]
  | .aminD d a v c => [fmtA 0x24 d a v 0x04 c]
  | .amaxD d a v c => [fmtA 0x24 d a v 0x05 c]
  | .aminuD d a v c => [fmtA 0x24 d a v 0x06 c]
  | .amaxuD d a v c => [fmtA 0x24 d a v 0x07 c]
  | .aswapD d a v => [fmtA 0x24 d a v 0x08 0]
  | .acasD d a v => [fmtA 0x24 d a v 0x09 0]
  | .aaddW d a v c => [fmtA 0x25 d a v 0x00 c]
  | .aandW d a v c => [fmtA 0x25 d a v 0x01 c]
  | .aorW d a v c => [fmtA 0x25 d a v 0x02 c]
  | .axorW d a v c => [fmtA 0x25 d a v 0x03 c]
  | .aminW d a v c => [fmtA 0x25 d a v 0x04 c]
  | .amaxW d a v c => [fmtA 0x25 d a v 0x05 c]
  | .aminuW d a v c => [fmtA 0x25 d a v 0x06 c]
  | .amaxuW d a v c => [fmtA 0x25 d a v 0x07 c]
  | .aswapW d a v => [fmtA 0x25 d a v 0x08 0]
  | .acasW d a v => [fmtA 0x25 d a v 0x09 0]
  | .afadd d a v c => [fmtA 0x25 d a v 0x0A c]
  | .afmin d a v c => [fmtA 0x25 d a v 0x0B c]
  | .afmax d a v c => [fmtA 0x25 d a v 0x0C c]
  | .bari a b => [fmtRRR 0x26 0 a b 0x00]
  | .bara d a b => [fmtRRR 0x26 d a b 0x01]
  | .barw d a b => [fmtRRR 0x26 d a b 0x02]
  | .bart d a b => [fmtRRR 0x26 d a b 0x03]
  | .putx d a b => [fmtRRR 0x27 d a b 0x00]
  | .emptyx d a => [fmtRRR 0x27 d a 0 0x01]
  | .spawn d a b => [fmtRRR 0x27 d a b 0x02]
  | .fence => [fmtRRR 0x28 0 0 0 0x00]
  | .fenceE => [fmtRRR 0x28 0 0 0 0x01]
  | .fenceI => [fmtRRR 0x28 0 0 0 0x02]
  | .vld w a m => [fmtVM 0x29 w a 0 0 m 0x00]
  | .vst w a m => [fmtVM 0x29 w a 0 0 m 0x01]
  | .vlds w a b m => [fmtVM 0x29 w a b 0 m 0x02]
  | .vsts w a b m => [fmtVM 0x29 w a b 0 m 0x03]
  | .vldx w a i m => [fmtVM 0x29 w a 0 i m 0x04]
  | .vstx w a i m => [fmtVM 0x29 w a 0 i m 0x05]
  | .vadd d a b m y r => [fmtV 0x2A d a b 0 m y r 0x00]
  | .vsub d a b m y r => [fmtV 0x2A d a b 0 m y r 0x01]
  | .vmul d a b m y r => [fmtV 0x2A d a b 0 m y r 0x02]
  | .vfma d a b c m y r => [fmtV 0x2A d a b c m y r 0x03]
  | .vmin d a b m y => [fmtV 0x2A d a b 0 m y 0 0x04]
  | .vmax d a b m y => [fmtV 0x2A d a b 0 m y 0 0x05]
  | .vabs d a m y => [fmtV 0x2A d a 0 0 m y 0 0x06]
  | .vneg d a m y => [fmtV 0x2A d a 0 0 m y 0 0x07]
  | .vcmpeq d a b m y => [fmtV 0x2A d a b 0 m y 0 0x08]
  | .vcmplt d a b m y => [fmtV 0x2A d a b 0 m y 0 0x09]
  | .vcmple d a b m y => [fmtV 0x2A d a b 0 m y 0 0x0A]
  | .vsel d a b c m y => [fmtV 0x2A d a b c m y 0 0x0B]
  | .vdiv d a b m y r => [fmtV 0x2A d a b 0 m y r 0x0C]
  | .vsqrt d a m y r => [fmtV 0x2A d a 0 0 m y r 0x0D]
  | .vfms d a b c m y r => [fmtV 0x2A d a b c m y r 0x0E]
  | .viadd d a b m y => [fmtV 0x2B d a b 0 m y 0 0x00]
  | .visub d a b m y => [fmtV 0x2B d a b 0 m y 0 0x01]
  | .vimul d a b m y => [fmtV 0x2B d a b 0 m y 0 0x02]
  | .vimad d a b c m y => [fmtV 0x2B d a b c m y 0 0x03]
  | .vand d a b m y => [fmtV 0x2B d a b 0 m y 0 0x04]
  | .vor d a b m y => [fmtV 0x2B d a b 0 m y 0 0x05]
  | .vxor d a b m y => [fmtV 0x2B d a b 0 m y 0 0x06]
  | .vshl d a b m y => [fmtV 0x2B d a b 0 m y 0 0x07]
  | .vshr d a b m y => [fmtV 0x2B d a b 0 m y 0 0x08]
  | .vsra d a b m y => [fmtV 0x2B d a b 0 m y 0 0x09]
  | .vimin d a b m y => [fmtV 0x2B d a b 0 m y 0 0x0A]
  | .vimax d a b m y => [fmtV 0x2B d a b 0 m y 0 0x0B]
  | .vicmpeq d a b m y => [fmtV 0x2B d a b 0 m y 0 0x0C]
  | .vicmplt d a b m y => [fmtV 0x2B d a b 0 m y 0 0x0D]
  | .vidot4 d a b c m => [fmtV 0x2B d a b c m 5 0 0x0E]
  | .vcvt d a b c m y r => [fmtV 0x2C d a b c m y r 0x00]
  | .vdec d a b c m => [fmtV 0x2C d a b c m 0 0 0x01]
  | .venc d a b c m r => [fmtV 0x2C d a b c m 0 r 0x02]
  | .vscl d a b c m r => [fmtV 0x2C d a b c m 0 r 0x03]
  | .vqnt d a b c m y r => [fmtV 0x2C d a b c m y r 0x04]
  | .vsgn1 d a b c m => [fmtV 0x2C d a b c m 0 0 0x05]
  | .vdup d x m y => [fmtVX 0x2D d x 0 m y 0 0x00]
  | .vlane x a y => [fmtVX 0x2D 0 x a 0 y 0 0x01]
  | .vins d x y => [fmtVX 0x2D d x 0 0 y 0 0x02]
  | .vperm d a m y => [fmtVX 0x2D d 0 a m y 0 0x03]
  | .viota d x m y u => [fmtVX 0x2D d x 0 m y u 0x04]
  | .vrsum x a m y u => [fmtVX 0x2D 0 x a m y u 0x05]
  | .vrmax x a m y => [fmtVX 0x2D 0 x a m y 0 0x06]
  | .vrmin x a m y => [fmtVX 0x2D 0 x a m y 0 0x07]
  | .vmsk a m u => [fmtVX 0x2D 0 0 a m 3 (BitVec.ofNat 3 (u.toNat)) 0x08]
  | .vexp2 d a m y r => [fmtV 0x2E d a 0 0 m y r 0x00]
  | .vlog2 d a m y r => [fmtV 0x2E d a 0 0 m y r 0x01]
  | .vrcp d a m y r => [fmtV 0x2E d a 0 0 m y r 0x02]
  | .vrsq d a m y r => [fmtV 0x2E d a 0 0 m y r 0x03]
  | .vexp d a m y r => [fmtV 0x2E d a 0 0 m y r 0x04]
  | .vbuck d x a m => [fmtVX 0x2F d x a m 3 0 0x00]
  | .vcnt d a m => [fmtVX 0x2F d 0 a m 3 0 0x01]
  | .vmovmToVector d u => [fmtVX 0x2F d 0 0 0 0 (BitVec.ofNat 3 (u.toNat)) 0x02]
  | .vmovmToMask a u => [fmtVX 0x2F 0 0 a 0 0 (BitVec.ofNat 3 (u.toNat + 4)) 0x02]
  | .mcfg a b => [fmtE 0x30 a b 0 0x00]
  | .mzero c => [fmtE 0x30 0 0 c 0x01]
  | .mma a b c => [fmtE 0x30 a b c 0x02]
  | .mmas a b c => [fmtE 0x30 a b c 0x03]
  | .mout a b c => [fmtE 0x30 a b c 0x04]
  | .min a b c => [fmtE 0x30 a b c 0x05]
  | .msave a b => [fmtE 0x30 a b 0 0x06]
  | .mrest a b => [fmtE 0x30 a b 0 0x07]
  | .msync => [fmtE 0x30 0 0 0 0x08]
  | .tfpin a b c => [fmtE 0x30 a b c 0x09]
  | .tfrel a => [fmtE 0x30 a 0 0 0x0A]
  | .pull a b c => [fmtE 0x31 a b c 0x00]
  | .pullx a b c => [fmtE 0x31 a b c 0x01]
  | .pullr a b c => [fmtE 0x31 a b c 0x02]
  | .pullm a b c => [fmtE 0x31 a b c 0x03]
  | .cpull a b c => [fmtE 0x31 a b c 0x04]
  | .pub a b => [fmtE 0x31 a b 0 0x05]
  | .puba a b => [fmtE 0x31 a b 0 0x06]
  | .watch a b c => [fmtE 0x31 a b c 0x07]
  | .wrange a b c => [fmtE 0x31 a b c 0x08]
  | .wwait a c => [fmtE 0x31 a 0 c 0x09]
  | .wcancel c => [fmtE 0x31 0 0 c 0x0A]
  | .psync => [fmtE 0x31 0 0 0 0x0B]
  | .gupd a b c => [fmtE 0x32 a b c 0x00]
  | .gbel a b c => [fmtE 0x32 a b c 0x01]
  | .gadd a b c => [fmtE 0x32 a b c 0x02]
  | .gelim a b c => [fmtE 0x32 a b c 0x03]
  | .gdamp a b c => [fmtE 0x32 a b c 0x04]
  | .gsolve a c => [fmtE 0x32 a 0 c 0x05]
  | .gres a b c => [fmtE 0x32 a b c 0x06]
  | .gsync => [fmtE 0x32 0 0 0 0x07]
  | .tqput a b c => [fmtE 0x33 a b c 0x00]
  | .tqget a b => [fmtE 0x33 a b 0 0x01]
  | .exit => [fmtE 0x33 0 0 0 0x02]
  | .yield => [fmtE 0x33 0 0 0 0x03]
  | .sleep a => [fmtE 0x33 a 0 0 0x04]
  | .trap a => [fmtRRR 0x34 0 a 0 0x00]
  | .eret => [fmtRRR 0x34 0 0 0 0x01]
  | .sret => [fmtRRR 0x34 0 0 0 0x02]
  | .csave a b => [fmtRRR 0x34 0 a b 0x03]
  | .crest a b => [fmtRRR 0x34 0 a b 0x04]
  | .brk => [fmtRRR 0x34 0 0 0 0x05]
  | .scrub a => [fmtRRR 0x34 0 a 0 0x06]
  | .pause a => [fmtRRR 0x34 0 a 0 0x07]
  | .l2wb a b => [fmtE 0x35 a b 0 0x00]
  | .l2inv a b => [fmtE 0x35 a b 0 0x01]
  | .l2wbi a b => [fmtE 0x35 a b 0 0x02]
  | .rinv a b => [fmtE 0x35 a b 0 0x03]
  | .l2hm a b => [fmtE 0x35 a b 0 0x04]
  | .l2pf a b => [fmtE 0x35 a b 0 0x05]
  | .mfs d s => [fmtS 0x36 d 0 s]
  | .mts a s => [fmtS 0x37 0 a s]
  | .illegalInstruction w => [w]
  | .registerWrite _ _ _ => []
  | .utimerWrite _ _ => []
  | .stimerWrite _ _ => []
  | .slockWrite _ _ => []
  | .hmaskWrite _ _ _ => []
  | .rootEntryWrite _ _ _ => []
  | .treeTableWrite _ _ _ => []
  | .translationInvalidate _ _ _ => []
  | .partitionRegisterWrite _ _ _ => []
  | .ttdataRead _ _ => []
  | .invalidationComplete _ => []
  | .slotTableEntryWrite _ _ _ => []
  | .taskParameterWrite _ _ _ => []
  | .slottabSelect _ _ => []
  | .worldWrite _ _ => []
  | .contextWordWrite _ _ _ _ => []
  | .contextEnable _ _ _ => []
  | .errClear _ _ => []
  | .kpendWrite _ _ _ => []
  | .kctlRotWrite _ => []
  | .lstatRetrain _ => []
  | .lstatFailClear _ _ => []
  | .mlostClear _ _ => []
  | .hostReadBar1 _ _ _ => []
  | .hostReadBar2 _ _ _ => []
  | .hostWriteDiscard _ _ _ => []
  | .channelPoll _ _ => []
  | .launchRecord _ _ => []
  | .stageRecord _ _ => []
  | .markerRecord _ _ => []
  | .inboxPlace _ _ => []
  | .inboxPull _ _ => []
  | .inboxPacketAccept _ _ => []
  | .placePacket _ => []
  | .balancingInterval _ => []
  | .levellingClaim _ _ => []
  | .grantRound _ => []
  | .levelledStagePull _ _ => []
  | .levelledAccept _ _ => []
  | .levelledCompletionUpdate _ _ => []
  | .frontEndDeliver _ => []
  | .strandFetchFill _ => []
  | .coilReplayIssue _ => []
  | .joinWatchdog _ => []
  | .memoryReply _ => []
  | .barwBoundExpire _ => []
  | .putxLand _ => []
  | .pageWalkComplete _ _ => []
  | .sectorFill _ => []
  | .readPortRead _ => []
  | .watchArmArrive _ => []
  | .watchWithdrawArrive _ => []
  | .watchAnswer _ => []
  | .watchRefusal _ => []
  | .pullRequestIssue _ _ => []
  | .pullSectorData _ => []
  | .cpullPeerReady _ _ => []
  | .treePullServe _ => []
  | .cpullWatchdog _ _ => []
  | .budgetPeriod _ => []
  | .matrixCommandComplete _ _ => []
  | .gaussCommandStart _ => []
  | .gaussCommandComplete _ => []
  | .utimerExpire _ => []
  | .userInterruptDelivery _ => []
  | .stimerExpire _ => []
  | .supervisorTimerTrap _ => []
  | .slotTerminate _ => []
  | .sleepExpire _ => []
  | .pauseEnd _ => []
  | .dramScrubRead _ _ => []
  | .sramScrubRead _ _ => []
  | .agentScrubRead _ _ => []
  | .flitArrival _ _ => []
  | .replayRequest _ _ => []
  | .widthNotice _ _ => []
  | .replayRequestRepeat _ => []
  | .ackTimeoutResend _ => []
  | .laneFailure _ _ => []
  | .portRetrainComplete _ => []
  | .ivExhaustionWarning _ => []
  | .ivLimitReached _ => []
  | .lossTimeout _ _ => []
  | .hostLinkDown _ => []
  | .functionLevelReset _ => []
  | .hostLinkUp _ => []
  | .hostReadTimeout _ _ => []
  | .droopDetect _ => []
  | .droopRecover _ => []
  | .powerLimitStep _ => []
  | .thermalStep _ => []
  | .thermalRecover _ => []
  | .thermalHold _ => []
  | .thermalReset _ => []
  | .supplyUndervoltReset _ => []
  | .stretchLimitReset _ => []
  | .moduleReset _ => []
  | .unitWake _ _ => []
  | .firmwareImageWrite _ _ => []
  | .floorRaise _ _ => []
  | .worldCreate _ _ _ => []
  | .worldDestroy _ _ => []
  | .provision _ => []
  | .ownerKeyInstall _ => []
  | .ownerRelease _ => []
  | .retire _ => []
  | .storeCompletion _ => []
  | .powerGating _ _ => []
  | .creelReset _ => []

/-- Major 0x01, ALU (R134). -/
def decodeAlu (w : BitVec 32) : Except DecodeError Instr :=
  match code w 0 5 with
  | 0x00 => .ok (.add (bits w 19 7) (bits w 12 7) (bits w 5 7))
  | 0x01 => .ok (.sub (bits w 19 7) (bits w 12 7) (bits w 5 7))
  | 0x02 => .ok (.and (bits w 19 7) (bits w 12 7) (bits w 5 7))
  | 0x03 => .ok (.or (bits w 19 7) (bits w 12 7) (bits w 5 7))
  | 0x04 => .ok (.xor (bits w 19 7) (bits w 12 7) (bits w 5 7))
  | 0x05 => .ok (.andn (bits w 19 7) (bits w 12 7) (bits w 5 7))
  | 0x06 => .ok (.sll (bits w 19 7) (bits w 12 7) (bits w 5 7))
  | 0x07 => .ok (.srl (bits w 19 7) (bits w 12 7) (bits w 5 7))
  | 0x08 => .ok (.sra (bits w 19 7) (bits w 12 7) (bits w 5 7))
  | 0x09 => .ok (.rotr (bits w 19 7) (bits w 12 7) (bits w 5 7))
  | 0x0A => .ok (.mins (bits w 19 7) (bits w 12 7) (bits w 5 7))
  | 0x0B => .ok (.maxs (bits w 19 7) (bits w 12 7) (bits w 5 7))
  | 0x0C => .ok (.minu (bits w 19 7) (bits w 12 7) (bits w 5 7))
  | 0x0D => .ok (.maxu (bits w 19 7) (bits w 12 7) (bits w 5 7))
  | 0x0E => .ok (.slt (bits w 19 7) (bits w 12 7) (bits w 5 7))
  | 0x0F => .ok (.sltu (bits w 19 7) (bits w 12 7) (bits w 5 7))
  | 0x10 => .ok (.seq (bits w 19 7) (bits w 12 7) (bits w 5 7))
  | 0x11 => .ok (.sne (bits w 19 7) (bits w 12 7) (bits w 5 7))
  | 0x12 => .ok (.addw (bits w 19 7) (bits w 12 7) (bits w 5 7))
  | 0x13 => .ok (.subw (bits w 19 7) (bits w 12 7) (bits w 5 7))
  | 0x14 => .ok (.sllw (bits w 19 7) (bits w 12 7) (bits w 5 7))
  | 0x15 => .ok (.srlw (bits w 19 7) (bits w 12 7) (bits w 5 7))
  | 0x16 => .ok (.sraw (bits w 19 7) (bits w 12 7) (bits w 5 7))
  | 0x17 => .ok (.sel (bits w 19 7) (bits w 12 7) (bits w 5 7))
  | _ => .error .unassignedFunction

/-- Major 0x02, MULDIV (R134). -/
def decodeMulDiv (w : BitVec 32) : Except DecodeError Instr :=
  match code w 0 5 with
  | 0x00 => .ok (.mul (bits w 19 7) (bits w 12 7) (bits w 5 7))
  | 0x01 => .ok (.mulh (bits w 19 7) (bits w 12 7) (bits w 5 7))
  | 0x02 => .ok (.mulhu (bits w 19 7) (bits w 12 7) (bits w 5 7))
  | 0x03 => .ok (.mulw (bits w 19 7) (bits w 12 7) (bits w 5 7))
  | 0x04 => .ok (.mad (bits w 19 7) (bits w 12 7) (bits w 5 7))
  | 0x05 => .ok (.div (bits w 19 7) (bits w 12 7) (bits w 5 7))
  | 0x06 => .ok (.divu (bits w 19 7) (bits w 12 7) (bits w 5 7))
  | 0x07 => .ok (.rem (bits w 19 7) (bits w 12 7) (bits w 5 7))
  | 0x08 => .ok (.remu (bits w 19 7) (bits w 12 7) (bits w 5 7))
  | 0x09 => .ok (.divw (bits w 19 7) (bits w 12 7) (bits w 5 7))
  | 0x0A => .ok (.remw (bits w 19 7) (bits w 12 7) (bits w 5 7))
  | _ => .error .unassignedFunction

/-- Major 0x03, BIT (R134). -/
def decodeBit (w : BitVec 32) : Except DecodeError Instr :=
  match code w 0 5 with
  | 0x00 => .ok (.clz (bits w 19 7) (bits w 12 7))
  | 0x01 => .ok (.ctz (bits w 19 7) (bits w 12 7))
  | 0x02 => .ok (.popc (bits w 19 7) (bits w 12 7))
  | 0x03 => .ok (.brev (bits w 19 7) (bits w 12 7))
  | 0x04 => .ok (.bswap (bits w 19 7) (bits w 12 7))
  | 0x05 => .ok (.bfx (bits w 19 7) (bits w 12 7) (bits w 5 7))
  | 0x06 => .ok (.bfxu (bits w 19 7) (bits w 12 7) (bits w 5 7))
  | 0x07 => .ok (.bfi (bits w 19 7) (bits w 12 7) (bits w 5 7))
  | 0x08 => .ok (.sext (bits w 19 7) (bits w 12 7) (bits w 5 7))
  | _ => .error .unassignedFunction

/-- Major 0x0A, SHI (R134). -/
def decodeShi (w : BitVec 32) : Except DecodeError Instr :=
  match code w 10 2 with
  | 0x00 => .ok (.slli (bits w 19 7) (bits w 12 7) (bits w 0 6))
  | 0x01 => .ok (.srli (bits w 19 7) (bits w 12 7) (bits w 0 6))
  | 0x02 => .ok (.srai (bits w 19 7) (bits w 12 7) (bits w 0 6))
  | 0x03 => .ok (.rotri (bits w 19 7) (bits w 12 7) (bits w 0 6))
  | _ => .error .unassignedFunction

/-- Major 0x1A, WEAVE (R134). -/
def decodeWeave (w : BitVec 32) : Except DecodeError Instr :=
  match code w 0 5 with
  | 0x00 => .ok (.join)
  | 0x01 => .ok (.leave)
  | 0x02 => .ok (.detach)
  | 0x03 => .ok (.lag (bits w 19 7))
  | 0x04 => .ok (.voteany (bits w 19 7) (bits w 12 7))
  | 0x05 => .ok (.voteall (bits w 19 7) (bits w 12 7))
  | 0x06 => .ok (.votecnt (bits w 19 7) (bits w 12 7))
  | 0x07 => .ok (.votemax (bits w 19 7) (bits w 12 7))
  | _ => .error .unassignedFunction

/-- Major 0x22, LSYNC (R134). -/
def decodeLsync (w : BitVec 32) : Except DecodeError Instr :=
  match code w 9 3 with
  | 0x00 => .ok (.ldf (bits w 19 7) (bits w 12 7) (bits w 2 7) (bits w 0 2))
  | 0x01 => .ok (.ldfe (bits w 19 7) (bits w 12 7) (bits w 2 7) (bits w 0 2))
  | 0x02 => .ok (.stfe (bits w 19 7) (bits w 12 7) (bits w 2 7) (bits w 0 2))
  | 0x03 => .ok (.stf (bits w 19 7) (bits w 12 7) (bits w 2 7) (bits w 0 2))
  | 0x04 => .ok (.sete (bits w 12 7) (bits w 2 7) (bits w 0 2))
  | _ => .error .unassignedFunction

/-- Major 0x24, A64 (R134). -/
def decodeA64 (w : BitVec 32) : Except DecodeError Instr :=
  match code w 1 4 with
  | 0x00 => .ok (.aaddD (bits w 19 7) (bits w 12 7) (bits w 5 7) (bits w 0 1))
  | 0x01 => .ok (.aandD (bits w 19 7) (bits w 12 7) (bits w 5 7) (bits w 0 1))
  | 0x02 => .ok (.aorD (bits w 19 7) (bits w 12 7) (bits w 5 7) (bits w 0 1))
  | 0x03 => .ok (.axorD (bits w 19 7) (bits w 12 7) (bits w 5 7) (bits w 0 1))
  | 0x04 => .ok (.aminD (bits w 19 7) (bits w 12 7) (bits w 5 7) (bits w 0 1))
  | 0x05 => .ok (.amaxD (bits w 19 7) (bits w 12 7) (bits w 5 7) (bits w 0 1))
  | 0x06 => .ok (.aminuD (bits w 19 7) (bits w 12 7) (bits w 5 7) (bits w 0 1))
  | 0x07 => .ok (.amaxuD (bits w 19 7) (bits w 12 7) (bits w 5 7) (bits w 0 1))
  | 0x08 => .ok (.aswapD (bits w 19 7) (bits w 12 7) (bits w 5 7))
  | 0x09 => .ok (.acasD (bits w 19 7) (bits w 12 7) (bits w 5 7))
  | _ => .error .unassignedFunction

/-- Major 0x25, A32 (R134). -/
def decodeA32 (w : BitVec 32) : Except DecodeError Instr :=
  match code w 1 4 with
  | 0x00 => .ok (.aaddW (bits w 19 7) (bits w 12 7) (bits w 5 7) (bits w 0 1))
  | 0x01 => .ok (.aandW (bits w 19 7) (bits w 12 7) (bits w 5 7) (bits w 0 1))
  | 0x02 => .ok (.aorW (bits w 19 7) (bits w 12 7) (bits w 5 7) (bits w 0 1))
  | 0x03 => .ok (.axorW (bits w 19 7) (bits w 12 7) (bits w 5 7) (bits w 0 1))
  | 0x04 => .ok (.aminW (bits w 19 7) (bits w 12 7) (bits w 5 7) (bits w 0 1))
  | 0x05 => .ok (.amaxW (bits w 19 7) (bits w 12 7) (bits w 5 7) (bits w 0 1))
  | 0x06 => .ok (.aminuW (bits w 19 7) (bits w 12 7) (bits w 5 7) (bits w 0 1))
  | 0x07 => .ok (.amaxuW (bits w 19 7) (bits w 12 7) (bits w 5 7) (bits w 0 1))
  | 0x08 => .ok (.aswapW (bits w 19 7) (bits w 12 7) (bits w 5 7))
  | 0x09 => .ok (.acasW (bits w 19 7) (bits w 12 7) (bits w 5 7))
  | 0x0A => .ok (.afadd (bits w 19 7) (bits w 12 7) (bits w 5 7) (bits w 0 1))
  | 0x0B => .ok (.afmin (bits w 19 7) (bits w 12 7) (bits w 5 7) (bits w 0 1))
  | 0x0C => .ok (.afmax (bits w 19 7) (bits w 12 7) (bits w 5 7) (bits w 0 1))
  | _ => .error .unassignedFunction

/-- Major 0x26, BAR (R134). -/
def decodeBar (w : BitVec 32) : Except DecodeError Instr :=
  match code w 0 5 with
  | 0x00 => .ok (.bari (bits w 12 7) (bits w 5 7))
  | 0x01 => .ok (.bara (bits w 19 7) (bits w 12 7) (bits w 5 7))
  | 0x02 => .ok (.barw (bits w 19 7) (bits w 12 7) (bits w 5 7))
  | 0x03 => .ok (.bart (bits w 19 7) (bits w 12 7) (bits w 5 7))
  | _ => .error .unassignedFunction

/-- Major 0x27, XMSG (R134). -/
def decodeXmsg (w : BitVec 32) : Except DecodeError Instr :=
  match code w 0 5 with
  | 0x00 => .ok (.putx (bits w 19 7) (bits w 12 7) (bits w 5 7))
  | 0x01 => .ok (.emptyx (bits w 19 7) (bits w 12 7))
  | 0x02 => .ok (.spawn (bits w 19 7) (bits w 12 7) (bits w 5 7))
  | _ => .error .unassignedFunction

/-- Major 0x28, FENCE (R134). -/
def decodeFence (w : BitVec 32) : Except DecodeError Instr :=
  match code w 0 5 with
  | 0x00 => .ok (.fence)
  | 0x01 => .ok (.fenceE)
  | 0x02 => .ok (.fenceI)
  | _ => .error .unassignedFunction

/-- Major 0x29, VMEM (R134). -/
def decodeVmem (w : BitVec 32) : Except DecodeError Instr :=
  match code w 0 4 with
  | 0x00 => .ok (.vld (bits w 23 3) (bits w 16 7) (bits w 4 2))
  | 0x01 => .ok (.vst (bits w 23 3) (bits w 16 7) (bits w 4 2))
  | 0x02 => .ok (.vlds (bits w 23 3) (bits w 16 7) (bits w 9 7) (bits w 4 2))
  | 0x03 => .ok (.vsts (bits w 23 3) (bits w 16 7) (bits w 9 7) (bits w 4 2))
  | 0x04 => .ok (.vldx (bits w 23 3) (bits w 16 7) (bits w 6 3) (bits w 4 2))
  | 0x05 => .ok (.vstx (bits w 23 3) (bits w 16 7) (bits w 6 3) (bits w 4 2))
  | _ => .error .unassignedFunction

/-- Major 0x2A, VFP (R134). -/
def decodeVfp (w : BitVec 32) : Except DecodeError Instr :=
  match code w 0 5 with
  | 0x00 => .ok (.vadd (bits w 23 3) (bits w 20 3) (bits w 17 3) (bits w 12 2) (bits w 8 4) (bits w 5 3))
  | 0x01 => .ok (.vsub (bits w 23 3) (bits w 20 3) (bits w 17 3) (bits w 12 2) (bits w 8 4) (bits w 5 3))
  | 0x02 => .ok (.vmul (bits w 23 3) (bits w 20 3) (bits w 17 3) (bits w 12 2) (bits w 8 4) (bits w 5 3))
  | 0x03 => .ok (.vfma (bits w 23 3) (bits w 20 3) (bits w 17 3) (bits w 14 3) (bits w 12 2) (bits w 8 4) (bits w 5 3))
  | 0x04 => .ok (.vmin (bits w 23 3) (bits w 20 3) (bits w 17 3) (bits w 12 2) (bits w 8 4))
  | 0x05 => .ok (.vmax (bits w 23 3) (bits w 20 3) (bits w 17 3) (bits w 12 2) (bits w 8 4))
  | 0x06 => .ok (.vabs (bits w 23 3) (bits w 20 3) (bits w 12 2) (bits w 8 4))
  | 0x07 => .ok (.vneg (bits w 23 3) (bits w 20 3) (bits w 12 2) (bits w 8 4))
  | 0x08 => .ok (.vcmpeq (bits w 23 3) (bits w 20 3) (bits w 17 3) (bits w 12 2) (bits w 8 4))
  | 0x09 => .ok (.vcmplt (bits w 23 3) (bits w 20 3) (bits w 17 3) (bits w 12 2) (bits w 8 4))
  | 0x0A => .ok (.vcmple (bits w 23 3) (bits w 20 3) (bits w 17 3) (bits w 12 2) (bits w 8 4))
  | 0x0B => .ok (.vsel (bits w 23 3) (bits w 20 3) (bits w 17 3) (bits w 14 3) (bits w 12 2) (bits w 8 4))
  | 0x0C => .ok (.vdiv (bits w 23 3) (bits w 20 3) (bits w 17 3) (bits w 12 2) (bits w 8 4) (bits w 5 3))
  | 0x0D => .ok (.vsqrt (bits w 23 3) (bits w 20 3) (bits w 12 2) (bits w 8 4) (bits w 5 3))
  | 0x0E => .ok (.vfms (bits w 23 3) (bits w 20 3) (bits w 17 3) (bits w 14 3) (bits w 12 2) (bits w 8 4) (bits w 5 3))
  | _ => .error .unassignedFunction

/-- Major 0x2B, VINT (R134). -/
def decodeVint (w : BitVec 32) : Except DecodeError Instr :=
  match code w 0 5 with
  | 0x00 => .ok (.viadd (bits w 23 3) (bits w 20 3) (bits w 17 3) (bits w 12 2) (bits w 8 4))
  | 0x01 => .ok (.visub (bits w 23 3) (bits w 20 3) (bits w 17 3) (bits w 12 2) (bits w 8 4))
  | 0x02 => .ok (.vimul (bits w 23 3) (bits w 20 3) (bits w 17 3) (bits w 12 2) (bits w 8 4))
  | 0x03 => .ok (.vimad (bits w 23 3) (bits w 20 3) (bits w 17 3) (bits w 14 3) (bits w 12 2) (bits w 8 4))
  | 0x04 => .ok (.vand (bits w 23 3) (bits w 20 3) (bits w 17 3) (bits w 12 2) (bits w 8 4))
  | 0x05 => .ok (.vor (bits w 23 3) (bits w 20 3) (bits w 17 3) (bits w 12 2) (bits w 8 4))
  | 0x06 => .ok (.vxor (bits w 23 3) (bits w 20 3) (bits w 17 3) (bits w 12 2) (bits w 8 4))
  | 0x07 => .ok (.vshl (bits w 23 3) (bits w 20 3) (bits w 17 3) (bits w 12 2) (bits w 8 4))
  | 0x08 => .ok (.vshr (bits w 23 3) (bits w 20 3) (bits w 17 3) (bits w 12 2) (bits w 8 4))
  | 0x09 => .ok (.vsra (bits w 23 3) (bits w 20 3) (bits w 17 3) (bits w 12 2) (bits w 8 4))
  | 0x0A => .ok (.vimin (bits w 23 3) (bits w 20 3) (bits w 17 3) (bits w 12 2) (bits w 8 4))
  | 0x0B => .ok (.vimax (bits w 23 3) (bits w 20 3) (bits w 17 3) (bits w 12 2) (bits w 8 4))
  | 0x0C => .ok (.vicmpeq (bits w 23 3) (bits w 20 3) (bits w 17 3) (bits w 12 2) (bits w 8 4))
  | 0x0D => .ok (.vicmplt (bits w 23 3) (bits w 20 3) (bits w 17 3) (bits w 12 2) (bits w 8 4))
  | 0x0E => .ok (.vidot4 (bits w 23 3) (bits w 20 3) (bits w 17 3) (bits w 14 3) (bits w 12 2))
  | _ => .error .unassignedFunction

/-- Major 0x2C, VCVT (R134). -/
def decodeVcvt (w : BitVec 32) : Except DecodeError Instr :=
  match code w 0 5 with
  | 0x00 => .ok (.vcvt (bits w 23 3) (bits w 20 3) (bits w 17 3) (bits w 14 3) (bits w 12 2) (bits w 8 4) (bits w 5 3))
  | 0x01 => .ok (.vdec (bits w 23 3) (bits w 20 3) (bits w 17 3) (bits w 14 3) (bits w 12 2))
  | 0x02 => .ok (.venc (bits w 23 3) (bits w 20 3) (bits w 17 3) (bits w 14 3) (bits w 12 2) (bits w 5 3))
  | 0x03 => .ok (.vscl (bits w 23 3) (bits w 20 3) (bits w 17 3) (bits w 14 3) (bits w 12 2) (bits w 5 3))
  | 0x04 => .ok (.vqnt (bits w 23 3) (bits w 20 3) (bits w 17 3) (bits w 14 3) (bits w 12 2) (bits w 8 4) (bits w 5 3))
  | 0x05 => .ok (.vsgn1 (bits w 23 3) (bits w 20 3) (bits w 17 3) (bits w 14 3) (bits w 12 2))
  | _ => .error .unassignedFunction

/-- Major 0x2D, VPERM (R134). -/
def decodeVperm (w : BitVec 32) : Except DecodeError Instr :=
  match code w 0 5 with
  | 0x00 => .ok (.vdup (bits w 23 3) (bits w 16 7) (bits w 11 2) (bits w 8 3))
  | 0x01 => .ok (.vlane (bits w 16 7) (bits w 13 3) (bits w 8 3))
  | 0x02 => .ok (.vins (bits w 23 3) (bits w 16 7) (bits w 8 3))
  | 0x03 => .ok (.vperm (bits w 23 3) (bits w 13 3) (bits w 11 2) (bits w 8 3))
  | 0x04 => .ok (.viota (bits w 23 3) (bits w 16 7) (bits w 11 2) (bits w 8 3) (bits w 5 3))
  | 0x05 => .ok (.vrsum (bits w 16 7) (bits w 13 3) (bits w 11 2) (bits w 8 3) (bits w 5 3))
  | 0x06 => .ok (.vrmax (bits w 16 7) (bits w 13 3) (bits w 11 2) (bits w 8 3))
  | 0x07 => .ok (.vrmin (bits w 16 7) (bits w 13 3) (bits w 11 2) (bits w 8 3))
  | 0x08 => .ok (.vmsk (bits w 13 3) (bits w 11 2) (bits w 5 2))
  | _ => .error .unassignedFunction

/-- Major 0x2E, VSPEC (R134). -/
def decodeVspec (w : BitVec 32) : Except DecodeError Instr :=
  match code w 0 5 with
  | 0x00 => .ok (.vexp2 (bits w 23 3) (bits w 20 3) (bits w 12 2) (bits w 8 4) (bits w 5 3))
  | 0x01 => .ok (.vlog2 (bits w 23 3) (bits w 20 3) (bits w 12 2) (bits w 8 4) (bits w 5 3))
  | 0x02 => .ok (.vrcp (bits w 23 3) (bits w 20 3) (bits w 12 2) (bits w 8 4) (bits w 5 3))
  | 0x03 => .ok (.vrsq (bits w 23 3) (bits w 20 3) (bits w 12 2) (bits w 8 4) (bits w 5 3))
  | 0x04 => .ok (.vexp (bits w 23 3) (bits w 20 3) (bits w 12 2) (bits w 8 4) (bits w 5 3))
  | _ => .error .unassignedFunction

/-- Major 0x2F, VMISC (R134). -/
def decodeVmisc (w : BitVec 32) : Except DecodeError Instr :=
  match code w 0 5 with
  | 0x00 => .ok (.vbuck (bits w 23 3) (bits w 16 7) (bits w 13 3) (bits w 11 2))
  | 0x01 => .ok (.vcnt (bits w 23 3) (bits w 13 3) (bits w 11 2))
  | 0x02 =>
    if code w 7 1 = 0 then .ok (.vmovmToVector (bits w 23 3) (bits w 5 2))
    else .ok (.vmovmToMask (bits w 13 3) (bits w 5 2))
  | _ => .error .unassignedFunction

/-- Major 0x30, MTX (R134). -/
def decodeMtx (w : BitVec 32) : Except DecodeError Instr :=
  match code w 0 5 with
  | 0x00 => .ok (.mcfg (bits w 19 7) (bits w 12 7))
  | 0x01 => .ok (.mzero (bits w 5 7))
  | 0x02 => .ok (.mma (bits w 19 7) (bits w 12 7) (bits w 5 7))
  | 0x03 => .ok (.mmas (bits w 19 7) (bits w 12 7) (bits w 5 7))
  | 0x04 => .ok (.mout (bits w 19 7) (bits w 12 7) (bits w 5 7))
  | 0x05 => .ok (.min (bits w 19 7) (bits w 12 7) (bits w 5 7))
  | 0x06 => .ok (.msave (bits w 19 7) (bits w 12 7))
  | 0x07 => .ok (.mrest (bits w 19 7) (bits w 12 7))
  | 0x08 => .ok (.msync)
  | 0x09 => .ok (.tfpin (bits w 19 7) (bits w 12 7) (bits w 5 7))
  | 0x0A => .ok (.tfrel (bits w 19 7))
  | _ => .error .unassignedFunction

/-- Major 0x31, PULL (R134). -/
def decodePull (w : BitVec 32) : Except DecodeError Instr :=
  match code w 0 5 with
  | 0x00 => .ok (.pull (bits w 19 7) (bits w 12 7) (bits w 5 7))
  | 0x01 => .ok (.pullx (bits w 19 7) (bits w 12 7) (bits w 5 7))
  | 0x02 => .ok (.pullr (bits w 19 7) (bits w 12 7) (bits w 5 7))
  | 0x03 => .ok (.pullm (bits w 19 7) (bits w 12 7) (bits w 5 7))
  | 0x04 => .ok (.cpull (bits w 19 7) (bits w 12 7) (bits w 5 7))
  | 0x05 => .ok (.pub (bits w 19 7) (bits w 12 7))
  | 0x06 => .ok (.puba (bits w 19 7) (bits w 12 7))
  | 0x07 => .ok (.watch (bits w 19 7) (bits w 12 7) (bits w 5 7))
  | 0x08 => .ok (.wrange (bits w 19 7) (bits w 12 7) (bits w 5 7))
  | 0x09 => .ok (.wwait (bits w 19 7) (bits w 5 7))
  | 0x0A => .ok (.wcancel (bits w 5 7))
  | 0x0B => .ok (.psync)
  | _ => .error .unassignedFunction

/-- Major 0x32, GAUSS (R134). -/
def decodeGauss (w : BitVec 32) : Except DecodeError Instr :=
  match code w 0 5 with
  | 0x00 => .ok (.gupd (bits w 19 7) (bits w 12 7) (bits w 5 7))
  | 0x01 => .ok (.gbel (bits w 19 7) (bits w 12 7) (bits w 5 7))
  | 0x02 => .ok (.gadd (bits w 19 7) (bits w 12 7) (bits w 5 7))
  | 0x03 => .ok (.gelim (bits w 19 7) (bits w 12 7) (bits w 5 7))
  | 0x04 => .ok (.gdamp (bits w 19 7) (bits w 12 7) (bits w 5 7))
  | 0x05 => .ok (.gsolve (bits w 19 7) (bits w 5 7))
  | 0x06 => .ok (.gres (bits w 19 7) (bits w 12 7) (bits w 5 7))
  | 0x07 => .ok (.gsync)
  | _ => .error .unassignedFunction

/-- Major 0x33, TASK (R134). -/
def decodeTask (w : BitVec 32) : Except DecodeError Instr :=
  match code w 0 5 with
  | 0x00 => .ok (.tqput (bits w 19 7) (bits w 12 7) (bits w 5 7))
  | 0x01 => .ok (.tqget (bits w 19 7) (bits w 12 7))
  | 0x02 => .ok (.exit)
  | 0x03 => .ok (.yield)
  | 0x04 => .ok (.sleep (bits w 19 7))
  | _ => .error .unassignedFunction

/-- Major 0x34, SYS (R134). -/
def decodeSys (w : BitVec 32) : Except DecodeError Instr :=
  match code w 0 5 with
  | 0x00 => .ok (.trap (bits w 12 7))
  | 0x01 => .ok (.eret)
  | 0x02 => .ok (.sret)
  | 0x03 => .ok (.csave (bits w 12 7) (bits w 5 7))
  | 0x04 => .ok (.crest (bits w 12 7) (bits w 5 7))
  | 0x05 => .ok (.brk)
  | 0x06 => .ok (.scrub (bits w 12 7))
  | 0x07 => .ok (.pause (bits w 12 7))
  | _ => .error .unassignedFunction

/-- Major 0x35, CACHE (R134). -/
def decodeCache (w : BitVec 32) : Except DecodeError Instr :=
  match code w 0 5 with
  | 0x00 => .ok (.l2wb (bits w 19 7) (bits w 12 7))
  | 0x01 => .ok (.l2inv (bits w 19 7) (bits w 12 7))
  | 0x02 => .ok (.l2wbi (bits w 19 7) (bits w 12 7))
  | 0x03 => .ok (.rinv (bits w 19 7) (bits w 12 7))
  | 0x04 => .ok (.l2hm (bits w 19 7) (bits w 12 7))
  | 0x05 => .ok (.l2pf (bits w 19 7) (bits w 12 7))
  | _ => .error .unassignedFunction

/-- Major 0x0D, LONG (R157): the register, the function code and the extension word. -/
def decodeLong (w imm : BitVec 32) : Except DecodeError Instr :=
  match code w 14 5 with
  | 0x00 => .ok (.li (bits w 19 7) imm)
  | 0x01 => .ok (.liu (bits w 19 7) imm)
  | 0x02 => .ok (.lihi (bits w 19 7) imm)
  | 0x03 => .ok (.addl (bits w 19 7) imm)
  | 0x04 => .ok (.andl (bits w 19 7) imm)
  | 0x05 => .ok (.orl (bits w 19 7) imm)
  | 0x06 => .ok (.xorl (bits w 19 7) imm)
  | _ => .error .unassignedFunction

/-- The fields of a word, read by its major opcode (R133). `imm` is the extension word that follows it. -/
def decodeFields (w imm : BitVec 32) : Except DecodeError Instr :=
  match code w 26 6 with
  | 0x01 => decodeAlu w
  | 0x02 => decodeMulDiv w
  | 0x03 => decodeBit w
  | 0x04 => .ok (.addi (bits w 19 7) (bits w 12 7) (bits w 0 12))
  | 0x05 => .ok (.andi (bits w 19 7) (bits w 12 7) (bits w 0 12))
  | 0x06 => .ok (.ori (bits w 19 7) (bits w 12 7) (bits w 0 12))
  | 0x07 => .ok (.xori (bits w 19 7) (bits w 12 7) (bits w 0 12))
  | 0x08 => .ok (.slti (bits w 19 7) (bits w 12 7) (bits w 0 12))
  | 0x09 => .ok (.sltiu (bits w 19 7) (bits w 12 7) (bits w 0 12))
  | 0x0A => decodeShi w
  | 0x0B => .ok (.lea (bits w 19 7) (bits w 12 7) (bits w 5 7) (bits w 0 3))
  | 0x0C => .ok (.mkg (bits w 19 7) (bits w 12 7))
  | 0x0D => decodeLong w imm
  | 0x10 => .ok (.beq (bits w 19 7) (bits w 12 7) (bits w 0 12))
  | 0x11 => .ok (.bne (bits w 19 7) (bits w 12 7) (bits w 0 12))
  | 0x12 => .ok (.blt (bits w 19 7) (bits w 12 7) (bits w 0 12))
  | 0x13 => .ok (.bge (bits w 19 7) (bits w 12 7) (bits w 0 12))
  | 0x14 => .ok (.bltu (bits w 19 7) (bits w 12 7) (bits w 0 12))
  | 0x15 => .ok (.bgeu (bits w 19 7) (bits w 12 7) (bits w 0 12))
  | 0x16 => .ok (.j (bits w 0 26))
  | 0x17 => .ok (.jal (bits w 0 26))
  | 0x18 => .ok (.jalr (bits w 19 7) (bits w 12 7) (bits w 0 12))
  | 0x19 => .ok (.coil (bits w 22 4) (bits w 16 6) (bits w 11 5) (bits w 6 5) (bits w 1 5))
  | 0x1A => decodeWeave w
  | 0x20 => .ok (.ld (bits w 19 7) (bits w 12 7) (bits w 9 3) (bits w 2 7) (bits w 0 2))
  | 0x21 => .ok (.st (bits w 19 7) (bits w 12 7) (bits w 9 3) (bits w 2 7) (bits w 0 2))
  | 0x22 => decodeLsync w
  | 0x23 => .ok (.gld (bits w 19 7) (bits w 12 7) (bits w 9 3) (bits w 2 7) (bits w 0 2))
  | 0x24 => decodeA64 w
  | 0x25 => decodeA32 w
  | 0x26 => decodeBar w
  | 0x27 => decodeXmsg w
  | 0x28 => decodeFence w
  | 0x29 => decodeVmem w
  | 0x2A => decodeVfp w
  | 0x2B => decodeVint w
  | 0x2C => decodeVcvt w
  | 0x2D => decodeVperm w
  | 0x2E => decodeVspec w
  | 0x2F => decodeVmisc w
  | 0x30 => decodeMtx w
  | 0x31 => decodePull w
  | 0x32 => decodeGauss w
  | 0x33 => decodeTask w
  | 0x34 => decodeSys w
  | 0x35 => decodeCache w
  | 0x36 => .ok (.mfs (bits w 19 7) (bits w 0 12))
  | 0x37 => .ok (.mts (bits w 12 7) (bits w 0 12))
  | _ => .error .unassignedMajor

/-- The instruction that the word `w` is, `imm` being the word that follows it. A word that fails a test is refused by
name (R6, R133 to R135, R342). -/
def decodeWord (w imm : BitVec 32) : Except DecodeError Instr :=
  match decodeFields w imm with
  | .error e => .error e
  | .ok i =>
    if (encode i).head? = some w then
      if i.wf then .ok i else .error .operandValue
    else .error .reservedField

/-- R341: only major 0x0D makes a two-word instruction, whatever its other bits hold. -/
def isLongMajor (w : BitVec 32) : Bool := code w 26 6 == 0x0D

/-- R343: major 0x0D, an assigned function code and bits [13:0] zero. -/
def isLongWord (w : BitVec 32) : Bool :=
  isLongMajor w && decide (code w 14 5 ≤ 6) && code w 0 14 == 0

/-- The length in bytes of the instruction that begins with word `w` (R130, R341). -/
def wordLength (w : BitVec 32) : Nat := if isLongMajor w then 8 else 4

/-- What the words `w` and `imm` issue as: the instruction they are, or the illegal word (R341). -/
def decodeOrIllegal (w imm : BitVec 32) : Instr :=
  match decodeWord w imm with
  | .ok i => i
  | .error _ => .illegalInstruction w

/-- A 32-bit word from four bytes, the least significant first (R3). -/
def wordOfBytes (b0 b1 b2 b3 : BitVec 8) : BitVec 32 := b3 ++ b2 ++ b1 ++ b0

/-- The four bytes of a word, the least significant first (R3). -/
def bytesOfWord (w : BitVec 32) : List (BitVec 8) :=
  [w.extractLsb' 0 8, w.extractLsb' 8 8, w.extractLsb' 16 8, w.extractLsb' 24 8]

/-- The instruction at the head of a list of bytes, with the bytes after it. -/
def decodeBytes : List (BitVec 8) → Except DecodeError (Instr × List (BitVec 8))
  | b0 :: b1 :: b2 :: b3 :: rest =>
    let w := wordOfBytes b0 b1 b2 b3
    if isLongMajor w then
      match rest with
      | c0 :: c1 :: c2 :: c3 :: rest' =>
        match decodeWord w (wordOfBytes c0 c1 c2 c3) with
        | .ok i => .ok (i, rest')
        | .error e => .error e
      | _ => .error .tooShort
    else
      match decodeWord w 0#32 with
      | .ok i => .ok (i, rest)
      | .error e => .error e
  | _ => .error .tooShort

/-- The bytes of an instruction as memory holds them (R3, R130). -/
def encodeBytes (i : Instr) : List (BitVec 8) := (encode i).flatMap bytesOfWord

/-- The instruction whose first 32 bits are bits 31 to 0 of `w` and whose extension word is bits 63 to 32, read by the
decoder from the eight bytes that hold them. -/
def decodeTableWord (nbits w : Nat) : Option Instr :=
  let v := w % 2 ^ nbits
  let bytes := bytesOfWord (BitVec.ofNat 32 v) ++ bytesOfWord (BitVec.ofNat 32 (v / 2 ^ 32))
  match decodeBytes bytes with
  | .ok (i, _) => some i
  | .error _ => none

end Sys2Proof
end

