-- ==== Sys2Proof/Config.lean ====
section
/-!
DEFINITION. What the manual leaves open: constants without a body, so that nothing in Lean knows their values (log 2), and the
values that the model's assumption log names.
-/

namespace Sys2Proof

/-- A free number for each number: a latency in cycles, a choice among victims (R80, R168; log 2). -/
opaque Config.freeNat : Nat → Nat

/-- A free 64-bit value for each number (log 2). -/
opaque Config.freeWord : Nat → Word

/-- What a 16-byte block reads as under another key than the one it was written under: reader's key, writer's key, block number
and the plaintext written (R308; log 10). -/
opaque Config.foreignBlock : Nat → Nat → Nat → Nat → BitVec 128

/-- The CRC-32 of a flit's bytes 0 to 251, as a number (R303 names no polynomial; log 14). -/
opaque Config.crc32 : Nat → BitVec 32

/-- What AES-GCM makes of a flit: the key, the 96-bit IV and the flit as a number; the 228 bytes of payload as a number when its tag passes
(R303, R304; log 14). -/
opaque Config.linkOpen : BitVec 256 → Nat → Nat → Option (BitVec 1824)

/-- Bytes 8 to 251 of a flit, the encrypted payload and the tag, as AES-GCM gives them: the key, the 96-bit IV, the header and the payload as numbers
(R303, R304; log 14). -/
opaque Config.linkSeal : BitVec 256 → Nat → Nat → Nat → BitVec 1952

/-- Whether an image carries a valid signature of the maker, and of the owner (R315; log 14). -/
opaque Config.makerSigned : Nat → Bool
opaque Config.ownerSigned : Nat → Bool

/-- The version that an image carries (R315; log 14). -/
opaque Config.imageVersion : Nat → BitVec 32

/-- The address at which firmware starts (R326 names it and gives no value; log 1). -/
def Config.firmwareEntry : Nat := 0x1000

/-- One more than the last register of the firmware slots' windows (log 3). -/
def Config.firmwareWindow : Nat := 128

end Sys2Proof
end

