-- ==== Sys2Proof/Machine/State.lean ====
section
/-!
DEFINITION. The state of the machine as plain data, and the state right after reset.

Numbers of units. A creel of the pod is `lin` = 128 × module + creel. A core is `core` = 32 × lin + core number. A slot
is 16 × core + slot number, so 512 × lin + 16 × core number + slot number (R9, R10). A global physical address is
`lin` × 2^45 + local physical address (R63), and `lin` × 2^45 is the window of the creel (R64). Tables that hold one entry for
each unit are lists of (number, entry) in rising order; a number that is not listed has the entry's default.

Times are absolute cycles: a counter that counts down is held as the cycle at which it reaches 0.
-/

namespace Sys2Proof.Machine

/-- A table from numbers to entries, kept in rising order of number. -/
abbrev SMap (α : Type) := List (Nat × α)

/-- Why a step stops. -/
inductive Fault where
  /-- Raised by `step` when the head of `inputs` is a step that the outside of the module cannot cause. Safe: the machine
  stops where the input queue holds what no host, link or sensor delivers. -/
  | strayInput
  deriving DecidableEq, Repr

/-- Why an instruction has no meaning. -/
inductive Refusal where
  /-- Raised by `exec` for an instruction that this model does not give a meaning yet. Safe. -/
  | notModelled (mnemonic : String)
  deriving DecidableEq, Repr

/-- A trap that an instruction or a fetch raises: its cause (R330), its STVAL (R331) and its DEF bit. -/
structure Trap where
  cause : Nat
  val : Word
  deferred : Bool
  deriving DecidableEq, Repr

/-- One entry of the register file: the value, the presence bit, the interrupting mark (R136, R185) and the number of the
access whose reply it awaits, 0 for none (R168). -/
structure Reg where
  val : Word
  pres : Bool
  mark : Bool
  tok : Nat
  deriving DecidableEq, Repr

/-- The states of a weave member (R49). -/
inductive MemberState where
  | attached
  | strand
  | jwait (a : Nat)
  | left
  | exited
  deriving DecidableEq, Repr

/-- The states of a weave context (R49). -/
inductive CtxState where
  | run
  | branch
  | hold (a : Nat)
  | empty
  deriving DecidableEq, Repr

/-- A checked piece of memory: its global physical address, its home core when it lies in the DRAM slice, the home attribute of its
leaf (R79), and the translation that gave it: its space and its page bits (R77). -/
structure Place where
  gpa : Nat
  home : Option Nat
  hk : Bool
  hm : Nat
  global : Bool
  bits : Nat
  deriving DecidableEq, Repr

/-- A run of bytes within one page at consecutive addresses. -/
structure Span where
  va : Nat
  n : Nat
  place : Place
  deriving DecidableEq, Repr

/-- A range form in progress (R236, R293): its function code in CACHE, 6 for WRANGE; the next address to translate and the bytes left; what has been
checked and not yet acted on; WRANGE's register, start and length; and its number among the accesses, given when it first parks (R294). -/
structure Sweep where
  fn : Nat
  va : Nat
  left : Nat
  spans : List Span
  k : Nat
  start : Word
  len : Word
  since : Nat
  deriving DecidableEq, Repr

/-- What a slot is parked on. `none` also stands for the waits at an instruction boundary that a turn tests again: the slot
reissues its instruction at each turn, and takes an event first (R136, R373). `hold` is such a wait with events held
pending (R373). -/
inductive Wait where
  | none
  | hold
  /-- An access in flight, by its number (R168). -/
  | access (id : Nat)
  /-- A table walk of the slot's access, and one of its fetch (R76). -/
  | walk
  | fwalk
  /-- A strand instruction cache fill of the line of a virtual address, due at a cycle (R48). -/
  | ifill (va due : Nat)
  /-- A bank's LSYNC wait list (R171). -/
  | lsync
  /-- A blocked arrival (R179). -/
  | bara
  /-- A wait for a barrier phase, with the cycle at which its bound ends, 0 for none (R180). -/
  | barw (bound : Nat)
  /-- A wait for watch register K (R235). -/
  | wwait (k : Nat)
  /-- SLEEP, until a cycle (R279). -/
  | sleep (until_ : Nat)
  /-- PAUSE, with the turns left to miss (R285). -/
  | pause (turns : Nat)
  /-- YIELD, with the turns left to miss (R278). -/
  | yield (turns : Nat)
  /-- A VOTE that has been issued: its function code, destination register and the member's value (R53). -/
  | vote (fn d : Nat) (value : Word)
  /-- A JOIN at A that has been issued, with the cycle at which the join watchdog fires (R50, R51). -/
  | join (a deadline : Nat)
  /-- A branch that has been issued, with the member's own next address (R46). -/
  | branch (next : Nat)
  /-- An MTS to TTDATA that waits for an invalidation to drain (R77): the accesses and commands translated before, and the slots whose waits were. -/
  | inval (ids slots : List Nat)
  /-- A range form that goes on, page by page and line by line, at its slot's turns (R293, R324). -/
  | sweep (w : Sweep)
  /-- A trap of the parked instruction, taken at the slot's next turn (R169, R172, R179, R357). -/
  | trapping (t : Trap)
  /-- A trap entry whose save waits for the slot's earlier accesses (R327): the address for SEPC, the trap, and ATT. -/
  | entry (a : Nat) (t : Trap) (att : Bool)
  deriving DecidableEq, Repr

/-- An entry of a slack queue: a delivered word with its extension word, or a fault entry (R43, R162). `resolved` holds the
weave's next address once the pilot has resolved the branch that the entry holds (R47). -/
structure QEntry where
  addr : Nat
  word : IWord
  ext : IWord
  fault : Option Trap
  at_ : Nat
  resolved : Option Nat
  deriving DecidableEq, Repr

/-- Coil state of a slot (R55, R56, R58): the captured words, the repetitions, the strides, the position (k, i) of the next
issue, the address of frame word 0, and whether the frame is suspended. -/
structure Coil where
  words : List IWord
  reps : Nat
  sd : Nat
  sa : Nat
  sb : Nat
  k : Nat
  i : Nat
  base : Nat
  suspended : Bool
  deriving DecidableEq, Repr

/-- STATE of a watch register (R231). -/
inductive WatchState where
  | free
  | pend
  | ans
  | lost
  deriving DecidableEq, Repr

/-- A watch register with its bound range (R231, R236). `arm` numbers the arm that the register waits for, and `bind`
the binding of its range, 0 for none (R81). -/
structure Watch where
  state : WatchState
  addr : Word
  thr : Word
  ansv : Word
  int : Bool
  arm : Nat
  bind : Nat
  start : Word
  len : Word
  deriving DecidableEq, Repr

/-- Where a watch arm stands (R232 to R234): on its way to the owner, in the owner's table, waiting at the requester for room
in it, answered with a value, refused, or withdrawn. -/
inductive ArmStage where
  /-- Held back by the budget of its creel (R251). -/
  | unsent
  | sent
  | held
  | queued
  | answered (v : Word)
  | refused
  /-- Its withdrawal is on its way; whether the arm holds an entry at the owner until then. -/
  | withdrawn (held : Bool)
  deriving DecidableEq, Repr

/-- A watch arm: the slot and register that made it (16 + g for the internal watch of the CPULL of group g, R249), the word's global virtual and
global physical address, the threshold, the cycle at which its next message arrives, and the cycle in which the arm was sent (R360). -/
structure Arm where
  id : Nat
  slot : Nat
  reg : Nat
  va : Nat
  gpa : Nat
  thr : Word
  stage : ArmStage
  due : Nat
  since : Nat
  deriving DecidableEq, Repr

/-- A failed engine command that is pending in its slot: ticket and cause (R333). -/
structure Failure where
  ticket : Nat
  cause : Nat
  pc : Nat
  deriving DecidableEq, Repr

/-- An entry of the pin table of a slot: the range that TFPIN pinned (R223). -/
structure Pin where
  base : Nat
  len : Nat
  lines : List Nat
  deriving DecidableEq, Repr

/-- A thread slot (R137, R138): everything that a slot holds beside its window of the register file. -/
structure Slot where
  busy : Bool
  /-- WINDOW (R30): first entry, and one more than the last. -/
  base : Nat
  limit : Nat
  /-- Address of the instruction that the slot issues next. -/
  pc : Nat
  member : MemberState
  memb : Nat
  width : Nat
  /-- Number of the weave that the member belongs to. -/
  weave : Nat
  queue : List QEntry
  wait : Wait
  /-- The next fetch follows a control transfer (R343). -/
  xfer : Bool
  /-- Shadow registers 1 to 7 (R137). -/
  shadow : SMap Reg
  vec : SMap (BitVec 4096)
  masks : SMap (BitVec 128)
  uvec : BitVec 48
  uepc : BitVec 47
  upend : BitVec 4
  /-- While a CSAVE or CREST waits: PEND when it issued, and the bits that events have set since (R291). -/
  ctxWait : Option (BitVec 4 × BitVec 4)
  uih : Bool
  ucode : BitVec 8
  umask : BitVec 4
  /-- The cycle at which UTIMER reaches 0, 0 when it is not armed (R36). -/
  utimer : Nat
  fa : Word
  fb : Word
  fc : Word
  sa : BitVec 47
  sb : BitVec 47
  gtau : BitVec 32
  gquiet : Bool
  gnf : Bool
  gsb : Bool
  sepc : BitVec 47
  scause : BitVec 10
  stval : Word
  mode : Bool
  pm : Bool
  uf : Bool
  nest : Bool
  nosave : Bool
  world : BitVec 6
  asid : BitVec 9
  sbase : BitVec 12
  sbound : BitVec 12
  slock : Bool
  /-- The cycle at which STIMER reaches 0, 0 when it is not armed, and its pending event (R287). -/
  stimer : Nat
  stimerPend : Bool
  ttidx : BitVec 16
  coil : Option Coil
  watches : SMap Watch
  mcfg : Word
  pins : SMap Pin
  serial : Nat
  failures : List Failure
  /-- Relaxed-load faults not yet raised: register number and address of the load (R169). -/
  rfaults : List (Nat × Word)
  /-- The slot waits for its work to drain before it ends (R328). -/
  terminating : Bool
  /-- One more than the cycle in which the slot last became idle, 0 for never (R28, R187). -/
  idleAt : Nat
  deriving DecidableEq, Repr

/-- A slot that no member occupies, with every register at its reset value (R28, R138). -/
def Slot.idle : Slot where
  busy := false
  base := 0
  limit := 0
  pc := 0
  member := .strand
  memb := 0
  width := 1
  weave := 0
  queue := []
  wait := .none
  xfer := false
  shadow := []
  vec := []
  masks := []
  uvec := 0
  uepc := 0
  upend := 0
  ctxWait := none
  uih := false
  ucode := 0
  umask := 0
  utimer := 0
  fa := 0
  fb := 0
  fc := 0
  sa := 0
  sb := 0
  gtau := 0
  gquiet := false
  gnf := false
  gsb := false
  sepc := 0
  scause := 0
  stval := 0
  mode := false
  pm := false
  uf := false
  nest := false
  nosave := false
  world := 0
  asid := 0
  sbase := 0
  sbound := 0
  slock := false
  stimer := 0
  stimerPend := false
  ttidx := 0
  coil := none
  watches := []
  mcfg := 0x6000003060
  pins := []
  serial := 1
  failures := []
  rfaults := []
  terminating := false
  idleAt := 0

/-- A translation held by a TLB (R76): its tags, the virtual page and its size, and the leaf's fields (R70). `frame` is
the first address of the page: a local physical address in a local entry, a global physical address in a global one. -/
structure Tlb where
  asid : Nat
  global : Bool
  world : Nat
  vpage : Nat
  bits : Nat
  frame : Nat
  home : Nat
  hk : Bool
  nc : Bool
  u : Bool
  x : Bool
  w : Bool
  rd : Bool
  deriving DecidableEq, Repr

/-- A miss of the creel TLB: a walk in flight, or one waiting for admission (R76), with its requesters and the virtual address of each (R358).
`due` is the cycle at which its next entry is read, and `at_` the level of that entry and its table's local physical address, none before the root
entry has been read (R71). -/
structure Walk where
  id : Nat
  asid : Nat
  global : Bool
  world : Nat
  page : Nat
  started : Bool
  due : Nat
  at_ : Option (Nat × Nat)
  reqs : List (Nat × Nat)
  deriving DecidableEq, Repr

/-- Why a walk gives no translation: a cause of R72, or an uncorrectable entry at an address of a level (R359). -/
inductive WalkErr where
  | cause (c : Nat)
  | bad (gpa lvl : Nat)
  deriving DecidableEq, Repr

/-- A fault of a walk that a unit asked for and has not taken yet: the requester, the page and the fault (R76). -/
structure WFault where
  req : Nat
  page : Nat
  err : WalkErr
  deriving DecidableEq, Repr

/-- The tag of a reader-cache line filled within a bound range: the binding, its slot and register, and the answered
value at the fill (R81). -/
structure Tag where
  bind : Nat
  slot : Nat
  reg : Nat
  v : Word
  deriving DecidableEq, Repr

/-- A line of an L2 slice (R80, R81). `line` is the global physical address of its first byte divided by 1,024; `hk` and `hm`
are the home attribute recorded at the fill (R79); `valid` and `dirty` have one bit for each sector. -/
structure Line where
  line : Nat
  reader : Bool
  hk : Bool
  hm : Nat
  pins : Nat
  tag : Option Tag
  valid : BitVec 8
  dirty : BitVec 8
  deriving DecidableEq, Repr

/-- What an access in flight does with its pieces of memory (R168, R173, R190, R205). -/
inductive AccKind where
  /-- A load of x(t): the size code of R166. -/
  | load (z : Nat)
  | store
  /-- An atomic of R173: operation, operand and expected value. -/
  | atomic (aop : Nat) (v expect : Word)
  /-- A vector load into register w, with the lanes read so far. -/
  | vload (w : Nat) (got : List (Nat × Nat))
  | vstore
  /-- VBUCK into register w (R205): each active lane with its bucket and its rank in it, B, and the counters' old values so far. -/
  | vbuck (w bound : Nat) (lanes : List (Nat × Nat × Nat)) (olds : List (Nat × Nat))
  /-- A GLD on its way to the owner's read port (R172): size code and ord. -/
  | gld (z ord : Nat)
  /-- Its answer on the way back: what was read, with the tag at the read's place when it fills a reader-cache line (R81), or the trap it
  raises. -/
  | gldData (z : Nat) (v : Nat) (fill : Option (Option Tag))
  | gldTrap (t : Trap)
  deriving DecidableEq, Repr

/-- One piece of an access: its virtual address, its global physical address, its home core when it lies in the DRAM slice, the space and
the page bits of its translation (R77), its size in bytes, and a lane number or the data stored. -/
structure Part where
  va : Nat
  gpa : Nat
  home : Option Nat
  hk : Bool
  hm : Nat
  global : Bool
  bits : Nat
  size : Nat
  lane : Nat
  data : Nat
  deriving DecidableEq, Repr

/-- An access that has left its slot and not completed (R168). `reg` is the destination register of the window and `entry` its
register-file entry. A plain access has parked its slot; a relaxed one has not. -/
structure Access where
  id : Nat
  slot : Nat
  kind : AccKind
  parts : List Part
  reg : Nat
  entry : Nat
  relaxed : Bool
  commut : Bool
  due : Nat
  /-- A sector fill that the access waits for, 0 for none (R80), and whether one was made for it (R370). -/
  fill : Nat
  filled : Bool
  world : Nat
  asid : Nat
  nc : Bool
  /-- The address of the instruction that issued it (R335), and the cycle in which it left its slot (R360). -/
  pc : Nat
  since : Nat
  deriving DecidableEq, Repr

/-- A sector fill in progress (R80): the slice, the sector's global physical address and the home attribute recorded. -/
structure Fill where
  id : Nat
  core : Nat
  gpa : Nat
  hk : Bool
  hm : Nat
  due : Nat
  deriving DecidableEq, Repr

/-- An LSYNC form on a wait list (R171): sz, word address, page bits of its translation, and the values captured at issue. -/
structure LWait where
  slot : Nat
  form : Nat
  gpa : Nat
  va : Nat
  bits : Nat
  reg : Nat
  value : Word
  deriving DecidableEq, Repr

/-- A blocked BARA or a parked BARW (R179, R180): the object's address, page bits of its translation, the phase, the count. -/
structure BWait where
  slot : Nat
  arrive : Bool
  gpa : Nat
  va : Nat
  bits : Nat
  phase : Nat
  count : Nat
  reg : Nat
  deriving DecidableEq, Repr

/-- A PUTX value in flight (R184). -/
structure Putx where
  id : Nat
  slot : Nat
  weave : Nat
  entry : Nat
  value : Word
  due : Nat
  deriving DecidableEq, Repr

/-- A weave (R27, R49, R396). -/
structure Weave where
  lin : Nat
  idx : Nat
  width : Nat
  cores : List Nat
  ctx : Bool
  cstate : CtxState
  fetchPc : Nat
  xfer : Bool
  /-- The first cycle in which the context delivers again (R46). -/
  from_ : Nat
  world : Nat
  asid : Nat
  /-- Completion word of the packet, 0 for none, and what its records name (R32, R397). -/
  done : Nat
  lnum : Nat
  word0 : Word
  word12 : Word
  /-- The core and the slot that issued its TQPUT, 0 for any other packet (R397). -/
  byCore : Nat
  bySlot : Nat
  /-- The creel that accepted the packet, and the serial and direction of a levelled one (R33, R284). -/
  home : Nat
  levelled : Option (Nat × Nat)
  deriving DecidableEq, Repr

/-- Why a pull stopped: the offset in its destination, STATUS (R241), and the source's addresses. -/
structure PullFail where
  at_ : Nat
  status : Nat
  va : Nat
  gpa : Nat
  deriving DecidableEq, Repr

/-- The headers of a PULLM (R245): COUNT, CAP, and the overflow list's address, count and capacity, with the places of the entries read, of the
destination and of the overflow list. -/
structure MergeHead where
  count : Nat
  cap : Nat
  ov : Nat
  ovCount : Nat
  ovCap : Nat
  src : List Span
  dst : List Span
  spill : List Span
  deriving DecidableEq, Repr

/-- A pull-engine command (R238 to R250): its channel, its operands and what it took from its slot at issue (R347), the places of its
destination, of PULLX's index list or CPULL's contribution, and of its completion word. -/
structure PullCmd where
  id : Nat
  slot : Nat
  ch : Nat
  fn : Nat
  a : Nat
  b : Nat
  ctl : Nat
  dst : List Span
  src : List Span
  comp : List Span
  ticket : Nat
  pc : Nat
  world : BitVec 6
  asid : BitVec 9
  mode : Bool
  /-- Offset in the destination of the next request (in the source for SGNACC and PULLM), and whether the last request has issued. -/
  cur : Nat
  issued : Bool
  /-- What the head of the source gave: PULLX's G, the header of SGNACC, PULLM's count; PULLM's local headers; and the aligned word of two indices
  that holds that of PULLX's current element (R322). -/
  head : Option Nat
  merge : Option MergeHead
  idx : Option Nat
  /-- PULLM's remote entries by offset. -/
  buf : List (Nat × Nat)
  fail : Option PullFail
  /-- Destination words, by address, that wait until the command has the whole of their uncorrectable block or sector (R354). -/
  wrote : SMap Nat
  /-- CPULL: the group, the instance, the place of ISEQ, the phase (0 waits for the parent, 1 + 2 × ch waits for a child, 2 + 2 × ch
  combines it) and the cycle at which the wait began. -/
  group : Nat
  inst : Nat
  iseq : List Span
  phase : Nat
  since : Nat
  deriving DecidableEq, Repr

/-- A request of the pull engine for source bytes within one sector (R240), and its answer: the bytes, how many of them are good, the status
that stops the command, 0 for none; and the cycle in which it was sent (R360). `bits` are the page bits of its translation (R77). -/
structure PullReq where
  id : Nat
  lin : Nat
  cmd : Nat
  start : Nat
  len : Nat
  va : Nat
  gpa : Nat
  bits : Nat
  n : Nat
  hk : Bool
  home : Nat
  answered : Bool
  due : Nat
  data : Nat
  good : Nat
  status : Nat
  since : Nat
  deriving DecidableEq, Repr

/-- A queued matrix command (R211 to R213): what it took from its slot at issue (R347), its ticket (R332), the address of the
instruction, how many of its steps or rows are done, and the cycle of the next one, 0 while it has not started. -/
structure MCmd where
  id : Nat
  slot : Nat
  fn : Nat
  a : Nat
  b : Nat
  ctl : Nat
  cfg : Nat
  fa : Nat
  fb : Nat
  fc : Nat
  sa : Nat
  sb : Nat
  ticket : Nat
  pc : Nat
  world : BitVec 6
  asid : BitVec 9
  mode : Bool
  pos : Nat
  due : Nat
  /-- The scale bytes of the present block of 32 steps, those of B from 96 on: a scale is read once (R322). -/
  scales : SMap Nat
  deriving DecidableEq, Repr

/-- What a Gaussian command has come to (R258 to R266): nothing yet, writes of (global physical address, length, data) with the value
of GRES, a failure of R261, or an engine fault, which is recorded when it is found. -/
inductive GResult where
  | none
  | writes (ws : List (Nat × Nat × Nat)) (v : Nat)
  | fail (cause : Nat)
  | fault
  deriving DecidableEq, Repr

/-- A queued Gaussian command (R255 to R258): its operands, τ and QUIET, the register that GRES writes, the headers that its WF wait has
passed, and, once started, the cycle at which it completes, its result, and the records that it writes: address and page bits (R77). -/
structure GCmd where
  id : Nat
  slot : Nat
  fn : Nat
  a : Nat
  b : Nat
  ctl : Nat
  c1 : Nat
  reg : Nat
  entry : Nat
  tau : Nat
  quiet : Bool
  ticket : Nat
  pc : Nat
  world : BitVec 6
  asid : BitVec 9
  mode : Bool
  waited : Nat
  started : Bool
  due : Nat
  result : GResult
  dests : List (Nat × Nat)
  deriving DecidableEq, Repr

/-- A core beside its slots and its register file (R14). -/
structure Core where
  tlb : List Tlb
  /-- Words held by the strand instruction cache: global physical address divided by 8 (R48). -/
  icache : List Nat
  /-- Lines of the L2 slice by set × 16 + way (R80). -/
  l2 : SMap Line
  /-- The way of each set that was used last (R80). -/
  recent : SMap Nat
  /-- SLOTTAB as last selected (R271). -/
  slottab : Word
  /-- Accumulator tiles by 96 × tile + row, 96 elements of 32 bits in a row, and entries of decode tables A and B by 256 × table +
  code (R207). A slot's claims stand in its configuration word (R208). -/
  tiles : SMap (BitVec 3072)
  tables : SMap Nat
  mq : List MCmd
  /-- Queued Gaussian commands in the order of their issue, and the first cycle in which another may start (R257, R270). -/
  gq : List GCmd
  gnext : Nat
  /-- Slot table entries by position (R272). -/
  slotTable : SMap Word
  /-- The world of each unit's last user, power-gated units with that world, and units whose storage fails the check at waking (R313, R388): 0 the matrix
  engine, 1 the Gaussian engine, 2 the vector unit, 3 the pull channel of the core's number, 4 + w way w of the L2 slice. -/
  users : SMap Nat
  gated : SMap Nat
  faulty : List Nat
  deriving DecidableEq, Repr

/-- An error record found and not yet written (R334, R335): `key` orders the records of one cycle by source, core, slot and
ticket; `words` are words 0 to 15 without NUM and CYCLE; `cycle` is word 1. -/
structure Rec where
  source : Nat
  core : Nat
  slot : Nat
  ticket : Nat
  cycle : Nat
  words : List Nat
  deriving DecidableEq, Repr

/-- A resident packet (R22 to R26, R274): its words and tenant, the launch number, the home creel, HELD, the current priority, the pass
and wait counts, its number in the order of acceptance, and the serial of a levelled packet with the direction of its home (R284). -/
structure Packet where
  words : List Nat
  world : Nat
  asid : Nat
  lnum : Nat
  home : Nat
  held : Bool
  prio : Nat
  passed : Nat
  waited : Nat
  seq : Nat
  /-- The core and the slot that issued its TQPUT, 0 for any other packet (R397). -/
  byCore : Nat
  bySlot : Nat
  levelled : Option (Nat × Nat)
  deriving DecidableEq, Repr

/-- What a task-unit record says of its packet (R397). -/
structure TaskRec where
  world : Nat
  asid : Nat
  core : Nat
  slot : Nat
  lnum : Nat
  code : Nat
  vaddr : Nat
  paddr : Nat
  pc : Nat
  detail : Nat
  word0 : Nat
  word12 : Nat
  deriving DecidableEq, Repr

/-- An update of a completion word that waits for a table walk (R32, R34, R76). -/
structure DoneUpd where
  id : Nat
  reject : Bool
  va : Nat
  entry : TaskRec
  deriving DecidableEq, Repr

/-- A creel's inbox at one host agent (R22, R297): packets pulled and accepted, and the cycle at which the pulled one arrives. -/
structure Inbox where
  pulled : Nat
  accepted : Nat
  due : Nat
  deriving DecidableEq, Repr

/-- An item that a creel offers (R281): the resident entry and the serial, and whether its GRANT word is settled (R283). -/
structure Offer where
  item : Nat
  entry : Nat
  serial : Nat
  settled : Bool
  deriving DecidableEq, Repr

/-- An item that a creel has claimed from the neighbour in a direction (R282, R284): the OSEQ value, what OITEM said, and, once its pull has begun,
the cycle at which the pull of STAGE ends, 0 before, with what it read and its status; and what the watch of its GRANT word has answered, 0 before,
and 1 once the packet is taken up. -/
structure Claim where
  dir : Nat
  oseq : Nat
  item : Nat
  word : Nat
  due : Nat
  words : List Nat
  status : Nat
  seen : Nat
  deriving DecidableEq, Repr

/-- The parameters of a task unit (R273). -/
structure TaskParams where
  age : Nat
  bint : Nat
  lthr : Nat
  lcfg : Nat
  jwd : Nat
  deriving DecidableEq, Repr

/-- A creel beside its cores (R16). -/
structure Creel where
  /-- SVEC (R326). -/
  svec : BitVec 48
  /-- HMASK0 to HMASK3 (R78). -/
  hmask : SMap (BitVec 24)
  /-- Root entries by 2 × ASID + space (R74, R75). -/
  roots : SMap Word
  tlb : List Tlb
  walks : List Walk
  wfaults : List WFault
  /-- Updates of completion words that wait for walks (R32, R34). -/
  updates : List DoneUpd
  /-- Words held by the instruction cache: global physical address divided by 8 (R48). -/
  icache : List Nat
  /-- The context served last (R43) and the cycle of the last delivery. -/
  served : Nat
  delivered : Nat
  lwaits : List LWait
  bwaits : List BWait
  /-- The rows of SRAM banks that slots have requested in the cycle `rowsAt`, in the order of the requests, by local physical address
  divided by 128 (R68). -/
  rowsAt : Nat
  rows : List Nat
  /-- Records found in this cycle, and the cycle of the last record of class 0x1, plus one (R334, R335). -/
  recs : List Rec
  correctedAt : Nat
  params : TaskParams
  /-- Commands of the pull engine in the order of their issue (R240). -/
  pulls : List PullCmd
  /-- The tree table by INDEX, with the budgets (R247, R251), the sectors spent in this period, and the cycle at which the period ends. -/
  tree : SMap Word
  spent : SMap Nat
  periodEnd : Nat
  /-- Resident packets by entry, how many packets were ever accepted, and the first cycle in which another may be placed (R22, R26). -/
  residents : SMap Packet
  accepted : Nat
  placeAt : Nat
  /-- Inboxes by host agent (R297). -/
  inboxes : SMap Inbox
  /-- Levelling (R281 to R284): the cycle of the next grant round (0 without an offer), the items of the offer, claims and how many this
  interval, twice the last OSEQ read by direction, plus one when its second sector has been read, the packets taken from each direction, the granted packets by serial, and the last
  interval boundary handled, plus one. -/
  grantAt : Nat
  offers : List Offer
  claims : List Claim
  claimed : Nat
  oseqSeen : SMap Nat
  /-- CLAIM words that the grant round under way has read, by direction (R283). -/
  claimsRead : SMap Nat
  /-- The last value that each watch of the task unit was answered with (R22, R251, R282, R284), by `TaskWatch.key`. -/
  heard : SMap Nat
  taken : SMap Nat
  away : SMap Packet
  intervalAt : Nat
  deriving DecidableEq, Repr

/-- A world of a module (R306): whether it exists, its attributes, and the generation of its key. -/
structure World where
  live : Bool
  prot : Bool
  hostVis : Bool
  gen : Nat
  deriving DecidableEq, Repr

/-- A submission record that an agent has read and not finished (R298, R299): its number and words, packets placed, whether it is handled,
and its code and detail. -/
structure HRec where
  num : Nat
  words : List Nat
  placed : Nat
  handled : Bool
  code : Nat
  detail : Nat
  deriving DecidableEq, Repr

/-- A channel context (R296, R298): words 0 to 3, the channel's world, CONS and DONE, the records read and not finished; and, while the agent reads a
record word by word, the HSEQ that it found and the words that it has read. -/
structure Ctx where
  w0 : Word
  w1 : Word
  w2 : Word
  irqthr : BitVec 32
  vec : BitVec 10
  err : Bool
  en : Bool
  world : Nat
  cons : Nat
  finished : Nat
  recs : List HRec
  hseq : Option Nat
  part : List Nat
  deriving DecidableEq, Repr

/-- A host port with its agent (R295 to R302, R381): CHSEL, the contexts, HWIN, the link, the context polled last, packets placed in each
creel's inbox, the tenants and launch numbers of the packets there (R23), MSI-X vectors sent (newest first), and the data of the last
host read. -/
structure Agent where
  chsel : BitVec 10
  ctxs : SMap Ctx
  hwin : Word
  link : Bool
  polled : Nat
  placed : SMap Nat
  tenants : SMap Nat
  msix : List Nat
  readData : Nat
  deriving DecidableEq, Repr

/-- A flit in a send window (R363, R365): its counter, key generation, TYPE, payload, the 256 bytes that were sent, and the times they were
resent. -/
structure Flit where
  ctr : Nat
  gen : Nat
  type_ : Nat
  payload : Nat
  image : Nat
  resent : Nat
  deriving DecidableEq, Repr

/-- A Cerern port (R303 to R305, R363 to R369). -/
structure Port where
  kpend : SMap Word
  pv : Bool
  rot : Bool
  stop : Bool
  /-- The transmitter's generation, its parity K, and its key. -/
  gen : BitVec 15
  par : Bool
  key : BitVec 256
  /-- The next counter, whether its exhaustion was reported, the send window and the cycle of the last progress of ACK. -/
  ctr : Nat
  warned : Bool
  window : List Flit
  acked : Nat
  /-- The last ACK that acknowledged a flit; 0xFFFF before any (R363). -/
  ackSeq : Nat
  /-- Flits that wait for the stream: (TYPE, payload); and the flits sent, the newest first. -/
  unsent : List (Nat × Nat)
  wire : List Nat
  /-- The receiver's generation, its parity and its key; the key of the generation before; whether KPEND has given the key of the next one, and that
  key (R305, R386). -/
  rgen : BitVec 15
  rpar : Bool
  rkey : BitVec 256
  rother : BitVec 256
  rnext : Bool
  rpend : BitVec 256
  /-- The next counter expected, that of the generation before when it ended, and one more than the highest counter known to be sent. -/
  expect : Nat
  oexpect : Nat
  known : Nat
  /-- SEQ of the last flit delivered, which ACK carries (R363). -/
  last : Nat
  /-- The flits held after a gap, those of the next generation from 2^64 on, and the link-control payloads delivered. -/
  held : SMap (Nat × Nat)
  control : List Nat
  /-- The open gaps: the first counter, how many flits, and the cycle of the last replay request (R365). -/
  asks : List (Nat × Nat × Nat)
  rpl : BitVec 32
  crce : BitVec 16
  fail : BitVec 8
  width : BitVec 2
  /-- The width that a retraining port comes up with and the cycle at which it does, 0 when it is not retraining. -/
  newWidth : BitVec 2
  retrainAt : Nat
  peerWidth : BitVec 2
  up : Bool
  deriving DecidableEq, Repr

/-- Life-cycle states (R314). -/
inductive LifeCycle where
  | blank
  | provisioned
  | owned
  | retired
  deriving DecidableEq, Repr

/-- A firmware image slot (R390): the image, its version, and whether it has passed its checks. -/
structure Image where
  image : Nat
  version : Nat
  passed : Bool
  deriving DecidableEq, Repr

/-- A module beside its creels. -/
structure Module where
  /-- The cycle of the last module reset (R138). -/
  resetAt : Nat
  worlds : SMap World
  /-- The modules that this one has declared lost (R360). -/
  mlost : List Nat
  agents : SMap Agent
  ports : SMap Port
  /-- Worlds whose destruction waits for their slots to end, with those slots and their weaves (R389). -/
  dying : SMap (List (Nat × Nat))
  /-- The clock in sixteenths of 940 MHz, whether it is held (R317), and the supply sag with the count of droop events (R316). -/
  clock : Nat
  hold : Bool
  droop : Bool
  droops : Nat
  /-- The last readings of module power and of the hottest sensor, for the telemetry (R317). -/
  power : Nat
  temp : Nat
  life : LifeCycle
  /-- Firmware images in slots A and B, the active slot, the slot active from the next reset, the floor and the last check (R390, R391). -/
  imageA : Image
  imageB : Image
  active : Nat
  nextActive : Nat
  floor : Nat
  lastCheck : Nat
  /-- The image that is being written into the inactive slot, and the cycle at which the writing ends (R390). -/
  writing : Option (Nat × Nat)
  deriving DecidableEq, Repr

/-- The units of a module at reset (R296, R301, R305, R369, R381; log 3). -/
def Agent.initial : Agent where
  chsel := 0
  ctxs := []
  hwin := 0
  link := true
  polled := 1023
  placed := []
  tenants := []
  msix := []
  readData := 0
def Port.initial : Port where
  kpend := []
  pv := false
  rot := false
  stop := false
  gen := 0
  par := false
  key := 0
  ctr := 0
  warned := false
  window := []
  acked := 0
  ackSeq := 0xFFFF
  unsent := []
  wire := []
  rgen := 0
  rpar := false
  rkey := 0
  rother := 0
  rnext := false
  rpend := 0
  expect := 0
  oexpect := 0
  known := 0
  last := 0xFFFF
  held := []
  control := []
  asks := []
  rpl := 0
  crce := 0
  fail := 0
  width := 3
  newWidth := 3
  retrainAt := 0
  peerWidth := 3
  up := false
def Module.initial : Module where
  resetAt := 0
  worlds := []
  mlost := []
  agents := []
  ports := []
  dying := []
  clock := 16
  hold := false
  droop := false
  droops := 0
  power := 0
  temp := 0
  life := .owned
  imageA := ⟨0, 0, true⟩
  imageB := ⟨0, 0, false⟩
  active := 0
  nextActive := 0
  floor := 0
  lastCheck := 0
  writing := none

/-- An entry of an array with code words of its own (R351, row 4): number i of a core's or a creel's TLB, of a port's send window or reorder buffer, of
the arms that a read port holds, or of the resident packets of a task unit. -/
inductive EntryMark where
  | coreTlb (core i : Nat)
  | creelTlb (lin i : Nat)
  | window (port i : Nat)
  | reorder (port i : Nat)
  | readPort (lin i : Nat)
  | resident (lin i : Nat)
  deriving DecidableEq, Repr

/-- The machine. -/
structure State where
  /-- Cycles since the model's reset; the CYCLE register counts from a module's own reset (R138). -/
  cycle : Nat
  /-- The slot whose turn it is, and the turns left in this cycle (R44). -/
  cur : Nat
  turnq : List Nat
  /-- Steps from outside the modules that have not been taken. -/
  inputs : List Instr
  /-- The number of the next free value, and the next number for an access, request, weave or message. -/
  fresh : Nat
  nextId : Nat
  /-- Memory (R60, R66): bytes by location, the keys of the 16-byte blocks (R308), the words whose full/empty bit is 0
  (R83), the code words with a correctable and with an uncorrectable error (R351). -/
  mem : List Host.Cell
  tags : SMap Nat
  empties : List Nat
  soft : List Nat
  bad : List Nat
  /-- Entries with a correctable error (R351, row 4). -/
  entrySoft : List EntryMark
  regs : SMap Reg
  slots : SMap Slot
  /-- The busy slots, in rising order (R28). -/
  running : List Nat
  cores : SMap Core
  creels : SMap Creel
  mods : SMap Module
  /-- Which Cerern ports are wired to each other (32 × module + port), as the pod's builder joined them. -/
  links : List (Nat × Nat)
  weaves : SMap Weave
  accesses : List Access
  fills : List Fill
  putxs : List Putx
  arms : List Arm
  /-- Requests of pull engines in flight (R240). -/
  preqs : List PullReq
  /-- Requests that their owner has discarded, by number (R361). -/
  discarded : List Nat
  /-- Host memory by (2 × module + port) × 2^64 + bus address (R298; log 15). -/
  hostMem : List Host.Cell
  deriving DecidableEq, Repr

/-! ### Reset -/

/-- A firmware slot right after a module reset: slot 0 of core 0 of a creel runs in supervisor mode at the entry of the firmware image
(R326; log 1, log 3, log 17). -/
def Slot.firmware (lin : Nat) : Slot :=
  { Slot.idle with
    busy := true, limit := Config.firmwareWindow, pc := Config.firmwareEntry, weave := lin + 1, mode := true }

/-- The weave of a firmware slot (log 17). -/
def Weave.firmware (lin : Nat) : Weave where
  lin := lin
  idx := 0
  width := 1
  cores := [0]
  ctx := false
  cstate := .empty
  fetchPc := 0
  xfer := false
  from_ := 0
  world := 0
  asid := 0
  done := 0
  lnum := 0
  word0 := 0
  word12 := 0
  byCore := 0
  bySlot := 0
  home := lin
  levelled := none

/-- The machine right after reset: one module, number 0 (log 16), whose 128 firmware slots take their first turns in cycle 0. -/
def State.reset : State where
  cycle := 0
  cur := 0
  turnq := (List.range 128).map (512 * ·)
  inputs := []
  fresh := 0
  nextId := 129
  mem := []
  tags := []
  empties := []
  soft := []
  bad := []
  entrySoft := []
  regs := []
  slots := (List.range 128).map fun lin => (512 * lin, Slot.firmware lin)
  running := (List.range 128).map (512 * ·)
  cores := []
  creels := []
  mods := [(0, Module.initial)]
  links := []
  weaves := (List.range 128).map fun lin => (lin + 1, Weave.firmware lin)
  accesses := []
  fills := []
  putxs := []
  arms := []
  preqs := []
  discarded := []
  hostMem := []

end Sys2Proof.Machine
end

