-- ==== Sys2Proof/Machine/Maps.lean ====
section
/-!
DEFINITION. Tables from numbers to entries: look up, write, remove. A table is kept in rising order of number.
-/

namespace Sys2Proof.Machine

/-- The entry of number `k`, if the table lists one. -/
def mapFind {α : Type} : SMap α → Nat → Option α
  | [], _ => none
  | (k, v) :: m, n => if k = n then some v else if n < k then none else mapFind m n

/-- The entry of number `k`, or `d`. -/
def mapGet {α : Type} (m : SMap α) (d : α) (n : Nat) : α := (mapFind m n).getD d

/-- Write the entry of number `n`. -/
def mapPut {α : Type} : SMap α → Nat → α → SMap α
  | [], n, x => [(n, x)]
  | (k, v) :: m, n, x =>
    if k = n then (n, x) :: m
    else if n < k then (n, x) :: (k, v) :: m
    else (k, v) :: mapPut m n x

/-- Remove the entry of number `n`. -/
def mapDel {α : Type} : SMap α → Nat → SMap α
  | [], _ => []
  | (k, v) :: m, n => if k = n then m else if n < k then (k, v) :: m else (k, v) :: mapDel m n

/-- A list of numbers in rising order with `n` added. -/
def setAdd : List Nat → Nat → List Nat
  | [], n => [n]
  | k :: l, n => if k = n then k :: l else if n < k then n :: k :: l else k :: setAdd l n

/-- A list of numbers in rising order without `n`. -/
def setDel : List Nat → Nat → List Nat
  | [], _ => []
  | k :: l, n => if k = n then l else if n < k then k :: l else k :: setDel l n

/-- Whether a rising list holds `n`. -/
def setHas : List Nat → Nat → Bool
  | [], _ => false
  | k :: l, n => if k = n then true else if n < k then false else setHas l n

/-- The element at a position, if the list is that long. -/
def nth {α : Type} : List α → Nat → Option α
  | [], _ => none
  | x :: _, 0 => some x
  | _ :: l, n + 1 => nth l n

/-- The list without its element at a position. -/
def dropNth {α : Type} : List α → Nat → List α
  | [], _ => []
  | _ :: l, 0 => l
  | x :: l, n + 1 => x :: dropNth l n

end Sys2Proof.Machine
end

