-- ==== Sys2Proof/Machine/Mem.lean ====
section
/-!
DEFINITION. Memory: bytes by location, the keys of blocks, full/empty bits and code words.

A location is a global physical address in one of several spaces: space 0 is the memory itself (R66), space 1 + core the copies
that the core's L2 slice holds (R80, R81), space 2^25 + core the strand instruction cache of a core and space 2^26 + lin the
instruction cache of a creel (R48). Spaces from 2^27 on hold data in flight (Remote.lean). A location is space × 2^64 + global physical address.

The list of cells is canonical: addresses rise strictly and no cell is zero, since a byte that is not listed reads as 0 (R83, R311;
log 4). Every 16-byte block remembers the key under which it was written; a block without one is wiped and reads zero under every key
(R308, R311; log 10).
-/

namespace Sys2Proof.Machine

/-- The canonical form of memory: strictly rising addresses and no zero byte. -/
def Memory.wf : List Host.Cell → Bool
  | [] => true
  | (_, b) :: [] => b != 0
  | (a, b) :: (a', b') :: m => b != 0 && decide (a < a') && Memory.wf ((a', b') :: m)

/-- The byte at a location. -/
def memGet : List Host.Cell → Nat → Byte
  | [], _ => 0
  | (k, b) :: m, a => if k = a then b else if a < k then 0 else memGet m a

/-- Memory with the byte `v` put in front unless it is zero. -/
def memCons (a : Nat) (v : Byte) (m : List Host.Cell) : List Host.Cell :=
  if v = 0 then m else (a, v) :: m

/-- Memory with a byte written. -/
def memSet : List Host.Cell → Nat → Byte → List Host.Cell
  | [], a, v => memCons a v []
  | (k, b) :: m, a, v =>
    if k = a then memCons a v m
    else if a < k then memCons a v ((k, b) :: m)
    else (k, b) :: memSet m a v

/-- Memory with a run of bytes written from a location upward. -/
def memSetList (m : List Host.Cell) (a : Nat) : List Byte → List Host.Cell
  | [] => m
  | v :: vs => memSetList (memSet m a v) (a + 1) vs

/-- The `n` bytes from a location upward, as a little-endian number (R3). -/
def memNat (m : List Host.Cell) (a : Nat) : Nat → Nat
  | 0 => 0
  | n + 1 => (memGet m a).toNat + 256 * memNat m (a + 1) n

/-- The `n` low bytes of a number, the least significant first (R3). -/
def natBytes (v : Nat) : Nat → List Byte
  | 0 => []
  | n + 1 => BitVec.ofNat 8 v :: natBytes (v / 256) n

/-- A list of bytes as a little-endian number (R3). -/
def bytesNat : List Byte → Nat
  | [] => 0
  | b :: bs => b.toNat + 256 * bytesNat bs

/-- The global physical address of a location, and its space. -/
def locGpa (loc : Nat) : Nat := loc % 2 ^ 64
def locSpace (loc : Nat) : Nat := loc / 2 ^ 64

/-- The space of the copies in the L2 slice of a core, in its strand instruction cache, and in the instruction cache of a creel. -/
def sliceLoc (core gpa : Nat) : Nat := (1 + core) * 2 ^ 64 + gpa
def strandLoc (core gpa : Nat) : Nat := (2 ^ 25 + core) * 2 ^ 64 + gpa
def creelLoc (lin gpa : Nat) : Nat := (2 ^ 26 + lin) * 2 ^ 64 + gpa

/-- The global physical address of a local physical address of a creel (R63), and back. -/
def gpaOf (lin lpa : Nat) : Nat := lin * 2 ^ 45 + lpa
def lpaOf (gpa : Nat) : Nat := gpa % 2 ^ 45
def linOf (gpa : Nat) : Nat := gpa / 2 ^ 45 % 2 ^ 19

/-- The regions of the local physical layout (R66): creel SRAM with its system area, agent memory, the DRAM slice. -/
def isSram (lpa : Nat) : Bool := decide (lpa < 0xC00000)
def isSystemArea (lpa : Nat) : Bool := decide (0xBF0000 ≤ lpa ∧ lpa < 0xC00000)
def isAgent (lpa : Nat) : Bool := decide (0x20000000 ≤ lpa ∧ lpa < 0x20800000)
def isDram (lpa : Nat) : Bool := decide (0x40000000 ≤ lpa ∧ lpa < 0x2C0000000)

/-- R66: agent memory is present only at creels 0 and 64 of a module. -/
def hasAgent (lin : Nat) : Bool := lin % 128 == 0 || lin % 128 == 64

/-! ### Keys (R308, R311) -/

/-- The attributes of a world of a module (R306): world 0 has P = 0 and HV = 1. -/
def worldOf (m : Module) (w : Nat) : World :=
  mapGet m.worlds ⟨w == 0, false, w == 0, 0⟩ w

/-- A module's entry; a module that the pod does not hold has no worlds. -/
def State.module (s : State) (m : Nat) : Module := mapGet s.mods Module.initial m

/-- The key of a world in the module of creel `lin` (R306, R308): a number that differs for each world and each generation. -/
def State.key (s : State) (lin w : Nat) : Nat := (worldOf (s.module (lin / 128)) w).gen * 64 + w + 1

/-- The 16 bytes of the block at block number `blk` as the key `key` reads them: zero when the block is wiped, the bytes when it
was written under that key, and unrelated bits otherwise (R308, R311). -/
def State.blockAs (s : State) (key blk : Nat) : Nat :=
  match mapFind s.tags blk with
  | none => 0
  | some k =>
    let v := memNat s.mem (16 * blk) 16
    if k = key then v
    else (Config.foreignBlock key k (16 * blk % 2 ^ 64 / 16) v).toNat

/-- One byte as a key reads it (R308). -/
def State.byteAs (s : State) (key loc : Nat) : Byte :=
  match mapFind s.tags (loc / 16) with
  | none => 0
  | some k =>
    if k = key then memGet s.mem loc
    else BitVec.ofNat 8 (s.blockAs key (loc / 16) / 256 ^ (loc % 16))

/-- `n` bytes as a key reads them, as a little-endian number (R3, R308). -/
def State.readAs (s : State) (key loc : Nat) : Nat → Nat
  | 0 => 0
  | n + 1 => (s.byteAs key loc).toNat + 256 * s.readAs key (loc + 1) n

/-- The read half of a read-modify-write of a block (R308): the block's bits as `key` reads them, now held under `key`. -/
def State.claimBlock (s : State) (key blk : Nat) : State :=
  if mapFind s.tags blk = some key then s
  else { s with
    mem := memSetList s.mem (16 * blk) (natBytes (s.blockAs key blk) 16)
    tags := mapPut s.tags blk key }

/-- The blocks from `blk` upward, `n` of them, claimed under a key. -/
def State.claimBlocks (s : State) (key blk : Nat) : Nat → State
  | 0 => s
  | n + 1 => (s.claimBlock key blk).claimBlocks key (blk + 1) n

/-- Bytes written at a location under a key (R308). -/
def State.writeAs (s : State) (key loc : Nat) (bs : List Byte) : State :=
  if bs.isEmpty then s
  else
    let s := s.claimBlocks key (loc / 16) ((loc % 16 + bs.length + 15) / 16)
    { s with mem := memSetList s.mem loc bs }

/-- Blocks wiped: zero under every key (R311). -/
def State.wipeBlocks (s : State) (blk : Nat) : Nat → State
  | 0 => s
  | n + 1 =>
    State.wipeBlocks { s with
      mem := memSetList s.mem (16 * blk) (natBytes 0 16)
      tags := mapDel s.tags blk } (blk + 1) n

/-! ### Code words (R351, R354) -/

/-- The code word that holds a location is a 64-bit word (R351): in SRAM, agent memory and the instruction caches, which take 64-byte pieces of
sectors. It is the sector in DRAM and in L2 slices. -/
def wordUnit (loc : Nat) : Bool :=
  let sp := locSpace loc
  if sp = 0 then !isDram (lpaOf (locGpa loc)) else decide (2 ^ 25 ≤ sp ∧ sp < 2 ^ 27)

/-- The first location of the code word that holds a location (R351). -/
def unitOf (loc : Nat) : Nat := if wordUnit loc then loc / 8 * 8 else loc / 128 * 128

/-- Whether some code word of `n` bytes from a location is uncorrectable (R354). -/
def State.badIn (s : State) (loc : Nat) : Nat → Bool
  | 0 => false
  | n + 1 => setHas s.bad (unitOf loc) || s.badIn (loc + 1) n

/-- Whether a code word of the 16-byte block that holds a location is uncorrectable (R354). -/
def State.badBlock (s : State) (loc : Nat) : Bool :=
  setHas s.bad (unitOf (loc / 16 * 16)) || setHas s.bad (unitOf (loc / 16 * 16 + 8))

/-- A code word rewritten: it is fresh (R354). -/
def State.cleanUnit (s : State) (u : Nat) : State :=
  { s with bad := setDel s.bad u, soft := setDel s.soft u }

/-- The code words that lie wholly within [loc, loc + n) rewritten. A word of SRAM is rewritten when its block is (R354). -/
def State.cleanWhole (s : State) (loc n : Nat) : State :=
  if wordUnit loc then
    (List.range (n / 16 + 1)).foldl (fun s k =>
      let b := (loc + 15) / 16 * 16 + 16 * k
      if b + 16 ≤ loc + n then (s.cleanUnit b).cleanUnit (b + 8) else s) s
  else
    (List.range (n / 128 + 1)).foldl (fun s k =>
      let b := (loc + 127) / 128 * 128 + 128 * k
      if b + 128 ≤ loc + n then s.cleanUnit b else s) s

/-! ### Full/empty bits (R83) -/

/-- fe of the aligned word that holds a global physical address (R7, R83). -/
def State.fe (s : State) (gpa : Nat) : Bool := !setHas s.empties (gpa / 8)

/-- fe of the aligned word set or cleared. Only words of creel SRAM have the bit. -/
def State.setFe (s : State) (gpa : Nat) (full : Bool) : State :=
  if full then { s with empties := setDel s.empties (gpa / 8) }
  else { s with empties := setAdd s.empties (gpa / 8) }

/-! ### Copies between locations -/

/-- One 16-byte block copied as it stands, key and all (R81, R356). -/
def State.copyBlock (s : State) (src dst : Nat) : State :=
  { s with
    mem := memSetList s.mem (16 * dst) (natBytes (memNat s.mem (16 * src) 16) 16)
    tags := match mapFind s.tags src with
      | some k => mapPut s.tags dst k
      | none => mapDel s.tags dst }

/-- `n` blocks copied as they stand. -/
def State.copyBlocks (s : State) (src dst : Nat) : Nat → State
  | 0 => s
  | n + 1 => (s.copyBlock src dst).copyBlocks (src + 1) (dst + 1) n

/-- A code word's errors copied with it (R356): the destination has what any part of the source has. -/
def State.copyUnit (s : State) (src dst n : Nat) : State :=
  let anyIn := fun (l : List Nat) => l.any (fun u => decide (src ≤ u ∧ u < src + n))
  let put := fun (l : List Nat) => if anyIn l then setAdd l (unitOf dst) else setDel l (unitOf dst)
  { s with bad := put s.bad, soft := put s.soft }

/-- A 128-byte sector copied as it stands (R80, R81, R356). -/
def State.copySector (s : State) (src dst : Nat) : State :=
  (s.copyBlocks (src / 16) (dst / 16) 8).copyUnit src dst 128

/-- A sector's copy dropped: its location is as if it had never held anything. -/
def State.dropSector (s : State) (loc : Nat) : State :=
  (s.wipeBlocks (loc / 16) 8).cleanUnit (loc / 128 * 128)

end Sys2Proof.Machine
end

