-- ==== Sys2Proof/Machine/Regs.lean ====
section
/-!
DEFINITION. The units of the state and the registers of a slot.

Every read and write of a general register goes through `State.regOf` and `State.setRegOf`, where register 0 reads zero and discards
writes (R7, R136). `State.retireOf` is how an instruction completes: its slot goes on to the next one.
-/

namespace Sys2Proof.Machine

/-! ### Units -/

/-- The creel and the core of a slot, and its slot number (State.lean's numbers). -/
def slotLin (id : Nat) : Nat := id / 512
def slotCore (id : Nat) : Nat := id / 16
def slotCoreNo (id : Nat) : Nat := id / 16 % 32
def slotNo (id : Nat) : Nat := id % 16
/-- The slot of a core number and a slot number of a creel. -/
def slotAt (lin core no : Nat) : Nat := 512 * lin + 16 * core + no

def Core.initial : Core where
  tlb := []
  icache := []
  l2 := []
  recent := []
  slottab := 0
  tiles := []
  tables := []
  mq := []
  gq := []
  gnext := 0
  slotTable := []
  users := []
  gated := []
  faulty := []
def Creel.initial : Creel where
  svec := 0
  hmask := []
  roots := []
  tlb := []
  walks := []
  wfaults := []
  updates := []
  icache := []
  served := 15
  delivered := 0
  lwaits := []
  bwaits := []
  rowsAt := 0
  rows := []
  recs := []
  correctedAt := 0
  params := ⟨4, 4096, 32, 0x1F, 20⟩
  pulls := []
  tree := [(0x204, 1024)]
  spent := []
  periodEnd := 1024
  residents := []
  accepted := 0
  placeAt := 0
  inboxes := []
  grantAt := 0
  offers := []
  claims := []
  claimed := 0
  oseqSeen := []
  heard := []
  claimsRead := []
  taken := []
  away := []
  intervalAt := 0

def State.slot (s : State) (id : Nat) : Slot := mapGet s.slots Slot.idle id
def State.core (s : State) (c : Nat) : Core := mapGet s.cores Core.initial c
def State.creel (s : State) (lin : Nat) : Creel := mapGet s.creels Creel.initial lin

def State.updSlot (s : State) (id : Nat) (f : Slot → Slot) : State :=
  { s with slots := mapPut s.slots id (f (s.slot id)) }
def State.updCore (s : State) (c : Nat) (f : Core → Core) : State :=
  { s with cores := mapPut s.cores c (f (s.core c)) }
def State.updCreel (s : State) (lin : Nat) (f : Creel → Creel) : State :=
  { s with creels := mapPut s.creels lin (f (s.creel lin)) }
def State.updModule (s : State) (m : Nat) (f : Module → Module) : State :=
  { s with mods := mapPut s.mods m (f (s.module m)) }
def State.updWeave (s : State) (wv : Nat) (f : Weave → Weave) : State :=
  match mapFind s.weaves wv with
  | some w => { s with weaves := mapPut s.weaves wv (f w) }
  | none => s

/-- The slot whose turn it is. -/
def State.me (s : State) : Slot := s.slot s.cur
def State.updMe (s : State) (f : Slot → Slot) : State := s.updSlot s.cur f
/-- Its creel. -/
def State.lin (s : State) : Nat := slotLin s.cur

/-- A free number, and the state in which the next one is drawn (log 2). -/
def State.draw (s : State) : Nat × State := (Config.freeNat s.fresh, { s with fresh := s.fresh + 1 })

/-- A number for a new access, request, weave or message. -/
def State.newId (s : State) : Nat × State := (s.nextId, { s with nextId := s.nextId + 1 })

/-- The cycle at which something of unstated latency that starts now is done: a later one (R168; log 5). -/
def State.laterCycle (s : State) : Nat × State :=
  let (n, s) := s.draw
  (s.cycle + 1 + n, s)

/-- The key of a slot's world (R308). -/
def State.slotKey (s : State) (id : Nat) : Nat := s.key (slotLin id) (s.slot id).world.toNat

/-! ### General registers (R30, R136) -/

/-- A register-file entry at reset: 0 and present (log 3). -/
def Reg.initial : Reg := ⟨0, true, false, 0⟩

/-- The register-file entry of x(n) of a slot: BASE + n in its core's file (R30). -/
def State.entryOf (s : State) (id n : Nat) : Nat := slotCore id * 2048 + (s.slot id).base + n

def State.entry (s : State) (e : Nat) : Reg := mapGet s.regs Reg.initial e
def State.setEntry (s : State) (e : Nat) (r : Reg) : State := { s with regs := mapPut s.regs e r }

/-- x(n) of a slot; x0 reads zero (R7, R136). -/
def State.regOf (s : State) (id n : Nat) : Word := if n = 0 then 0 else (s.entry (s.entryOf id n)).val

/-- The presence bit of x(n) of a slot; x0's is always 1 (R136). -/
def State.presOf (s : State) (id n : Nat) : Bool := n == 0 || (s.entry (s.entryOf id n)).pres

/-- A slot's own instruction or engine writes x(n): the bit is set and a mark cleared (R136, R185). A write to x0 is discarded;
a register outside the window never comes here, since stage 4 of the check traps first (R30, R339). -/
def State.setRegOf (s : State) (id n : Nat) (v : Word) : State :=
  if n = 0 then s else s.setEntry (s.entryOf id n) ⟨v, true, false, 0⟩

/-- x(n) of the slot whose turn it is. -/
def State.x (s : State) (n : Nat) : Word := s.regOf s.cur n
def State.setX (s : State) (n : Nat) (v : Word) : State := s.setRegOf s.cur n v

/-- The presence bit of x(n) cleared while an access is awaited (R168); x0 has no bit to clear. -/
def State.awaitReg (s : State) (id n tok : Nat) : State :=
  if n = 0 then s
  else
    let e := s.entryOf id n
    s.setEntry e ⟨(s.entry e).val, false, (s.entry e).mark, tok⟩

/-- The shadow register of a slot that an access's reply belongs to: the exchange of R38 carried it there. -/
def Slot.awaitedShadow (sl : Slot) (tok : Nat) : Option Nat := (sl.shadow.find? (·.2.tok == tok)).map (·.1)

/-- What an awaited register becomes when its reply is over: the entry that still awaits it, or the shadow register into which it was
exchanged. A register that a later write has taken is left alone (R168). -/
def State.onAwaited (s : State) (id e tok : Nat) (f : Reg → Reg) : State :=
  if (s.entry e).tok = tok then s.setEntry e (f (s.entry e))
  else
    match (s.slot id).awaitedShadow tok with
    | some n => s.updSlot id fun sl => { sl with shadow := mapPut sl.shadow n (f (mapGet sl.shadow Reg.initial n)) }
    | none => s

/-- A reply is a write of the slot's own instruction: it sets the presence bit and clears a mark (R168, R185). -/
def State.replyAwaited (s : State) (id e tok : Nat) (v : Word) : State :=
  s.onAwaited id e tok fun _ => ⟨v, true, false, 0⟩

/-- A relaxed load that fails sets the presence bit and writes nothing (R169). -/
def State.abandonAwaited (s : State) (id e tok : Nat) : State :=
  s.onAwaited id e tok fun r => { r with pres := true, tok := 0 }

/-! ### Vector registers and masks (R137, R188) -/

def Slot.w (sl : Slot) (n : Nat) : BitVec 4096 := mapGet sl.vec 0 n
/-- m0 reads all ones (R137). -/
def Slot.m (sl : Slot) (n : Nat) : BitVec 128 := if n = 0 then BitVec.allOnes 128 else mapGet sl.masks 0 n
def Slot.setW (sl : Slot) (n : Nat) (v : BitVec 4096) : Slot := { sl with vec := mapPut sl.vec n v }
/-- A write to m0 is discarded (R137). -/
def Slot.setM (sl : Slot) (n : Nat) (v : BitVec 128) : Slot :=
  if n = 0 then sl else { sl with masks := mapPut sl.masks n v }

/-- Lane i of a vector register (R7). -/
def laneOf (v : BitVec 4096) (i : Nat) : BitVec 32 := BitVec.ofNat 32 (v.toNat / 2 ^ (32 * i))

/-- A vector register from its 128 lanes. -/
def ofLanes (f : Nat → BitVec 32) : BitVec 4096 :=
  BitVec.ofNat 4096 ((List.range 128).foldr (fun i acc => (f i).toNat + 2 ^ 32 * acc) 0)

/-! ### Completing an instruction -/

/-- The slot is at an instruction boundary: its next instruction has not issued. -/
def Wait.boundary : Wait → Bool
  | .none | .hold => true
  | _ => false

/-- R45: an entry leaves the queue when the member issues it. A slot that is parked has issued its instruction before. -/
def Slot.popQueue (sl : Slot) : Slot :=
  if sl.member = .attached ∧ sl.wait.boundary then { sl with queue := sl.queue.tail } else sl

/-- The slot has issued its instruction and parks on `w`. -/
def Slot.park (sl : Slot) (w : Wait) : Slot := { sl.popQueue with wait := w }

/-- R56: the position after one frame issue. When the last pass ends, the slot goes on after the frame. The first pass takes the
words from the slack queue. -/
def Slot.coilNext (sl : Slot) (c : Coil) : Slot :=
  let sl := if c.k = 0 then sl.popQueue else sl
  let n := c.words.length
  if c.i + 1 < n then
    { sl with coil := some { c with i := c.i + 1 }, pc := c.base + 4 * (c.i + 1), wait := .none, xfer := false }
  else if c.k + 1 < c.reps then
    { sl with coil := some { c with k := c.k + 1, i := 0 }, pc := c.base, wait := .none, xfer := false }
  else { sl with coil := none, pc := c.base + 4 * n, wait := .none, xfer := false }

/-- The slot's instruction of `len` bytes is done: the slot goes on at the next address, or at the next position of its coil
frame (R56). -/
def Slot.advance (sl : Slot) (len : Nat) : Slot :=
  match sl.coil with
  | some c =>
    if c.suspended then { sl.popQueue with pc := sl.pc + len, wait := .none, xfer := false }
    else sl.coilNext c
  | none => { sl.popQueue with pc := sl.pc + len, wait := .none, xfer := false }

/-- The slot goes on at `t` after a control transfer (R343). -/
def Slot.jump (sl : Slot) (t : Nat) : Slot :=
  { sl.popQueue with pc := t, wait := .none, xfer := true }

def State.retireOf (s : State) (id len : Nat) : State := s.updSlot id (·.advance len)
def State.retire (s : State) (len : Nat) : State := s.retireOf s.cur len
def State.jump (s : State) (t : Nat) : State := s.updMe (·.jump t)
def State.waitOf (s : State) (id : Nat) (w : Wait) : State := s.updSlot id fun sl => { sl with wait := w }
def State.wait (s : State) (w : Wait) : State := s.waitOf s.cur w
def State.park (s : State) (w : Wait) : State := s.updMe (·.park w)

/-! ### Error records (R334, R335) -/

/-- Words 0 to 15 of a record without NUM and CYCLE. In records concerning a world with P = 1, words 3, 4 and 6 are zero. -/
def recWords (prot : Bool) (cls source code world asid core slot lnum vaddr paddr ticket pc detail w8 w9 : Nat) :
    List Nat :=
  [cls * 2 ^ 24 + source * 2 ^ 16 + code * 2 ^ 8 + 1, 0,
   world * 2 ^ 58 + asid * 2 ^ 49 + core * 2 ^ 44 + slot * 2 ^ 40 + lnum,
   if prot then 0 else vaddr, if prot then 0 else paddr, ticket, if prot then 0 else pc, detail, w8, w9,
   0, 0, 0, 0, 0, 0]

/-- A record found now joins its creel's log at the end of the cycle (R334). -/
def State.pushRec (s : State) (lin source core slot ticket : Nat) (words : List Nat) : State :=
  s.updCreel lin fun c => { c with recs := c.recs ++ [⟨source, core, slot, ticket, s.cycle, words⟩] }

/-- A record that concerns a slot: its world, ASID, core and slot number (R335). Word 5 is a ticket in the records of the engines, sources 0x02 to
0x04, and STVAL in any other, which counts as a record without a ticket (R334). -/
def State.slotRec (s : State) (id source cls code vaddr paddr ticket pc detail : Nat) : State :=
  let sl := s.slot id
  let w := sl.world.toNat
  let lnum := match mapFind s.weaves sl.weave with | some v => v.lnum | none => 0
  s.pushRec (slotLin id) source (slotCoreNo id) (slotNo id) (if 2 ≤ source ∧ source ≤ 4 then ticket else 0)
    (recWords (worldOf (s.module (slotLin id / 128)) w).prot cls source code w sl.asid.toNat (slotCoreNo id) (slotNo id)
      lnum vaddr paddr ticket pc detail 0 0)

end Sys2Proof.Machine
end

