-- ==== Sys2Proof/Machine/Weave.lean ====
section
/-!
DEFINITION. The shared operations of weaves (R43 to R54, R396): who the members are, what happens when one detaches, and the
completion of a branch, a VOTE and a JOIN.
-/

namespace Sys2Proof.Machine

/-- The members of a weave that have not exited, by member index (R49). -/
def State.liveMembers (s : State) (wv : Nat) : List Nat :=
  match mapFind s.weaves wv with
  | none => []
  | some w =>
    (w.cores.map (slotAt w.lin · w.idx)).filter fun id =>
      (s.slot id).busy && (s.slot id).weave == wv && (s.slot id).member != .exited

/-- The attached members, lowest first; the first is the pilot (R46). -/
def State.attachedMembers (s : State) (wv : Nat) : List Nat :=
  (s.liveMembers wv).filter fun id => (s.slot id).member == .attached

def waitIsVote : Wait → Bool
  | .vote _ _ _ => true
  | _ => false

/-- The slot waits in a JOIN at A (R50). -/
def waitJoin (w : Wait) : Option Nat :=
  match w with
  | .join a _ => some a
  | _ => none

def memberJwait (m : MemberState) : Option Nat :=
  match m with
  | .jwait a => some a
  | _ => none

/-- The greater of two words read as signed (R52). -/
def maxSigned (a b : Word) : Word := if a.toInt < b.toInt then b else a

/-- The result of a VOTE with function code `fn` among values (R52). -/
def voteResult (fn : Nat) (vs : List Word) : Word :=
  let nz := (vs.filter (· != 0)).length
  match fn with
  | 4 => if nz > 0 then 1 else 0
  | 5 => if nz = vs.length then 1 else 0
  | 6 => BitVec.ofNat 64 nz
  | _ => match vs with
    | [] => 0
    | v :: r => r.foldl maxSigned v

/-- R53: every participant writes the result and goes on. -/
def State.completeVote (s : State) (ids : List Nat) : State :=
  let val := fun id => match (s.slot id).wait with
    | .vote _ _ v => v
    | _ => 0
  let vs := ids.map val
  ids.foldl (fun s id =>
    match (s.slot id).wait with
    | .vote fn d _ => (s.setRegOf id d (voteResult fn vs)).retireOf id 4
    | _ => s) s

/-- R46, R47: the pilot's next address `t` becomes the weave's. Waiting members that differ become strands at their own
next address; members that still hold the branch in their queue learn `t`. -/
def State.resolveBranch (s : State) (wv t : Nat) (ids : List Nat) : State :=
  let s := ids.foldl (fun s id =>
    s.updSlot id fun sl =>
      match sl.wait with
      | .branch n =>
        if n = t then { sl with wait := .none, pc := t }
        else { sl with member := .strand, queue := [], wait := .none, pc := n, xfer := true }
      | _ => { sl with queue := match sl.queue.reverse with
          | [] => []
          | e :: r => ({ e with resolved := some t } :: r).reverse }) s
  s.updWeave wv fun w => { w with cstate := .run, fetchPc := t, xfer := true, from_ := s.cycle + 1 }

/-- R50, R396: every member of `ids` leaves the JOIN at A attached, or as a strand. -/
def State.completeJoin (s : State) (a : Nat) (attach : Bool) (ids : List Nat) : State :=
  ids.foldl (fun s id =>
    s.updSlot id fun sl =>
      { sl with
        member := if attach then .attached else .strand
        queue := [], wait := .none, pc := a + 4, xfer := false }) s

/-- Another weave of the creel holds the context of slot index `idx` (R396). -/
def State.ctxTaken (s : State) (lin idx wv : Nat) : Bool :=
  s.weaves.any fun (k, w) => k != wv && w.ctx && w.lin == lin && w.idx == idx

/-- One step of settling a weave that holds its context, and whether something changed. -/
def State.settleCtx (s : State) (wv : Nat) (w : Weave) : State × Bool :=
  let ms := s.liveMembers wv
  let att := s.attachedMembers wv
  if att.isEmpty then
    -- R50: the last attached member is gone; the lowest member in JWAIT is handled as if it issued its JOIN now.
    match ms.find? (fun id => (memberJwait (s.slot id).member).isSome) with
    | some id =>
      match memberJwait (s.slot id).member with
      | some a =>
        ((s.updSlot id fun sl => { sl with member := .attached, queue := [] }).updWeave wv
          fun w => { w with cstate := .hold a, fetchPc := a + 4 }, true)
      | none => (s, false)
    | none => (s.updWeave wv fun w => { w with cstate := .empty }, false)
  else if att.all (fun id => waitIsVote (s.slot id).wait) then (s.completeVote att, true)
  else
    match w.cstate with
    | .branch =>
      match att with
      | p :: _ =>
        match (s.slot p).wait with
        | .branch t => (s.resolveBranch wv t att, true)
        | _ => (s, false)
      | [] => (s, false)
    | .hold a =>
      let det := ms.filter fun id => (s.slot id).member != .attached && (s.slot id).member != .left
      if att.all (fun id => waitJoin (s.slot id).wait == some a) &&
          det.all (fun id => memberJwait (s.slot id).member == some a) then
        ((s.completeJoin a true (att ++ det)).updWeave wv fun w =>
          { w with cstate := .run, fetchPc := a + 4, xfer := false, from_ := s.cycle + 1 }, true)
      else (s, false)
    | _ => (s, false)

/-- One step of settling a weave without a context (R396). -/
def State.settleNoCtx (s : State) (wv : Nat) (w : Weave) : State :=
  let ms := (s.liveMembers wv).filter fun id => (s.slot id).member != .left
  match ms with
  | [] => s
  | id :: _ =>
    match memberJwait (s.slot id).member with
    | none => s
    | some a =>
      if ms.all (fun id => memberJwait (s.slot id).member == some a) then
        if s.ctxTaken w.lin w.idx wv then s.completeJoin a false ms
        else
          (s.completeJoin a true ms).updWeave wv fun w =>
            { w with ctx := true, cstate := .run, fetchPc := a + 4, xfer := false, from_ := s.cycle + 1 }
      else s

/-- Settle a weave: complete what the present states of its members complete (R46, R50, R53), as often as one completion
brings about another. -/
def State.settleN (s : State) (wv : Nat) : Nat → State
  | 0 => s
  | n + 1 =>
    match mapFind s.weaves wv with
    | none => s
    | some w =>
      if w.ctx then
        let (s', more) := s.settleCtx wv w
        if more then s'.settleN wv n else s'
      else s.settleNoCtx wv w

def State.settle (s : State) (wv : Nat) : State := s.settleN wv 64

/-- A member becomes a strand and discards its queue (R45, R57), and its weave is settled. -/
def State.detach (s : State) (id : Nat) : State :=
  let sl := s.slot id
  if sl.member = .attached then
    (s.updSlot id fun sl => { sl with member := .strand, queue := [] }).settle sl.weave
  else s

/-- A member that waits in JWAIT becomes a strand again (R50's row on interrupts and traps). -/
def State.unjoin (s : State) (id : Nat) : State :=
  match (s.slot id).member with
  | .jwait _ => (s.updSlot id fun sl => { sl with member := .strand }).settle (s.slot id).weave
  | _ => s

end Sys2Proof.Machine
end

