-- ==== Sys2Proof/Machine/Notify.lean ====
section
/-!
DEFINITION. What a write to a creel's memory sets off: held watch arms that it passes (R233), arrivals and waits parked on
a barrier object (R176, R179), and LSYNC forms that wait for a full/empty bit (R171).
-/

namespace Sys2Proof.Machine

/-! ### Watch arms -/

/-- R233: every held arm whose word lies in the written bytes and now holds a value not below the threshold is answered with it.
An uncorrectable word answers nothing (R355). -/
def State.checkArms (s : State) (gpa n : Nat) : State :=
  if s.arms.isEmpty then s
  else
    let due := s.cycle + 1
    { s with arms := s.arms.map fun a =>
        if a.stage == .held && decide (gpa < a.gpa + 8 ∧ a.gpa < gpa + n) && !s.badIn a.gpa 8 then
          let v := BitVec.ofNat 64 (s.readAs (s.slotKey a.slot) a.gpa 8)
          if a.thr ≤ v then { a with stage := .answered v, due := due } else a
        else a }

/-! ### Barrier objects (R176) -/

/-- The fields of a barrier object's words (R176): E, A0 to A3, P of word 0, and word 1. -/
structure BarObj where
  e : Nat
  a0 : Nat
  a1 : Nat
  a2 : Nat
  a3 : Nat
  p : Nat
  w1 : Nat
  deriving DecidableEq, Repr

def barDecode (w0 w1 : Nat) : BarObj :=
  ⟨w0 % 4096, w0 / 2 ^ 12 % 4096, w0 / 2 ^ 28 % 4096, w0 / 2 ^ 40 % 4096, w0 / 2 ^ 52 % 4096, w0 / 2 ^ 24 % 16, w1⟩

def barWord0 (o : BarObj) : Nat :=
  o.e + o.a0 * 2 ^ 12 + o.p * 2 ^ 24 + o.a1 * 2 ^ 28 + o.a2 * 2 ^ 40 + o.a3 * 2 ^ 52

/-- δ(q) = (q − P) mod 16 (R176). -/
def barDelta (o : BarObj) (q : Nat) : Nat := (q % 16 + 16 - o.p) % 16

/-- A flag bit of word 1 set or cleared: 48 OV, 49 ST, 50 BK (R176). -/
def barFlag (o : BarObj) (bit : Nat) (on : Bool) : BarObj :=
  { o with w1 := o.w1 - (o.w1 / 2 ^ bit % 2) * 2 ^ bit + (if on then 2 ^ bit else 0) }

/-- LEAD of a core (R176). -/
def barLead (w1 c : Nat) : Nat := w1 / 2 ^ (2 * c) % 4

/-- Word 1 with LEAD of every core mapped (R179). -/
def barMapLeads (w1 : Nat) (f : Nat → Nat → Nat) : Nat :=
  w1 / 2 ^ 48 * 2 ^ 48 + (List.range 24).foldl (fun acc c => acc + f c (barLead w1 c) * 2 ^ (2 * c)) 0

/-- The count of arrivals for the phase δ ahead, and that count raised (R179). -/
def barCount (o : BarObj) (δ : Nat) : Nat :=
  match δ with
  | 0 => o.a0
  | 1 => o.a1
  | 2 => o.a2
  | _ => o.a3

def barAdd (o : BarObj) (δ k : Nat) : BarObj :=
  match δ with
  | 0 => { o with a0 := o.a0 + k }
  | 1 => { o with a1 := o.a1 + k }
  | 2 => { o with a2 := o.a2 + k }
  | _ => { o with a3 := o.a3 + k }

/-- R179's loop: while A0 = E the phase advances, at most four times. -/
def barAdvance (o : BarObj) : Nat → BarObj
  | 0 => o
  | n + 1 =>
    if o.a0 = o.e then
      barAdvance { o with p := (o.p + 1) % 16, a0 := o.a1, a1 := o.a2, a2 := o.a3, a3 := 0,
                          w1 := barMapLeads o.w1 fun _ l => l - 1 } n
    else o

/-- What an arrival does (R179). -/
inductive BarResult where
  | trap (cause : Nat) (o : BarObj)
  | block (o : BarObj)
  | done (o : BarObj)
  deriving DecidableEq, Repr

/-- R179: core `c` arrives with count `k` for phase `q`. -/
def barArrive (o : BarObj) (c q k : Nat) : BarResult :=
  if o.e = 0 then .trap 0x0D (barFlag o 48 true)
  else
    let δ := barDelta o q
    if 8 ≤ δ then .trap 0x0E (barFlag o 49 true)
    else if 4 ≤ δ then .block (barFlag o 50 true)
    else if o.e < barCount o δ + k then .trap 0x0D (barFlag o 48 true)
    else
      let o := barAdd o δ k
      let o := if 1 ≤ δ then
          { o with w1 := barMapLeads o.w1 fun c' l => if c' = c then max l δ else l } else o
      .done (barAdvance o 4)

/-- Phase q has completed: δ(q) is 8 to 15 (R176). -/
def barDone (o : BarObj) (q : Nat) : Bool := decide (8 ≤ barDelta o q)

def State.barRead (s : State) (key gpa : Nat) : BarObj := barDecode (s.readAs key gpa 8) (s.readAs key (gpa + 8) 8)

/-- Both words written at one place; the write answers watches like any other (R229). -/
def State.barWrite (s : State) (key gpa : Nat) (o : BarObj) : State :=
  (s.writeAs key gpa (natBytes (barWord0 o) 8 ++ natBytes o.w1 8)).checkArms gpa 16

/-- BK is 1 while some arrival is blocked on the object (R176, R179). -/
def State.barFixBk (s : State) (lin key gpa : Nat) : State :=
  let o := s.barRead key gpa
  let blocked := (s.creel lin).bwaits.any fun b => b.arrive && b.gpa == gpa
  if (o.w1 / 2 ^ 50 % 2 == 1) == blocked then s else s.barWrite key gpa (barFlag o 50 blocked)

def State.dropBwait (s : State) (lin slot : Nat) : State :=
  s.updCreel lin fun c => { c with bwaits := c.bwaits.filter fun b => b.slot != slot }

/-- The parked entry of an object that can go on now. After a change of P every arrival retries its effect (R179); after a write by
anything else a blocked arrival goes on if its δ is now 0 to 3 (R176, R178). A BARW goes on if its phase has completed. -/
def barReady (o : BarObj) (pChanged : Bool) (b : BWait) : Bool :=
  if b.arrive then
    if pChanged then !(decide (4 ≤ barDelta o b.phase ∧ barDelta o b.phase < 8)) else decide (barDelta o b.phase < 4)
  else barDone o b.phase

/-- R179, R180: parked arrivals retry, in the order in which they blocked, each at a place of its own, and waits return, until none can go on. What
brings them here has read the object's block or written all of it, and so has corrected it (R352). -/
def State.barRetry (s : State) (lin gpa : Nat) (pChanged : Bool) : Nat → State
  | 0 => s
  | n + 1 =>
    let ready := (s.creel lin).bwaits.find? fun b =>
      b.gpa == gpa && barReady (s.barRead (s.slotKey b.slot) gpa) pChanged b
    match ready with
    | none => s
    | some b =>
      let key := s.slotKey b.slot
      let o := s.barRead key gpa
      let s := s.dropBwait lin b.slot
      if b.arrive then
        match barArrive o (slotCoreNo b.slot) b.phase b.count with
        | .trap c o' =>
          (((s.barWrite key gpa o').barFixBk lin key gpa).waitOf b.slot
            (.trapping ⟨c, BitVec.ofNat 64 b.va, false⟩)).barRetry lin gpa pChanged n
        | .block _ => s
        | .done o' =>
          let s := (s.barWrite key gpa o').barFixBk lin key gpa
          let s := s.setRegOf b.slot b.reg (BitVec.ofNat 64 (barWord0 o'))
          (s.retireOf b.slot 4).barRetry lin gpa (pChanged || o'.p != o.p) n
      else
        ((s.setRegOf b.slot b.reg 1).retireOf b.slot 4).barRetry lin gpa pChanged n

/-- A write by anything but a BAR form re-examines the arrivals and waits parked on the objects it touches (R176). -/
def State.checkBarriers (s : State) (lin gpa n : Nat) : State :=
  let objs := ((s.creel lin).bwaits.filter fun b => decide (gpa < b.gpa + 16 ∧ b.gpa < gpa + n)).map (·.gpa)
  objs.eraseDups.foldl (fun s g =>
    match (s.creel lin).bwaits.find? (·.gpa == g) with
    | some b => (s.barRetry lin g false ((s.creel lin).bwaits.length + 1)).barFixBk lin (s.slotKey b.slot) g
    | none => s) s

/-! ### Writes -/

/-- Bytes written to a creel's memory at a location under a key, with what the write sets off (R176, R229). -/
def State.store (s : State) (key loc : Nat) (bs : List Byte) : State :=
  let gpa := locGpa loc
  (((s.writeAs key loc bs).cleanWhole loc bs.length).checkArms gpa bs.length).checkBarriers (linOf gpa) gpa bs.length

/-! ### Corrected errors (R335, R352) -/

/-- The creel whose storage a location is: its own for memory, the creel of the slice for a copy. -/
def unitLin (loc : Nat) : Nat :=
  if locSpace loc = 0 then linOf (locGpa loc) else (locSpace loc - 1) / 32

/-- A corrected error of a creel: CECNT counts it, and a record of class 0x1 is written unless one was in the 2^20 cycles before (R335). -/
def State.countCorrected (s : State) (lin src va pa detail : Nat) : State :=
  let g := gpaOf lin 0xBF0008
  let key := s.key lin 0
  let s := s.store key g (natBytes (s.readAs key g 8 + 1) 8)
  let last := (s.creel lin).correctedAt
  if last ≠ 0 ∧ s.cycle < last - 1 + 2 ^ 20 then s
  else
    (s.updCreel lin fun c => { c with correctedAt := s.cycle + 1 }).pushRec lin src 0 0 0
      (recWords false 0x1 src 0x01 0 0 0 0 0 va pa 0 0 detail 0 0)

/-- R352: a correctable code word that a read met is written back and counted. -/
def State.correctUnit (s : State) (u va detail : Nat) : State :=
  { s with soft := setDel s.soft u }.countCorrected (unitLin u) (if wordUnit u then 0x09 else 0x08) va (locGpa u) detail

/-- A read of `n` bytes at a location corrects what it can (R352). -/
def State.correct (s : State) (loc n va detail : Nat) : State :=
  let us := s.soft.filter fun u => !setHas s.bad u && (List.range n).any fun k => unitOf (loc + k) == u
  us.foldl (fun s u => s.correctUnit u va detail) s

/-- The read half of a write of `n` bytes: a block of SRAM, or a sector, that the write covers in part is read first (R308, R354), so a
correctable error in it is counted (R352). The write itself then carries a fresh code word (R353). -/
def State.readHalf (s : State) (loc n va : Nat) : State :=
  if s.soft.isEmpty then s
  else
    let u := if wordUnit loc then 16 else 128
    (List.range ((loc % u + n + u - 1) / u)).foldl (fun s k =>
      let b := loc / u * u + u * k
      if loc ≤ b ∧ b + u ≤ loc + n then s else s.correct b u va 1) s

/-! ### LSYNC wait lists (R171) -/

/-- The condition of an LSYNC form holds when the word's bit is `full` (R170). -/
def lsyncReady (form : Nat) (full : Bool) : Bool :=
  match form with
  | 0 | 1 => full
  | 2 => !full
  | _ => true

/-- An LSYNC form succeeds at its place (R170). The forms are numbered by sz. -/
def State.lsyncEffect (s : State) (slot form gpa reg : Nat) (v : Word) : State :=
  let key := s.slotKey slot
  match form with
  | 0 => s.setRegOf slot reg (BitVec.ofNat 64 (s.readAs key gpa 8))
  | 1 => (s.setRegOf slot reg (BitVec.ofNat 64 (s.readAs key gpa 8))).setFe gpa false
  | 2 | 3 => (s.store key gpa (natBytes v.toNat 8)).setFe gpa true
  | _ => s.setFe gpa false

/-- The first uncorrectable code word that `n` bytes at a location touch (R354). -/
def State.badUnitIn (s : State) (loc n : Nat) : Nat :=
  unitOf (loc + ((List.range n).find? fun k => setHas s.bad (unitOf (loc + k))).getD 0)

/-- R171: the bank walks the waiting entries of a word from the head, again after each completion, until none completes. A word
found uncorrectable ends the wait with cause 0x09 (R357), and so does the other word of its block for a form that stores, which reads it first: that
is an access, with its record (R354, R355). What a form reads is corrected (R352). -/
def State.lsyncWake (s : State) (lin gpa : Nat) : Nat → State
  | 0 => s
  | n + 1 =>
    let full := s.fe gpa
    let bad := s.badIn (gpa / 8 * 8) 8
    match (s.creel lin).lwaits.find? fun l => l.gpa / 8 == gpa / 8 && (bad || lsyncReady l.form full) with
    | none => s
    | some l =>
      let s := s.updCreel lin fun c => { c with lwaits := c.lwaits.filter fun m => m.slot != l.slot }
      let raise := fun (s : State) => s.waitOf l.slot (.trapping ⟨0x09, BitVec.ofNat 64 l.va, false⟩)
      if bad then (raise s).lsyncWake lin gpa n
      else if (l.form == 2 || l.form == 3) && s.badBlock gpa then
        let w := s.badUnitIn (gpa / 16 * 16) 16
        ((raise (s.slotRec l.slot 0x09 0x4 0x09 l.va w l.va (s.slot l.slot).pc 1)).lsyncWake lin w n).lsyncWake lin gpa n
      else
        let s := s.correct l.gpa 8 l.va 1
        let s := if l.form = 2 ∨ l.form = 3 then s.readHalf l.gpa 8 l.va else s
        ((s.lsyncEffect l.slot l.form l.gpa l.reg l.value).retireOf l.slot 4).lsyncWake lin gpa n

/-- A change of fe walks the bank's list (R171). -/
def State.wake (s : State) (gpa : Nat) : State :=
  let lin := linOf gpa
  s.lsyncWake lin gpa ((s.creel lin).lwaits.length + 1)

/-- An access has found code words of `n` bytes at a location uncorrectable: the slots parked in an LSYNC wait on such a word leave it (R357). -/
def State.foundBad (s : State) (loc n : Nat) : State :=
  let ws := (s.creel (linOf (locGpa loc))).lwaits.filter fun l =>
    decide (loc / 8 ≤ l.gpa / 8 ∧ l.gpa / 8 ≤ (loc + n - 1) / 8) && s.badIn (l.gpa / 8 * 8) 8
  ws.foldl (fun s l => s.wake l.gpa) s

/-- An engine write of one aligned word: its data and the setting of its bit occupy one place (R83, R94). -/
def State.storeFull (s : State) (key gpa : Nat) (bs : List Byte) : State :=
  let s := s.store key gpa bs
  if isSram (lpaOf gpa) then (s.setFe gpa true).wake gpa else s

end Sys2Proof.Machine
end

