-- ==== Sys2Proof/Machine/L2.lean ====
section
/-!
DEFINITION. The L2 slices (R78 to R82): homes, lines and sectors, fills, write-backs and replacement.

The copies a slice holds are bytes of memory at locations of their own, so a line read through another home is another location, as
R79 says. A new line takes a free choice among the unpinned ways of its set but the one used last, which is what every pseudo-least-recently-used
policy grants (R80; log 9).
-/

namespace Sys2Proof.Machine

/-- The bits of a hash mask, lowest first, as core numbers (R79). -/
def maskCores (m : BitVec 24) : List Nat := (List.range 24).filter fun c => m.getLsbD c

/-- The hash of a line number (R79). -/
def lineHash (ln : Nat) : Nat :=
  (ln % 128) ^^^ (ln / 2 ^ 7 % 128) ^^^ (ln / 2 ^ 14 % 128) ^^^ (ln / 2 ^ 21 % 128) ^^^ (ln / 2 ^ 28 % 128)

/-- The home core of a local physical address under a home attribute in creel `lin`, none for an empty mask (R79). -/
def State.homeOf (s : State) (lin : Nat) (hk : Bool) (home lpa : Nat) : Option Nat :=
  if hk then
    let cs := maskCores (mapGet (s.creel lin).hmask 0 (home % 4))
    nth cs (lineHash (lpa / 1024) * cs.length / 128)
  else some home

/-- The core of a creel (State.lean's numbers). -/
def coreAt (lin c : Nat) : Nat := 32 * lin + c

/-- The set of a line: LN[3:0] (R80). -/
def l2Set (gpa : Nat) : Nat := gpa / 1024 % 16
def sectorOf (gpa : Nat) : Nat := gpa / 128 % 8

/-- The way of a slice that holds the line of an address, with the line (R79: at most one). -/
def State.l2Find (s : State) (core gpa : Nat) : Option (Nat × Line) :=
  ((s.core core).l2.filter fun (k, l) => k / 16 == l2Set gpa && l.line == gpa / 1024).head?

/-- The sector that holds an address is valid in the slice (R80). -/
def State.l2Valid (s : State) (core gpa : Nat) : Bool :=
  match s.l2Find core gpa with
  | some (_, l) => l.valid.getLsbD (sectorOf gpa)
  | none => false

def State.updLine (s : State) (core way : Nat) (f : Line → Line) : State :=
  s.updCore core fun c =>
    match mapFind c.l2 way with
    | some l => { c with l2 := mapPut c.l2 way (f l) }
    | none => c

/-- The way was used last in its set (R80). -/
def State.l2Touch (s : State) (core way : Nat) : State :=
  if mapFind (s.core core).recent (way / 16) = some way then s
  else s.updCore core fun c => { c with recent := mapPut c.recent (way / 16) way }

/-- The line of an address was used for a world, which is its way group's last user (R80, R313). -/
def State.l2Used (s : State) (core gpa world : Nat) : State :=
  match s.l2Find core gpa with
  | some (w, _) =>
    let s := s.l2Touch core w
    if mapGet (s.core core).users 0 (4 + w % 16) = world then s
    else s.updCore core fun c => { c with users := mapPut c.users (4 + w % 16) world }
  | none => s

/-- One sector written back to DRAM: a correctable error is corrected on the way, and an uncorrectable sector is recorded and copied as it stands
(R352, R356, R370). -/
def State.sectorBack (s : State) (core g : Nat) : State :=
  let u := sliceLoc core g
  let s :=
    if setHas s.bad u then
      s.pushRec (linOf g) 0x08 0 0 0 (recWords false 0x4 0x08 0x09 0 0 0 0 0 0 g 0 0 3 0 0)
    else if setHas s.soft u then s.correctUnit u 0 3
    else s
  s.copySector u g

/-- Write a line's dirty sectors back to DRAM; the line stays (R80, R293). -/
def State.l2WriteBack (s : State) (core way : Nat) : State :=
  match mapFind (s.core core).l2 way with
  | none => s
  | some l =>
    let s := (List.range 8).foldl (fun s i =>
      if l.dirty.getLsbD i then s.sectorBack core (l.line * 1024 + 128 * i) else s) s
    s.updLine core way fun l => { l with dirty := 0 }

/-- Drop a line with whatever it holds (R80, R293). -/
def State.l2Drop (s : State) (core way : Nat) : State :=
  match mapFind (s.core core).l2 way with
  | none => s
  | some l =>
    let s := (List.range 8).foldl (fun s i =>
      if l.valid.getLsbD i then s.dropSector (sliceLoc core (l.line * 1024 + 128 * i)) else s) s
    s.updCore core fun c => { c with l2 := mapDel c.l2 way }

/-- The ways of a set that hold no line and are not power-gated (R313), and the unpinned lines (R80). -/
def State.freeWays (s : State) (core set : Nat) : List Nat :=
  ((List.range 16).map (16 * set + ·)).filter fun w =>
    (mapFind (s.core core).l2 w).isNone && (mapFind (s.core core).gated (4 + w % 16)).isNone
def State.openWays (s : State) (core set : Nat) : List Nat :=
  ((List.range 16).map (16 * set + ·)).filter fun w =>
    match mapFind (s.core core).l2 w with
    | some l => l.pins == 0
    | none => false

/-- A way of the set for a new line: a free one, or an unpinned line's after its write-back (R80). None when every line of the set is
pinned. -/
def State.l2Room (s : State) (core gpa : Nat) : Option Nat × State :=
  match s.freeWays core (l2Set gpa) with
  | w :: _ => (some w, s)
  | [] =>
    match s.openWays core (l2Set gpa) with
    | [] => (none, s)
    | ws =>
      let old := ws.filter fun w => mapFind (s.core core).recent (l2Set gpa) != some w
      let ws := if old.isEmpty then ws else old
      let (n, s) := s.draw
      match nth ws (n % ws.length) with
      | some w => (some w, (s.l2WriteBack core w).l2Drop core w)
      | none => (none, s)

/-- The slice holds the line of an address or can take it (R80). -/
def State.l2HasRoom (s : State) (core gpa : Nat) : Bool :=
  (s.l2Find core gpa).isSome || !(s.freeWays core (l2Set gpa)).isEmpty || !(s.openWays core (l2Set gpa)).isEmpty

/-- The way of the line of an address, made if the slice does not hold it. -/
def State.l2Line (s : State) (core gpa : Nat) (reader hk : Bool) (hm : Nat) : Option Nat × State :=
  match s.l2Find core gpa with
  | some (w, _) => (some w, s)
  | none =>
    match s.l2Room core gpa with
    | (none, s) => (none, s)
    | (some w, s) =>
      (some w, (s.updCore core fun c =>
        { c with l2 := mapPut c.l2 w ⟨gpa / 1024, reader, hk, if hk then hm else 0, 0, none, 0, 0⟩ }).l2Touch core w)

/-- Fill the sector of an address from a location, and the line's way (R80, R81). -/
def State.l2FillFrom (s : State) (core gpa src : Nat) (reader hk : Bool) (hm : Nat) : State :=
  match s.l2Line core gpa reader hk hm with
  | (none, s) => s
  | (some w, s) =>
    let g := gpa / 128 * 128
    (s.copySector src (sliceLoc core g)).updLine core w fun l =>
      { l with valid := l.valid ||| BitVec.ofNat 8 (2 ^ sectorOf gpa) }

/-- The home sector of an address filled from DRAM if it is invalid; the fill corrects what it can (R80, R352, R370). -/
def State.l2Ensure (s : State) (core gpa : Nat) (hk : Bool) (hm world : Nat) : State :=
  (if s.l2Valid core gpa then s
  else
    let g := gpa / 128 * 128
    (if setHas s.soft g && !setHas s.bad g then s.correctUnit g 0 4 else s).l2FillFrom core gpa g false hk hm).l2Used core gpa world

/-- Where an access of creel `lin` through a home finds an address of its own memory: SRAM itself, the slice's copy of a DRAM sector,
or DRAM when every way of the set is pinned. -/
def State.dataLoc (s : State) (gpa : Nat) (home : Option Nat) : Nat :=
  match home with
  | none => gpa
  | some c =>
    let core := coreAt (linOf gpa) c
    if s.l2Valid core gpa then sliceLoc core gpa else gpa

/-- The sector written through its home is dirty (R80). -/
def State.l2Dirty (s : State) (gpa : Nat) (home : Option Nat) : State :=
  match home with
  | none => s
  | some c =>
    let core := coreAt (linOf gpa) c
    match s.l2Find core gpa with
    | some (w, _) => s.updLine core w fun l => { l with dirty := l.dirty ||| BitVec.ofNat 8 (2 ^ sectorOf gpa) }
    | none => s

/-- The home sector made valid at once, for readers that the model does not park (walker, fetch, engines; log 5). -/
def State.ensure (s : State) (gpa : Nat) (hk : Bool) (hm : Nat) (home : Option Nat) (world : Nat) : State :=
  match home with
  | none => s
  | some c => s.l2Ensure (coreAt (linOf gpa) c) gpa hk hm world

end Sys2Proof.Machine
end

