-- ==== Sys2Proof/Machine/Xlate.lean ====
section
/-!
DEFINITION. Translation (R62 to R77) and the checks an access passes before it leaves its slot (rows 3 to 8 of R165, R73, R86).
-/

namespace Sys2Proof.Machine

/-! ### Table walks (R69 to R72) -/

/-- Bits [hi : lo] of a number. -/
def nbits (v hi lo : Nat) : Nat := v / 2 ^ lo % 2 ^ (hi + 1 - lo)

/-- Translation fault of a space: 0x05 local, 0x06 global (R72). -/
def faultCause (global : Bool) : Nat := if global then 0x06 else 0x05

/-- Index bits of a level and the size in bytes of its table (R69). -/
def levelIndex (global : Bool) (lvl va : Nat) : Nat :=
  match lvl with
  | 0 => nbits va 63 57
  | 1 => nbits va 56 48
  | 2 => if global then nbits va 47 39 else nbits va 46 39
  | 3 => nbits va 38 30
  | 4 => nbits va 29 21
  | _ => nbits va 20 16
def levelSize (global : Bool) (lvl : Nat) : Nat :=
  match lvl with
  | 0 => 1024
  | 2 => if global then 4096 else 2048
  | 5 => 256
  | _ => 4096
/-- The page bits of a leaf at a level: 1 GiB, 2 MiB or 64 KiB (R69). -/
def leafBits (lvl : Nat) : Nat := match lvl with | 3 => 30 | 4 => 21 | _ => 16

/-- The region of R66 that holds a local physical address at creel `lin`: 1 SRAM open to slots, 2 the system area, 3 agent
memory, 4 the DRAM slice; 0 for none. -/
def regionOf (lin lpa : Nat) : Nat :=
  if isSystemArea lpa then 2
  else if isSram lpa then 1
  else if isAgent lpa && hasAgent lin then 3
  else if isDram lpa then 4
  else 0

/-- A table lies in the creel's own SRAM or DRAM slice and is aligned to its size (R72). -/
def tableOk (t size : Nat) : Bool := t % size == 0 && (isSram t || isDram t)

/-- The checks of a leaf found at a level, and the translation it gives (R70, R72). -/
def leafTlb (lin asid : Nat) (global : Bool) (world va lvl e : Nat) : Except WalkErr Tlb :=
  let bits := leafBits lvl
  let pa := e / 2 ^ 16 * 2 ^ 16
  let f := WalkErr.cause (faultCause global)
  let lpa := pa % 2 ^ 45
  let owner := if global then pa / 2 ^ 45 else lin
  let hk := e.testBit 10
  let sramLocal := !global && isSram lpa
  if lvl < 3 then .error f
  else if nbits e 8 7 != 0 || nbits e 2 2 != 0 then .error f
  else if !sramLocal && (hk && nbits e 15 13 != 0 || !hk && 23 < nbits e 15 11) then .error f
  else if pa % 2 ^ bits != 0 then .error f
  else if !global && (pa / 2 ^ 45 != 0 || e.testBit 9) then .error f
  else if global && (e.testBit 4 || e.testBit 5) then .error f
  else if regionOf owner lpa == 0 || regionOf owner lpa != regionOf owner (lpa + 2 ^ bits - 1) then .error f
  else if !global && regionOf owner lpa == 3 then .error f
  else .ok ⟨asid, global, world, va / 2 ^ bits, bits, pa, nbits e 15 11, hk, global && e.testBit 9, e.testBit 6,
    e.testBit 5, e.testBit 4, e.testBit 3⟩

/-- What one step of a walk comes to: the next table with its level, a translation, or a fault. -/
inductive WalkStep where
  | next (lvl table : Nat)
  | leaf (e : Tlb)
  | fault (w : WalkErr)
  deriving DecidableEq, Repr

/-- The root entry of an ASID and space (R74, R75). -/
def State.root (s : State) (lin asid : Nat) (global : Bool) : Nat :=
  (mapGet (s.creel lin).roots 0 (2 * asid + global.toNat)).toNat

/-- A table at an address of a level, if it is aligned to its size and lies in the creel's own memory (R72). -/
def nextTable (global : Bool) (lvl t : Nat) : WalkStep :=
  if tableOk t (levelSize global lvl) then .next lvl t else .fault (.cause (faultCause global))

/-- The first step of a walk (R71): the root entry is examined, V, then WORLD, then ROOT (R72). -/
def State.walkRoot (s : State) (lin asid : Nat) (global : Bool) (world : Nat) : WalkStep :=
  let r := s.root lin asid global
  if !r.testBit 0 then .fault (.cause (faultCause global))
  else if nbits r 63 58 != world then .fault (.cause 0x07)
  else nextTable global (if global then 0 else 2) (nbits r 44 8 * 256)

/-- The address of the entry of level `lvl` that a walk reads in the table at `t` (R69). -/
def walkEntry (lin : Nat) (global : Bool) (va lvl t : Nat) : Nat := gpaOf lin (t + 8 * levelIndex global lvl va)

/-- What the entry `e` of level `lvl` comes to (R70, R72). -/
def entryStep (lin asid : Nat) (global : Bool) (world va lvl e : Nat) : WalkStep :=
  let f := WalkStep.fault (.cause (faultCause global))
  if !e.testBit 0 then f
  else if e.testBit 1 then
    match leafTlb lin asid global world va lvl e with
    | .ok t => .leaf t
    | .error w => .fault w
  else if nbits e 63 45 != 0 || nbits e 7 2 != 0 || lvl == 5 then f
  else nextTable global (lvl + 1) (nbits e 44 8 * 256)

/-- One entry of a walk read at a place of its own (R71, R358): an 8-byte load of the creel's own memory, in the DRAM slice through the home
slice of core 0, under the key of the root entry's world (R310). -/
def State.walkRead (s : State) (lin asid : Nat) (global : Bool) (world va lvl t : Nat) : State × WalkStep :=
  let gpa := walkEntry lin global va lvl t
  let home := if isDram (lpaOf gpa) then some 0 else none
  let s := s.ensure gpa false 0 home world
  let loc := s.dataLoc gpa home
  if s.badIn loc 8 then (s.foundBad loc 8, .fault (.bad gpa lvl))
  else
    let s := s.correct loc 8 va 1
    (s, entryStep lin asid global world va lvl (s.readAs (s.key lin world) loc 8))

/-- The next step of a walk. -/
def State.walkStep (s : State) (lin : Nat) (w : Walk) : State × WalkStep :=
  match w.at_ with
  | none => (s, s.walkRoot lin w.asid w.global w.world)
  | some (lvl, t) => s.walkRead lin w.asid w.global w.world (w.page * 2 ^ 16) lvl t

/-- The steps of a walk from an entry on with no other access between them: what R71's loop yields on tables that do not change. -/
def State.walkFrom (s : State) (lin asid : Nat) (global : Bool) (world va lvl t : Nat) : Nat → State × Except WalkErr Tlb
  | 0 => (s, .error (.cause (faultCause global)))
  | n + 1 =>
    match s.walkRead lin asid global world va lvl t with
    | (s, .next lvl t) => s.walkFrom lin asid global world va lvl t n
    | (s, .leaf e) => (s, .ok e)
    | (s, .fault w) => (s, .error w)

/-- A whole walk with no other access between its steps (R71). -/
def State.walk (s : State) (lin asid : Nat) (global : Bool) (world va : Nat) : State × Except WalkErr Tlb :=
  match s.walkRoot lin asid global world with
  | .next lvl t => s.walkFrom lin asid global world va lvl t 6
  | .leaf e => (s, .ok e)
  | .fault w => (s, .error w)

/-! ### Translation buffers (R76) -/

/-- An entry matches an access: ASID, space, page and the slot's world (R76). -/
def Tlb.hit (e : Tlb) (asid : Nat) (global : Bool) (world va : Nat) : Bool :=
  e.asid == asid && e.global == global && e.world == world && e.vpage == va / 2 ^ e.bits

/-- An entry added to a buffer of `size` entries; a full one gives up an entry of free choice (R76; log 9). -/
def tlbAdd (l : List Tlb) (e : Tlb) (size choice : Nat) : List Tlb :=
  if l.contains e then l
  else if l.length < size then e :: l
  else e :: dropNth l (choice % l.length)

def State.fillCoreTlb (s : State) (core : Nat) (e : Tlb) : State :=
  let (n, s) := s.draw
  s.updCore core fun c => { c with tlb := tlbAdd c.tlb e 64 n }
def State.fillCreelTlb (s : State) (lin : Nat) (e : Tlb) : State :=
  let (n, s) := s.draw
  s.updCreel lin fun c => { c with tlb := tlbAdd c.tlb e 2048 n }

/-- The lookup of an access of a core: its own buffer, then the creel's, which refills its own (R76). -/
def State.tlbFind (s : State) (core asid : Nat) (global : Bool) (world va : Nat) : Option Tlb × State :=
  match (s.core core).tlb.find? (·.hit asid global world va) with
  | some e => (some e, s)
  | none =>
    match (s.creel (core / 32)).tlb.find? (·.hit asid global world va) with
    | some e => (some e, s.fillCoreTlb core e)
    | none => (none, s)

/-- The physical address that an entry gives: global, the home attribute of its leaf (R79), and the entry's space and page bits. -/
structure Phys where
  gpa : Nat
  hk : Bool
  home : Nat
  nc : Bool
  global : Bool
  bits : Nat
  deriving DecidableEq, Repr

def Tlb.phys (e : Tlb) (lin va : Nat) : Phys :=
  ⟨(if e.global then e.frame else gpaOf lin e.frame) + va % 2 ^ e.bits, e.hk, e.home, e.nc, e.global, e.bits⟩

/-- A translated address as a place with a home core. -/
def Phys.place (p : Phys) (home : Option Nat) : Place := ⟨p.gpa, home, p.hk, p.home % 4, p.global, p.bits⟩

/-- Translate for a slot: none is a miss, and the slot waits for its walk (R76). -/
def State.xlate (s : State) (id : Nat) (global : Bool) (va : Nat) : State × Option Tlb :=
  let sl := s.slot id
  match s.tlbFind (slotCore id) sl.asid.toNat global sl.world.toNat va with
  | (e, s) => (s, e)

/-- A miss joins the walk of its ASID, space, world and page, or starts one; at most 32 run at once, and the others wait in the order of
their misses (R76). A walk that has read its leaf takes no more requesters (R358): it is gone by then. -/
def State.requestWalk (s : State) (lin : Nat) (asid : Nat) (global : Bool) (world va req : Nat) : State :=
  let cr := s.creel lin
  let same := fun w : Walk => w.asid == asid && w.global == global && w.world == world && w.page == va / 2 ^ 16
  if cr.walks.any same then
    s.updCreel lin fun c => { c with walks := c.walks.map fun w => if same w then { w with reqs := w.reqs ++ [(req, va)] } else w }
  else
    let (wid, s) := s.newId
    let (due, s) := s.laterCycle
    let free := decide ((cr.walks.filter (·.started)).length < 32)
    s.updCreel lin fun c => { c with walks := c.walks ++ [⟨wid, asid, global, world, va / 2 ^ 16, free, due, none, [(req, va)]⟩] }

/-- The slot parks until its walk is done and then reissues (R76). -/
def State.parkWalk (s : State) (id : Nat) (global : Bool) (va : Nat) : State :=
  let sl := s.slot id
  (s.requestWalk (slotLin id) sl.asid.toNat global sl.world.toNat va id).waitOf id .walk

/-- The slot parks until the walk of its fetch is done and then fetches again (R76). -/
def State.parkFetch (s : State) (id va : Nat) : State := (s.parkWalk id false va).waitOf id .fwalk

/-! ### Translation for units (R76)

An engine, the front end of a weave or the task unit that misses waits for a walk as a slot does. It asks under a number of its own, and finds
either the translation in the buffers or its fault in `wfaults` when it asks again. -/

/-- The requester's number of a command, a weave or a completion update with number `id`, and of a slot's range form: above every slot's. -/
def unitReq (id : Nat) : Nat := 2 ^ 41 + id
def sweepReq (id : Nat) : Nat := 2 ^ 40 + id

/-- What translating for a unit comes to. -/
inductive UXl where
  | ok (e : Tlb)
  | fault (w : WalkErr)
  | wait
  deriving DecidableEq, Repr

/-- A walk that the unit asked for is not over. -/
def State.unitWaits (s : State) (lin req : Nat) : Bool := (s.creel lin).walks.any fun w => w.reqs.any (·.1 == req)

/-- The unit has asked for a page and its walk is not over. -/
def State.unitAsked (s : State) (lin req va : Nat) : Bool :=
  (s.creel lin).walks.any fun w => w.page == va / 2 ^ 16 && w.reqs.any (·.1 == req)

/-- The requester's fault for a page, taken. -/
def State.takeFault (s : State) (lin req va : Nat) : Option WalkErr × State :=
  match (s.creel lin).wfaults.find? fun f => f.req == req && f.page == va / 2 ^ 16 with
  | some f => (some f.err, s.updCreel lin fun c => { c with wfaults := c.wfaults.erase f })
  | none => (none, s)

/-- After a miss: the fault of an earlier walk, or a walk that is under way or starts now. -/
def State.unitMiss (s : State) (lin req asid : Nat) (global : Bool) (world va : Nat) : State × UXl :=
  match s.takeFault lin req va with
  | (some w, s) => (s, .fault w)
  | (none, s) => (if s.unitAsked lin req va then s else s.requestWalk lin asid global world va req, .wait)

/-- Translate for an engine that works for slot `id` (R76, R347). -/
def State.unitXlate (s : State) (req id : Nat) (global : Bool) (va : Nat) : State × UXl :=
  let sl := s.slot id
  match s.tlbFind (slotCore id) sl.asid.toNat global sl.world.toNat va with
  | (some e, s) => (s, .ok e)
  | (none, s) => s.unitMiss (slotLin id) req sl.asid.toNat global sl.world.toNat va

/-- Translate a local address for a unit of a creel, through the creel TLB. -/
def State.creelXlate (s : State) (req lin asid world va : Nat) : State × UXl :=
  match (s.creel lin).tlb.find? (·.hit asid false world va) with
  | some e => (s, .ok e)
  | none => s.unitMiss lin req asid false world va

/-! ### Access checks -/

/-- What an access needs of its leaf (R73). -/
inductive Need where
  | fetch
  | read
  | write
  | both
  deriving DecidableEq, Repr

/-- R73: the leaf bits an access needs, in the mode of its slot. -/
def permitted (e : Tlb) (need : Need) (sup : Bool) : Bool :=
  (sup || e.u) &&
  match need with
  | .fetch => e.x
  | .read => e.rd
  | .write => e.w
  | .both => e.rd && e.w

/-- Granule g of creel `lin` is locked to a slot other than `id` (R85, R86). -/
def State.lockedElsewhere (s : State) (lin g id : Nat) : Bool :=
  s.slots.any fun (k, sl) =>
    k != id && slotLin k == lin && sl.slock && decide (sl.sbase.toNat ≤ g ∧ g < sl.sbound.toNat)

/-- R86: `n` bytes of creel SRAM touch a granule locked to another slot. -/
def State.partitionRefuses (s : State) (id gpa n : Nat) : Bool :=
  let lpa := lpaOf gpa
  isSram lpa &&
    (List.range ((lpa % 4096 + n - 1) / 4096 + 1)).any fun i => s.lockedElsewhere (linOf gpa) (lpa / 4096 + i) id

/-- The first byte of an access at an address and place that lies in a granule locked to another slot (R86, R331). -/
def State.firstRefused (s : State) (id va gpa n : Nat) : Nat :=
  let lpa := lpaOf gpa
  match (List.range ((lpa % 4096 + n - 1) / 4096 + 1)).find? fun i => s.lockedElsewhere (linOf gpa) (lpa / 4096 + i) id with
  | some (i + 1) => va + (4096 * (i + 1) - lpa % 4096)
  | _ => va

/-- What the checks of an access come to. -/
inductive Chk where
  | ok (p : Place)
  | trap (t : Trap)
  | miss
  deriving DecidableEq, Repr

/-- Rows 5 to 8 of R165 for an access of a slot to `n` bytes of its creel, at a translated address: the home (R79), the permissions
(R73), the DRAM slice for a form that needs SRAM, the system area and the partitions. -/
def State.checkPlace (s : State) (id va n : Nat) (need : Need) (sram : Bool) (e : Tlb) : Chk :=
  let lin := slotLin id
  let p := e.phys lin va
  let lpa := lpaOf p.gpa
  let v := BitVec.ofNat 64 va
  let home := if isDram lpa then s.homeOf lin p.hk p.home lpa else none
  if isDram lpa && home.isNone then .trap ⟨faultCause e.global, v, false⟩
  else if !permitted e need (s.slot id).mode then .trap ⟨0x08, v, false⟩
  else if sram && isDram lpa then .trap ⟨0x08, v, false⟩
  else if (need == .write || need == .both) && isSystemArea lpa then .trap ⟨0x07, v, false⟩
  else if s.partitionRefuses id p.gpa n then .trap ⟨0x07, BitVec.ofNat 64 (s.firstRefused id va p.gpa n), false⟩
  else .ok (p.place home)

/-- Rows 3 to 8 of R165 for a local access. -/
def State.checkLocal (s : State) (id va n align : Nat) (need : Need) (sram : Bool) : State × Chk :=
  let v := BitVec.ofNat 64 va
  if 2 ^ 47 ≤ va then (s, .trap ⟨0x05, v, false⟩)
  else if va % align != 0 then (s, .trap ⟨0x04, v, false⟩)
  else
    match s.xlate id false va with
    | (s, some e) => (s, s.checkPlace id va n need sram e)
    | (s, none) => (s, .miss)

/-- What keeps an instruction from its effect: a trap, a miss whose walk the slot waits for before it goes on (R76), or an access of the slot that is
still in flight (R90). -/
inductive Stop where
  | trap (t : Trap)
  | miss (global : Bool) (va : Nat)
  | busy
  deriving DecidableEq, Repr

/-- A range of local bytes checked page by page (R191, R239, R276, R293): the first failing address decides. The result has one span for
each 64 KiB page. -/
def State.checkRange (s : State) (id va n : Nat) (need : Need) (sram : Bool) : Nat → State × Except Stop (List Span)
  | 0 => (s, .ok [])
  | fuel + 1 =>
    if n = 0 then (s, .ok [])
    else
      let piece := min n (2 ^ 16 - va % 2 ^ 16)
      match s.checkLocal id va piece 1 need sram with
      | (s, .ok p) =>
        match s.checkRange id (va + piece) (n - piece) need sram fuel with
        | (s, .ok ps) => (s, .ok (⟨va, piece, p⟩ :: ps))
        | (s, .error t) => (s, .error t)
      | (s, .trap t) => (s, .error (.trap t))
      | (s, .miss) => (s, .error (.miss false va))

/-- The number of pages that a range of n bytes can touch. -/
def pagesOf (n : Nat) : Nat := n / 2 ^ 16 + 2

end Sys2Proof.Machine
end

