-- ==== Sys2Proof/Machine/Ops.lean ====
section
/-!
DEFINITION. The named operations of instructions: taking an exception and returning from one (R327 to R329), user interrupts (R38, R40),
the checks every instruction passes (R339), and how an access of a slot reaches memory.
-/

namespace Sys2Proof.Machine

/-! ### Taking an exception -/

/-- The local physical address of the slot's trap-entry save area: SBASE.BASE × 4,096 (R327). -/
def Slot.saveArea (sl : Slot) : Nat := sl.sbase.toNat * 4096

/-- R327: x1 to x7 and their presence bits stored at the save area, encrypted under the slot's world key. -/
def State.saveRegs (s : State) (id : Nat) : State :=
  let sl := s.slot id
  let a := sl.saveArea
  let vals := (List.range 7).flatMap fun i => natBytes (s.regOf id (i + 1)).toNat 8
  let pres := (List.range 7).foldl (fun acc i => if s.presOf id (i + 1) then acc + 2 ^ i else acc) 0
  if isSram (a + 63) then s.store (s.slotKey id) (gpaOf (slotLin id) a) (vals ++ natBytes pres 8) else s

/-- R327: x1 to x7 and their presence bits loaded from the save area. The reload takes the registers, so a reply that one still awaits is
discarded (R168). -/
def State.loadRegs (s : State) (id : Nat) : State :=
  let sl := s.slot id
  let g := gpaOf (slotLin id) sl.saveArea
  let key := s.slotKey id
  let s := s.correct g 64 0 1
  let pres := s.readAs key (g + 56) 8
  (List.range 7).foldl (fun s i =>
    let e := s.entryOf id (i + 1)
    let r := s.entry e
    s.setEntry e { r with val := BitVec.ofNat 64 (s.readAs key (g + 8 * i) 8), pres := pres.testBit i, tok := 0 }) s

/-- The walks that a slot or its range form asked for forget it: what they come to is not its any more (R358). -/
def Creel.unwalk (c : Creel) (id : Nat) : Creel :=
  { c with
    walks := c.walks.map fun w => { w with reqs := w.reqs.filter fun r => r.1 != id && r.1 != sweepReq id }
    wfaults := c.wfaults.filter (·.req != sweepReq id) }

/-- The waiting lists that a parked slot may stand on forget it (R39, R171); BK of the object follows (R176, R181). -/
def State.unlist (s : State) (id : Nat) : State :=
  let lin := slotLin id
  let old := (s.creel lin).bwaits.find? (·.slot == id)
  let s := s.updCreel lin fun c =>
    { c.unwalk id with lwaits := c.lwaits.filter (·.slot != id), bwaits := c.bwaits.filter (·.slot != id) }
  match old with
  | some b => if b.arrive then (s.correct b.gpa 16 b.va 1).barFixBk lin (s.slotKey id) b.gpa else s
  | none => s

/-- The virtual address that a record of a trap names (R331, R335). -/
def trapVaddr (t : Trap) : Nat :=
  if 0x04 ≤ t.cause ∧ t.cause ≤ 0x0A ∨ t.cause = 0x0C then t.val.toNat else 0

/-- The slot gives up what it waits in: it leaves the waiting lists and a JOIN, and an attached member detaches and discards its queue (R38, R50,
R57, R162). -/
def State.abandonWaits (s : State) (id : Nat) : State := ((s.unlist id).detach id).unjoin id

/-- R328: the slot is terminated; it gives up its waits, and it ends when its work has drained. -/
def State.terminateSlot (s : State) (id : Nat) : State :=
  (s.abandonWaits id).updSlot id fun sl => { sl with terminating := true, wait := .hold }

/-- R328: the termination by an unhandled trap, which writes a record (R335). -/
def State.terminate (s : State) (id a : Nat) (t : Trap) : State :=
  (s.slotRec id 0x01 0x2 t.cause (trapVaddr t) 0 t.val.toNat a 0).terminateSlot id

/-- A coil frame in progress is suspended (R58). -/
def Slot.suspendCoil (sl : Slot) : Slot :=
  { sl with coil := sl.coil.map fun c => { c with suspended := true } }

/-- R328: no handler takes a trap: there is none, or a trap in supervisor mode has been taken before. -/
def State.unhandled (s : State) (id : Nat) : Bool :=
  let sl := s.slot id
  (s.creel (slotLin id)).svec == 0 || (sl.nest && sl.mode)

/-- R327: trap entry saves x1 to x7: the slot was in user mode and its partition is locked. -/
def Slot.savesRegs (sl : Slot) : Bool := !sl.mode && sl.slock

/-- R327: the entry itself, with `a` the address for SEPC and `att` for ATT, of a slot that no weave feeds. SEPC holds `a` modulo 2^47, which R326
gives the register, while STVAL holds the whole of a failing address (log 41). -/
def State.enterTrap (s : State) (id a : Nat) (t : Trap) (att : Bool) : State :=
  let sl := s.slot id
  let s := if sl.savesRegs then s.saveRegs id else s
  s.updSlot id fun sl =>
    { sl with
      sepc := BitVec.ofNat 47 a
      scause := BitVec.ofNat 10 (t.cause + (if t.deferred then 256 else 0) + (if att then 512 else 0))
      stval := t.val
      pm := sl.mode
      nest := sl.mode
      nosave := !sl.savesRegs
      uf := false
      mode := true
      wait := .none
      pc := (s.creel (slotLin id)).svec.toNat / 4 * 4
      xfer := true }

/-- R327: a synchronous trap of slot `id`, with `a` the address for SEPC. Without a handler, or on a second trap in supervisor mode, the
slot is terminated (R328). Otherwise an attached member detaches, SEPC, SCAUSE and STVAL are written, x1 to x7 are saved when the slot has a
locked partition and was in user mode, the mode becomes supervisor, and the slot goes on at SVEC. The save stands after every earlier access of
the slot: where one is still in flight, the entry waits for it. -/
def State.takeTrap (s : State) (id a : Nat) (t : Trap) : State :=
  if s.unhandled id then s.terminate id a t
  else
    let att := (s.slot id).member == .attached
    let s := (s.abandonWaits id).updSlot id (·.suspendCoil)
    if (s.slot id).savesRegs && s.accesses.any (·.slot == id) then s.waitOf id (.entry a t att)
    else s.enterTrap id a t att

/-- A trap of the instruction that the slot whose turn it is issues. -/
def State.trap (s : State) (t : Trap) : State := s.takeTrap s.cur s.me.pc t

/-- A precise trap by cause and STVAL. -/
def State.trapWith (s : State) (cause : Nat) (v : Word) : State := s.trap ⟨cause, v, false⟩

/-- What keeps the instruction of the slot whose turn it is from its effect: its trap, a walk to wait for (R76), or an earlier access (R90). -/
def State.stopped (s : State) (x : Stop) : State :=
  match x with
  | .trap t => s.trap t
  | .miss global va => s.parkWalk s.cur global va
  | .busy => s.wait .hold

/-! ### Returning -/

/-- x1 to x7 exchanged with the shadow registers, presence bits included (R38, R137). A mark stays with its entry (R185); an awaited
reply goes with the value. -/
def State.swapShadow (s : State) (id : Nat) : State :=
  (List.range 7).foldl (fun s i =>
    let n := i + 1
    let e := s.entryOf id n
    let r := s.entry e
    let h := mapGet (s.slot id).shadow Reg.initial n
    (s.setEntry e { h with mark := r.mark }).updSlot id fun sl =>
      { sl with shadow := mapPut sl.shadow n { r with mark := false } }) s

/-- R58: the slot goes on at `t` after ERET or SRET. A suspended frame resumes when `t` is the address of its next word and is
discarded otherwise. -/
def Slot.returnTo (sl : Slot) (t : Nat) : Slot :=
  let sl := sl.popQueue
  { sl with
    pc := t, wait := .none, xfer := true
    coil := match sl.coil with
      | some c => if c.suspended && t == c.base + 4 * c.i then some { c with suspended := false } else none
      | none => none }

/-- R329: SRET with UF set forwards the trap to the user handler. -/
def State.forwardTrap (s : State) (id : Nat) : State :=
  let s := (s.updSlot id fun sl =>
    { sl with uepc := sl.sepc, ucode := BitVec.ofNat 8 sl.scause.toNat, uih := true }).swapShadow id
  s.updSlot id fun sl => { (sl.popQueue.jump (sl.uvec.toNat / 4 * 4)) with mode := false, uf := false, nest := false }

/-- R327: SRET reloads x1 to x7: the trap came from user mode and its entry saved them. -/
def Slot.reloads (sl : Slot) : Bool := !sl.nosave && !sl.pm

/-- R90, R327: the reload reads the save area, and an earlier access of the slot to it is still in flight. -/
def State.reloadWaits (s : State) (id : Nat) : Bool :=
  let sl := s.slot id
  let g := gpaOf (slotLin id) sl.saveArea
  sl.reloads && (s.accesses.filter (·.slot == id)).any fun a => a.parts.any fun p => decide (p.gpa < g + 64 ∧ g < p.gpa + p.size)

/-- R286, R327, R329: the return from a supervisor trap. -/
def State.returnTrap (s : State) (id : Nat) : State :=
  let sl := s.slot id
  let s := if sl.reloads then s.loadRegs id else s
  let s := s.detach id
  if sl.uf && !sl.pm && !sl.uih && sl.uvec != 0 then s.forwardTrap id
  else s.updSlot id fun sl => { (sl.returnTo sl.sepc.toNat) with mode := sl.pm, uf := false, nest := false }

/-- R38: the lowest pending enabled cause is delivered. The member detaches first (R57). -/
def State.deliverUser (s : State) (id : Nat) : State :=
  let sl := s.slot id
  let pe := (sl.upend &&& sl.umask).toNat
  let k := if pe.testBit 0 then 0 else if pe.testBit 1 then 1 else if pe.testBit 2 then 2 else 3
  let s := (s.abandonWaits id).updSlot id fun sl =>
    { sl.suspendCoil with
      uepc := BitVec.ofNat 47 sl.pc
      ucode := BitVec.ofNat 8 (0x80 + k)
      upend := sl.upend &&& ~~~(BitVec.ofNat 4 (2 ^ k))
      uih := true }
  (s.swapShadow id).updSlot id fun sl => sl.jump (sl.uvec.toNat / 4 * 4)

/-- R38: a user interrupt is deliverable; not in supervisor mode (R327). -/
def Slot.deliverable (sl : Slot) : Bool := !sl.uih && sl.uvec != 0 && (sl.upend &&& sl.umask) != 0 && !sl.mode

/-- R287: the supervisor timer event is due at a boundary in user mode. -/
def Slot.timerDue (sl : Slot) : Bool := sl.stimerPend && !sl.mode

/-- A user interrupt pending bit is set (R35). A CSAVE or CREST that waits tells it from those before (R291). -/
def State.pendUser (s : State) (id bit : Nat) : State :=
  let b := BitVec.ofNat 4 (2 ^ bit)
  s.updSlot id fun sl => { sl with upend := sl.upend ||| b, ctxWait := sl.ctxWait.map fun x => (x.1, x.2 ||| b) }

/-! ### The checks every instruction passes (R339) -/

/-- The first word of an instruction, for STVAL (R331). -/
def wordOf (i : Instr) : Word := ((encode i).head?.getD 0).setWidth 64

/-- Stage 4: the first register field, from bit 25 downward, that lies outside the window (R30). -/
def Slot.outside (sl : Slot) (fields : List (BitVec 7)) : Option (BitVec 7) :=
  fields.find? fun n => decide (sl.limit ≤ sl.base + n.toNat)

/-- Stage 5: a relaxed-load fault pending on a register that the instruction reads (R169). -/
def Slot.rfault (sl : Slot) (srcs : List (BitVec 7)) : Option (Nat × Word) :=
  sl.rfaults.find? fun f => srcs.any (·.toNat == f.1)

/-- A pending relaxed-load fault is raised, with DEF set (R169, R350). -/
def State.raiseRfault (s : State) (f : Nat × Word) : State :=
  (s.updMe fun sl => { sl with rfaults := sl.rfaults.erase f }).trap ⟨0x09, f.2, true⟩

/-- Stages 4 to 6 of R339 for an instruction that names the register fields `fields` and reads `srcs`, and then its own effect. A slot
that waits for a presence bit stays at the boundary and issues at a later turn (R136). -/
def issue (fields srcs : List (BitVec 7)) (body : State → State) (s : State) : State :=
  match s.me.outside fields with
  | some n => s.trapWith 0x03 (n.setWidth 64)
  | none =>
    match s.me.rfault srcs with
    | some f => s.raiseRfault f
    | none => if srcs.all fun n => s.presOf s.cur n.toNat then body s else s

/-- Stages 4 to 6 for a FENCE form and EXIT, which raise a pending relaxed-load fault whatever they name (R339, R175). -/
def issueFence (body : State → State) (s : State) : State :=
  match s.me.rfaults with
  | f :: _ => s.raiseRfault f
  | [] => body s

/-- Stage 3: an instruction of supervisor mode raises 0x02 in user mode, with STVAL the word (R339, R331). -/
def supervisor (i : Instr) (body : State → State) (s : State) : State :=
  if s.me.mode then body s else s.trapWith 0x02 (wordOf i)

/-- Write x(d) and go on at the next address: how an instruction with a result completes. -/
def State.finish (s : State) (d : BitVec 7) (v : Word) : State := (s.setX d.toNat v).retire 4

/-- The outcome of an instruction that completes, traps or waits: a next state. -/
def done (s : State) : Host.Outcome State Fault Refusal := .next s

/-! ### Checked pieces of memory -/

/-- An uncorrectable code word among `n` bytes at a location that an access of a slot met is recorded: source 0x09 for SRAM, 0x08 for the DRAM
slice, class 0x4, PADDR the word or sector (R355, R370). A slot that waits on the word leaves its wait (R357). -/
def State.dataRecAt (s : State) (id loc n va pc detail : Nat) : State :=
  let u := s.badUnitIn loc n
  (s.slotRec id (if wordUnit u then 0x09 else 0x08) 0x4 0x09 va (locGpa u) va pc detail).foundBad loc n

/-- As `dataRecAt`, met by the instruction that the slot issues. -/
def State.dataRec (s : State) (id loc n va : Nat) : State := s.dataRecAt id loc n va (s.slot id).pc 1

/-- The accesses of a slot that have not completed (R168). -/
def State.outstanding (s : State) (id : Nat) : List Access := s.accesses.filter (·.slot == id)
def State.relaxedOut (s : State) (id : Nat) : Nat := ((s.outstanding id).filter (·.relaxed)).length

/-- Parts overlap (R90). -/
def partsOverlap (a b : List Part) : Bool :=
  a.any fun p => b.any fun q => decide (p.gpa < q.gpa + q.size ∧ q.gpa < p.gpa + p.size)

/-- R90: an access of the slot still in flight touches one of the parts. -/
def State.overlaps (s : State) (parts : List Part) (commut : Bool) : Bool :=
  (s.outstanding s.cur).any fun a => partsOverlap parts a.parts && !(commut && a.commut)

/-- R90 for an instruction that reads or writes whole spans. -/
def State.spansClash (s : State) (l : List Span) : Bool :=
  (s.outstanding s.cur).any fun a => l.any fun sp => a.parts.any fun q =>
    decide (sp.place.gpa < q.gpa + q.size ∧ q.gpa < sp.place.gpa + sp.n)

end Sys2Proof.Machine
end

