-- ==== Sys2Proof/Machine/Operands.lean ====
section
/-!
DEFINITION. Operand forms: immediates (R132), memory operands (R165, R166), and the shapes in which the groups take registers.
-/

namespace Sys2Proof.Machine

/-! ### Immediates and offsets (R132) -/

/-- imm12 sign-extended and zero-extended. -/
def sext12 (i : BitVec 12) : Word := i.signExtend 64
def zext12 (i : BitVec 12) : Word := i.setWidth 64
/-- imm32 sign-extended (R157). -/
def sext32 (i : BitVec 32) : Word := i.signExtend 64
/-- The low 32 bits of a register, and a 32-bit result sign-extended (R108). -/
def lo32 (v : Word) : BitVec 32 := v.setWidth 32
def wide (v : BitVec 32) : Word := v.signExtend 64
def boolWord (b : Bool) : Word := if b then 1 else 0

/-- The target of a branch or jump: pc + 4 × the signed word count (R132, R158, R159). -/
def branchTarget (pc : Nat) (off : Int) : Int := pc + 4 * off

/-! ### Memory operands (R165, R166) -/

/-- The access size in bytes of a size code of LD, ST or GLD (R165). -/
def sizeOf_ (z : BitVec 3) : Nat := 2 ^ (z.toNat / 2)

/-- a ← (x(base) + sext(off7, 7) × size) mod 2^64 (R165). -/
def memAddr (base : Word) (off : BitVec 7) (size : Nat) : Nat :=
  (base + off.signExtend 64 * BitVec.ofNat 64 size).toNat

/-- What a load of size code z writes to x(t) (R166). -/
def loadValue (z v : Nat) : Word :=
  match z with
  | 0 => (BitVec.ofNat 8 v).signExtend 64
  | 1 => (BitVec.ofNat 8 v).setWidth 64
  | 2 => (BitVec.ofNat 16 v).signExtend 64
  | 3 => (BitVec.ofNat 16 v).setWidth 64
  | 4 => (BitVec.ofNat 32 v).signExtend 64
  | 5 => (BitVec.ofNat 32 v).setWidth 64
  | _ => BitVec.ofNat 64 v

/-! ### Register forms -/

/-- `MN xd, xa, xb`: x(d) from x(a) and x(b) (R150 to R152, R155). -/
def opRRR (d a b : BitVec 7) (f : Word → Word → Word) (s : State) : Host.Outcome State Fault Refusal :=
  done (issue [d, a, b] [a, b] (fun s => s.finish d (f (s.x a.toNat) (s.x b.toNat))) s)

/-- `MN xd, xa, xb` that also reads x(d): SEL, MAD, BFI (R149). -/
def opRRRd (d a b : BitVec 7) (f : Word → Word → Word → Word) (s : State) : Host.Outcome State Fault Refusal :=
  done (issue [d, a, b] [d, a, b]
    (fun s => s.finish d (f (s.x d.toNat) (s.x a.toNat) (s.x b.toNat))) s)

/-- `MN xd, xa` and `MN xd, xa, imm` (R152 to R154). -/
def opRR (d a : BitVec 7) (f : Word → Word) (s : State) : Host.Outcome State Fault Refusal :=
  done (issue [d, a] [a] (fun s => s.finish d (f (s.x a.toNat))) s)

/-- A LONG form, which is 8 bytes long (R130, R157): x(d) from its old value. `reads` tells whether the form reads x(d). -/
def opLong (d : BitVec 7) (reads : Bool) (f : Word → Word) (s : State) : Host.Outcome State Fault Refusal :=
  done (issue [d] (if reads then [d] else [])
    (fun s => (s.setX d.toNat (f (s.x d.toNat))).retire 8) s)

end Sys2Proof.Machine
end

