-- ==== Sys2Proof/Machine/Flags.lean ====
section
/-!
DEFINITION. Conditions and flags. The machine has no condition-code register: comparisons give 0 or 1, or steer a branch (R150, R158). Its
flags are the sticky bits of GFLAGS (R254), the pending bits of UCAUSE (R35) and the flags of a barrier object (R176; `barFlag`).
-/

namespace Sys2Proof.Machine

/-- The conditions of SLT, SLTU, SEQ and the branches (R150, R158). -/
def condLt (a b : Word) : Bool := decide (a.toInt < b.toInt)
def condLtu (a b : Word) : Bool := decide (a.toNat < b.toNat)
def condEq (a b : Word) : Bool := a == b

/-- GFLAGS as a register: bit 0 SB, bit 1 NF, bit 2 QUIET (R254). -/
def Slot.gflags (sl : Slot) : Nat := sl.gsb.toNat + 2 * sl.gnf.toNat + 4 * sl.gquiet.toNat
def Slot.setGflags (sl : Slot) (v : Nat) : Slot :=
  { sl with gsb := v.testBit 0, gnf := v.testBit 1, gquiet := v.testBit 2 }

/-- UCAUSE as a register (R37): CODE, PEND and IH. -/
def Slot.ucause (sl : Slot) : Nat := sl.ucode.toNat + 2 ^ 8 * sl.upend.toNat + 2 ^ 15 * sl.uih.toNat

/-- STATUS as a register (R326). -/
def Slot.status (sl : Slot) : Nat :=
  sl.mode.toNat + 2 * sl.pm.toNat + 4 * sl.uf.toNat + 8 * sl.nest.toNat + 16 * sl.nosave.toNat

end Sys2Proof.Machine
end

