-- ==== Sys2Proof/Machine/Alu.lean ====
section
/-!
DEFINITION. Integer arithmetic on registers: ALU (R150), MULDIV (R151), BIT (R152), the immediate forms (R153, R154), LEA (R155), MKG
(R156) and LONG (R157).
-/

namespace Sys2Proof.Machine

/-- Shift amounts: x(b)[5:0] and x(b)[4:0] (R150). -/
def sh6 (v : Word) : Nat := v.toNat % 64
def sh5 (v : Word) : Nat := v.toNat % 32

/-! ### ALU (R150) -/

def execAdd (d a b : BitVec 7) := opRRR d a b fun x y => x + y
def execSub (d a b : BitVec 7) := opRRR d a b fun x y => x - y
def execAnd (d a b : BitVec 7) := opRRR d a b fun x y => x &&& y
def execOr (d a b : BitVec 7) := opRRR d a b fun x y => x ||| y
def execXor (d a b : BitVec 7) := opRRR d a b fun x y => x ^^^ y
def execAndn (d a b : BitVec 7) := opRRR d a b fun x y => x &&& ~~~y
def execSll (d a b : BitVec 7) := opRRR d a b fun x y => x <<< sh6 y
def execSrl (d a b : BitVec 7) := opRRR d a b fun x y => x >>> sh6 y
def execSra (d a b : BitVec 7) := opRRR d a b fun x y => x.sshiftRight (sh6 y)
def execRotr (d a b : BitVec 7) := opRRR d a b fun x y => x.rotateRight (sh6 y)
def execMins (d a b : BitVec 7) := opRRR d a b fun x y => if condLt y x then y else x
def execMaxs (d a b : BitVec 7) := opRRR d a b fun x y => if condLt x y then y else x
def execMinu (d a b : BitVec 7) := opRRR d a b fun x y => if condLtu y x then y else x
def execMaxu (d a b : BitVec 7) := opRRR d a b fun x y => if condLtu x y then y else x
def execSlt (d a b : BitVec 7) := opRRR d a b fun x y => boolWord (condLt x y)
def execSltu (d a b : BitVec 7) := opRRR d a b fun x y => boolWord (condLtu x y)
def execSeq (d a b : BitVec 7) := opRRR d a b fun x y => boolWord (condEq x y)
def execSne (d a b : BitVec 7) := opRRR d a b fun x y => boolWord (!condEq x y)
def execAddw (d a b : BitVec 7) := opRRR d a b fun x y => wide (lo32 x + lo32 y)
def execSubw (d a b : BitVec 7) := opRRR d a b fun x y => wide (lo32 x - lo32 y)
def execSllw (d a b : BitVec 7) := opRRR d a b fun x y => wide (lo32 x <<< sh5 y)
def execSrlw (d a b : BitVec 7) := opRRR d a b fun x y => wide (lo32 x >>> sh5 y)
def execSraw (d a b : BitVec 7) := opRRR d a b fun x y => wide ((lo32 x).sshiftRight (sh5 y))
def execSel (d a b : BitVec 7) := opRRRd d a b fun c x y => if c != 0 then x else y

/-! ### MULDIV (R151, R109) -/

/-- Division truncates the quotient toward zero, and the remainder takes the sign of the dividend; division by zero gives all ones and
the dividend, and the most negative number by −1 gives itself and 0 (R109). -/
def divSigned {n : Nat} (a b : BitVec n) : BitVec n :=
  if b = 0 then BitVec.allOnes n else BitVec.ofInt n (a.toInt.tdiv b.toInt)
def remSigned {n : Nat} (a b : BitVec n) : BitVec n :=
  if b = 0 then a else BitVec.ofInt n (a.toInt.tmod b.toInt)
def divUnsigned (a b : Word) : Word := if b = 0 then BitVec.allOnes 64 else BitVec.ofNat 64 (a.toNat / b.toNat)
def remUnsigned (a b : Word) : Word := if b = 0 then a else BitVec.ofNat 64 (a.toNat % b.toNat)

def execMul (d a b : BitVec 7) := opRRR d a b fun x y => x * y
def execMulh (d a b : BitVec 7) := opRRR d a b fun x y => BitVec.ofInt 64 (x.toInt * y.toInt / 2 ^ 64)
def execMulhu (d a b : BitVec 7) := opRRR d a b fun x y => BitVec.ofNat 64 (x.toNat * y.toNat / 2 ^ 64)
def execMulw (d a b : BitVec 7) := opRRR d a b fun x y => wide (lo32 x * lo32 y)
def execMad (d a b : BitVec 7) := opRRRd d a b fun c x y => c + x * y
def execDiv (d a b : BitVec 7) := opRRR d a b fun x y => divSigned x y
def execDivu (d a b : BitVec 7) := opRRR d a b divUnsigned
def execRem (d a b : BitVec 7) := opRRR d a b fun x y => remSigned x y
def execRemu (d a b : BitVec 7) := opRRR d a b remUnsigned
def execDivw (d a b : BitVec 7) := opRRR d a b fun x y => wide (divSigned (lo32 x) (lo32 y))
def execRemw (d a b : BitVec 7) := opRRR d a b fun x y => wide (remSigned (lo32 x) (lo32 y))

/-! ### BIT (R152) -/

/-- The number of leading and of trailing zero bits, and of one bits (R152). -/
def clz64 (v : Word) : Nat := if v = 0 then 64 else 63 - Nat.log2 v.toNat
def ctzN (v : Nat) : Nat → Nat
  | 0 => 0
  | n + 1 => if v % 2 = 1 then 0 else 1 + ctzN (v / 2) n
def popN (v : Nat) : Nat → Nat
  | 0 => 0
  | n + 1 => v % 2 + popN (v / 2) n
/-- Bit i of the result is bit 63 − i (R152). -/
def bitReverse (v : Word) : Word :=
  BitVec.ofNat 64 ((List.range 64).foldl (fun acc i => 2 * acc + (v.toNat / 2 ^ i % 2)) 0)
/-- Byte i of the result is byte 7 − i (R152). -/
def byteSwap (v : Word) : Word :=
  BitVec.ofNat 64 ((List.range 8).foldl (fun acc i => 256 * acc + (v.toNat / 256 ^ i % 256)) 0)

/-- The fields of a control word: w = WM1 + 1 and p = POS (R152). -/
def fieldWidth (c : Word) : Nat := c.toNat / 2 ^ 8 % 64 + 1
def fieldPos (c : Word) : Nat := c.toNat % 64
/-- w′ and f of R152. -/
def fieldCut (c : Word) : Nat := min (fieldWidth c) (64 - fieldPos c)
def fieldBits (v c : Word) : Nat := v.toNat / 2 ^ fieldPos c % 2 ^ fieldCut c
/-- sext(v, n) (R7). -/
def sextN (v n : Nat) : Word := (BitVec.ofNat n v).signExtend 64

def execClz (d a : BitVec 7) := opRR d a fun x => BitVec.ofNat 64 (clz64 x)
def execCtz (d a : BitVec 7) := opRR d a fun x => BitVec.ofNat 64 (ctzN x.toNat 64)
def execPopc (d a : BitVec 7) := opRR d a fun x => BitVec.ofNat 64 (popN x.toNat 64)
def execBrev (d a : BitVec 7) := opRR d a bitReverse
def execBswap (d a : BitVec 7) := opRR d a byteSwap
def execBfx (d a b : BitVec 7) := opRRR d a b fun x c => sextN (fieldBits x c) (fieldCut c)
def execBfxu (d a b : BitVec 7) := opRRR d a b fun x c => BitVec.ofNat 64 (fieldBits x c)
def execBfi (d a b : BitVec 7) := opRRRd d a b fun o x c =>
  let m : Word := BitVec.ofNat 64 ((2 ^ fieldWidth c - 1) * 2 ^ fieldPos c)
  (o &&& ~~~m) ||| ((x <<< fieldPos c) &&& m)
def execSext (d a b : BitVec 7) := opRRR d a b fun x c => sextN x.toNat (fieldWidth c)

/-! ### Immediate forms (R153, R154) and LEA (R155) -/

def execAddi (d a : BitVec 7) (i : BitVec 12) := opRR d a fun x => x + sext12 i
def execAndi (d a : BitVec 7) (i : BitVec 12) := opRR d a fun x => x &&& zext12 i
def execOri (d a : BitVec 7) (i : BitVec 12) := opRR d a fun x => x ||| zext12 i
def execXori (d a : BitVec 7) (i : BitVec 12) := opRR d a fun x => x ^^^ zext12 i
def execSlti (d a : BitVec 7) (i : BitVec 12) := opRR d a fun x => boolWord (condLt x (sext12 i))
def execSltiu (d a : BitVec 7) (i : BitVec 12) := opRR d a fun x => boolWord (condLtu x (zext12 i))
def execSlli (d a : BitVec 7) (h : BitVec 6) := opRR d a fun x => x <<< h.toNat
def execSrli (d a : BitVec 7) (h : BitVec 6) := opRR d a fun x => x >>> h.toNat
def execSrai (d a : BitVec 7) (h : BitVec 6) := opRR d a fun x => x.sshiftRight h.toNat
def execRotri (d a : BitVec 7) (h : BitVec 6) := opRR d a fun x => x.rotateRight h.toNat
def execLea (d a b : BitVec 7) (h : BitVec 3) := opRRR d a b fun x y => x + y <<< h.toNat

/-! ### MKG (R156) -/

/-- R156: the executing creel's window; 0x05 when x(a) is not below 2^45. -/
def execMkg (d a : BitVec 7) (s : State) : Host.Outcome State Fault Refusal :=
  done (issue [d, a] [a] (fun s =>
    let v := s.x a.toNat
    if 2 ^ 45 ≤ v.toNat then s.trapWith 0x05 v
    else s.finish d (BitVec.ofNat 64 (s.lin * 2 ^ 45) + v)) s)

/-! ### LONG (R157) -/

def execLi (d : BitVec 7) (imm : BitVec 32) := opLong d false fun _ => sext32 imm
def execLiu (d : BitVec 7) (imm : BitVec 32) := opLong d false fun _ => imm.setWidth 64
def execLihi (d : BitVec 7) (imm : BitVec 32) := opLong d true fun x => imm ++ lo32 x
def execAddl (d : BitVec 7) (imm : BitVec 32) := opLong d true fun x => x + sext32 imm
def execAndl (d : BitVec 7) (imm : BitVec 32) := opLong d true fun x => x &&& sext32 imm
def execOrl (d : BitVec 7) (imm : BitVec 32) := opLong d true fun x => x ||| sext32 imm
def execXorl (d : BitVec 7) (imm : BitVec 32) := opLong d true fun x => x ^^^ sext32 imm

end Sys2Proof.Machine
end

