-- ==== Sys2Proof/Machine/Flow.lean ====
section
/-!
DEFINITION. Control flow: branches and jumps (R158 to R162), the WEAVE group (R50 to R54, R164), and words that are not
instructions (R341).
-/

namespace Sys2Proof.Machine

/-! ### Branches and jumps -/

/-- A conditional branch, a JALR or a FENCE.I goes on at `t` in the slot whose turn it is (R46, R47, R93). A strand goes there. An attached
member whose weave has resolved the branch compares addresses; any other waits at the branch, which resolves when the pilot has issued
it. -/
def State.branchTo (s : State) (t : Nat) : State :=
  let sl := s.me
  if sl.member = .attached then
    match sl.queue.head?.bind (·.resolved) with
    | some n =>
      if n = t then s.jump t
      else (s.updMe fun sl => { sl with wait := .none, pc := t, xfer := true }).detach s.cur
    | none => (s.park (.branch t)).settle sl.weave
  else s.jump t

/-- The taken target out of range raises 0x05 (R158, R159). -/
def State.withTarget (s : State) (t : Int) (go : Nat → State) : State :=
  if t < 0 ∨ 2 ^ 47 ≤ t then s.trapWith 0x05 (BitVec.ofInt 64 t) else go t.toNat

/-- R158: a compare-branch. One that is not taken checks no target. -/
def opBranch (a b : BitVec 7) (o : BitVec 12) (cond : Word → Word → Bool) (s : State) :
    Host.Outcome State Fault Refusal :=
  done (issue [a, b] [a, b] (fun s =>
    let pc := s.me.pc
    if cond (s.x a.toNat) (s.x b.toNat) then s.withTarget (branchTarget pc o.toInt) s.branchTo
    else if s.me.member = .attached then s.branchTo (pc + 4)
    else s.retire 4) s)

def execBeq (a b : BitVec 7) (o : BitVec 12) := opBranch a b o condEq
def execBne (a b : BitVec 7) (o : BitVec 12) := opBranch a b o fun x y => !condEq x y
def execBlt (a b : BitVec 7) (o : BitVec 12) := opBranch a b o condLt
def execBge (a b : BitVec 7) (o : BitVec 12) := opBranch a b o fun x y => !condLt x y
def execBltu (a b : BitVec 7) (o : BitVec 12) := opBranch a b o condLtu
def execBgeu (a b : BitVec 7) (o : BitVec 12) := opBranch a b o fun x y => !condLtu x y

/-- R159: J. The front end has followed it for an attached member (R46). -/
def execJ (o : BitVec 26) (s : State) : Host.Outcome State Fault Refusal :=
  done (issue [] [] (fun s => s.withTarget (branchTarget s.me.pc o.toInt) s.jump) s)

/-- R159: JAL writes x(1) ← pc + 4. It names no register field, so the window is not checked (R30). -/
def execJal (o : BitVec 26) (s : State) : Host.Outcome State Fault Refusal :=
  done (issue [] [] (fun s =>
    let pc := s.me.pc
    s.withTarget (branchTarget pc o.toInt) fun t => (s.setX 1 (BitVec.ofNat 64 (pc + 4))).jump t) s)

/-- R160: JALR reads x(a) before it writes x(d). -/
def execJalr (d a : BitVec 7) (i : BitVec 12) (s : State) : Host.Outcome State Fault Refusal :=
  done (issue [d, a] [a] (fun s =>
    let t := s.x a.toNat + sext12 i
    if t.toNat % 4 ≠ 0 then s.trapWith 0x04 t
    else if 2 ^ 47 ≤ t.toNat then s.trapWith 0x05 t
    else (s.setX d.toNat (BitVec.ofNat 64 (s.me.pc + 4))).branchTo t.toNat) s)

/-! ### Words that are not instructions (R341, R342) -/

/-- R341: cause 0x01 with STVAL the word, at stage 2 and so in either mode. -/
def execIllegalInstruction (w : BitVec 32) (s : State) : Host.Outcome State Fault Refusal :=
  done (s.trapWith 0x01 (w.setWidth 64))

/-! ### The WEAVE group (R52) -/

/-- The join watchdog limit of a creel in cycles (R51, R273). -/
def State.joinLimit (s : State) (lin : Nat) : Nat := 2 ^ (s.creel lin).params.jwd

/-- JOIN and VOTE order like a release (R54): the member's accesses complete before it counts as having issued. -/
def State.afterAccesses (s : State) (go : State → State) : State :=
  if (s.outstanding s.cur).isEmpty then go s else s

/-- R50, R51: JOIN. A LEFT member goes on at once; an attached member waits; a strand enters JWAIT. The wait ends by the limit that JWD gives when the
JOIN issues, whatever is written to JWD later (log 59). -/
def execJoin (s : State) : Host.Outcome State Fault Refusal :=
  done (issue [] [] (fun s => s.afterAccesses fun s =>
    let sl := s.me
    let w : Wait := .join sl.pc (s.cycle + s.joinLimit s.lin + 1)
    match sl.member with
    | .left | .exited => s.retire 4
    | .attached => (s.park w).settle sl.weave
    | _ => (s.updMe fun sl => { sl.park w with member := .jwait sl.pc }).settle sl.weave) s)

/-- R52: LEAVE. The member becomes LEFT, discards its queue and goes on at the next address. -/
def execLeave (s : State) : Host.Outcome State Fault Refusal :=
  done (issue [] [] (fun s =>
    ((s.retire 4).updMe fun sl => { sl with member := .left, queue := [] }).settle s.me.weave) s)

/-- R52: DETACH. An attached member becomes a strand; in a strand or a LEFT member it has no effect. -/
def execDetach (s : State) : Host.Outcome State Fault Refusal :=
  done (issue [] [] (fun s => (s.retire 4).detach s.cur) s)

/-- R52, R164: LAG counts the queue entries after it; a strand or LEFT member receives all ones. -/
def execLag (d : BitVec 7) (s : State) : Host.Outcome State Fault Refusal :=
  done (issue [d] [] (fun s =>
    let sl := s.me
    s.finish d (if sl.member = .attached then BitVec.ofNat 64 (sl.queue.length - 1) else BitVec.allOnes 64)) s)

/-- R52, R53, R164: a VOTE reads x(a) at issue and writes x(d) at completion. A strand or LEFT member is the only participant. -/
def opVote (fn : Nat) (d a : BitVec 7) (s : State) : Host.Outcome State Fault Refusal :=
  done (issue [d, a] [a] (fun s => s.afterAccesses fun s =>
    let sl := s.me
    let v := s.x a.toNat
    if sl.member = .attached then (s.park (.vote fn d.toNat v)).settle sl.weave
    else s.finish d (voteResult fn [v])) s)

def execVoteany (d a : BitVec 7) := opVote 4 d a
def execVoteall (d a : BitVec 7) := opVote 5 d a
def execVotecnt (d a : BitVec 7) := opVote 6 d a
def execVotemax (d a : BitVec 7) := opVote 7 d a

/-- R51: a member that has waited at a JOIN for longer than the limit abandons it, raises 0x0F and becomes a strand. -/
def execJoinWatchdog (sl : Nat) (s : State) : Host.Outcome State Fault Refusal :=
  done (match (s.slot sl).wait with
    | .join a deadline => if deadline ≤ s.cycle then s.takeTrap sl a ⟨0x0F, 0, false⟩ else s
    | _ => s)

end Sys2Proof.Machine
end

