-- ==== Sys2Proof/Machine/Fp.lean ====
section
/-!
DEFINITION. Number formats and floating-point arithmetic (R110 to R113, R118 to R128).

A floating-point datum is decoded to an exact value, operations are exact, and a result is rounded once into its format (R122). Division,
square root give an exact quotient or root with a flag for what is left over, and the special functions a value cut far below the last bit
that any format keeps (R124; log 22). Rounding modes are numbered as the rm field: 0 RNE, 1 RZ, 2 RD, 3 RU (R121).
-/

namespace Sys2Proof.Machine

/-- A decoded datum: NaN, an infinity, or (−1)^neg × m × 2^e, where m = 0 is a zero with its sign. -/
inductive Fv where
  | nan
  | inf (neg : Bool)
  | fin (neg : Bool) (m : Nat) (e : Int)
  deriving DecidableEq, Repr

/-- A binary interchange format: mantissa bits, exponent bits, bias (R110, R111, R113). -/
structure FpFmt where
  mb : Nat
  eb : Nat
  bias : Nat
  deriving DecidableEq, Repr

def fp32 : FpFmt := ⟨23, 8, 127⟩
def fp16 : FpFmt := ⟨10, 5, 15⟩
def bf16 : FpFmt := ⟨7, 8, 127⟩
def e8m10 : FpFmt := ⟨10, 8, 127⟩
def e5m2 : FpFmt := ⟨2, 5, 15⟩
def e4m3 : FpFmt := ⟨3, 4, 7⟩
def e2m1 : FpFmt := ⟨1, 2, 1⟩

/-- The exponent field of all ones. -/
def FpFmt.emax (f : FpFmt) : Nat := 2 ^ f.eb - 1
/-- The width in bits. -/
def FpFmt.width (f : FpFmt) : Nat := f.mb + f.eb + 1

/-- The finite value of a sign, an exponent field and a mantissa (R110, R111). -/
def FpFmt.value (f : FpFmt) (neg : Bool) (e m : Nat) : Fv :=
  if e = 0 then .fin neg m (1 - (f.bias : Int) - f.mb)
  else .fin neg (2 ^ f.mb + m) ((e : Int) - f.bias - f.mb)

/-- A datum of an IEEE format decoded: an exponent field of all ones is an infinity or a NaN. -/
def FpFmt.decode (f : FpFmt) (v : Nat) : Fv :=
  let m := v % 2 ^ f.mb
  let e := v / 2 ^ f.mb % 2 ^ f.eb
  let neg := v / 2 ^ (f.mb + f.eb) % 2 == 1
  if e = f.emax then (if m = 0 then .inf neg else .nan) else f.value neg e m

/-- The canonical NaN of a format (R118, R123). -/
def FpFmt.nan (f : FpFmt) : Nat := f.emax * 2 ^ f.mb + 2 ^ (f.mb - 1)

/-! ### Rounding -/

/-- Whether a magnitude whose kept part is `q`, with a remainder of `r` against `half` and more beyond it when `sticky`, is rounded up
(R121). -/
def roundUp (rm : Nat) (neg : Bool) (q r half : Nat) (sticky : Bool) : Bool :=
  match rm with
  | 0 => decide (half < r) || (r == half && (sticky || q % 2 == 1))
  | 1 => false
  | 2 => neg && (decide (0 < r) || sticky)
  | _ => !neg && (decide (0 < r) || sticky)

/-- The magnitude m × 2^e rounded to exponent field and mantissa, as one number that keeps rising past the largest finite one. With
`sticky` the true magnitude lies strictly between m × 2^e and (m + 1) × 2^e. -/
def FpFmt.roundMag (f : FpFmt) (rm : Nat) (neg : Bool) (m : Nat) (e : Int) (sticky : Bool) : Nat :=
  if m = 0 then
    -- only a remainder is left: the smallest magnitude or none
    if roundUp rm neg 0 0 1 sticky then 1 else 0
  else
    let top : Int := Nat.log2 m + e
    let emin : Int := 1 - f.bias
    let ex := max top emin
    let q : Int := ex - f.mb
    let base := (ex + f.bias).toNat * 2 ^ f.mb
    let mant :=
      if e ≥ q then m * 2 ^ (e - q).toNat
      else
        let sh := (q - e).toNat
        let k := m / 2 ^ sh
        if roundUp rm neg k (m % 2 ^ sh) (2 ^ (sh - 1)) sticky then k + 1 else k
    base + mant - 2 ^ f.mb

/-- The sign bit put in front of a magnitude. -/
def FpFmt.signed (f : FpFmt) (neg : Bool) (mag : Nat) : Nat := (if neg then 2 ^ (f.mb + f.eb) else 0) + mag

/-- A finite exact value rounded into an IEEE format; beyond the largest magnitude the rounding direction decides between infinity and the
largest finite value (R119, R122). -/
def FpFmt.roundFin (f : FpFmt) (rm : Nat) (neg : Bool) (m : Nat) (e : Int) (sticky : Bool) : Nat :=
  let mag := f.roundMag rm neg m e sticky
  let top := f.emax * 2 ^ f.mb
  let mag := if mag < top then mag
    else if rm = 0 || (rm = 2 && neg) || (rm = 3 && !neg) then top else top - 1
  f.signed neg mag

/-- A value rounded into an IEEE format, with the canonical NaN (R122, R123). -/
def FpFmt.round (f : FpFmt) (rm : Nat) : Fv → Nat
  | .nan => f.nan
  | .inf neg => f.signed neg (f.emax * 2 ^ f.mb)
  | .fin neg m e => f.roundFin rm neg m e false

/-! ### Exact operations -/

def Fv.neg : Fv → Fv
  | .nan => .nan
  | .inf n => .inf !n
  | .fin n m e => .fin (!n) m e

/-- The signed integer that a finite value is, in units of 2^e0, for e0 not above its exponent. -/
def scaledInt (neg : Bool) (m : Nat) (e e0 : Int) : Int :=
  let v : Int := (m * 2 ^ (e - e0).toNat : Nat)
  if neg then -v else v

/-- A sum; `down` tells that the result is rounded down, which makes an exact zero of unlike terms −0 (R7). -/
def Fv.add (down : Bool) : Fv → Fv → Fv
  | .nan, _ => .nan
  | _, .nan => .nan
  | .inf a, .inf b => if a = b then .inf a else .nan
  | .inf a, .fin _ _ _ => .inf a
  | .fin _ _ _, .inf b => .inf b
  | .fin na ma ea, .fin nb mb eb =>
    let e0 := min ea eb
    let v := scaledInt na ma ea e0 + scaledInt nb mb eb e0
    if v = 0 then
      if ma = 0 ∧ mb = 0 ∧ na = nb then .fin na 0 e0 else .fin down 0 e0
    else .fin (decide (v < 0)) v.natAbs e0

/-- A product; a zero takes the XOR of the signs (R7), and 0 × ∞ is NaN (R123). -/
def Fv.mul : Fv → Fv → Fv
  | .nan, _ => .nan
  | _, .nan => .nan
  | .inf a, .inf b => .inf (a != b)
  | .inf a, .fin n m _ => if m = 0 then .nan else .inf (a != n)
  | .fin n m _, .inf b => if m = 0 then .nan else .inf (n != b)
  | .fin na ma ea, .fin nb mb eb => .fin (na != nb) (ma * mb) (ea + eb)

/-- −1, 0 or 1 as a is below, equal to or above b; both numbers and no NaN. −0 equals +0. -/
def Fv.cmp : Fv → Fv → Int
  | .inf true, .inf true => 0
  | .inf false, .inf false => 0
  | .inf n, _ => if n then -1 else 1
  | _, .inf n => if n then 1 else -1
  | .fin na ma ea, .fin nb mb eb =>
    let e0 := min ea eb
    let a := scaledInt na ma ea e0
    let b := scaledInt nb mb eb e0
    if a < b then -1 else if a = b then 0 else 1
  | _, _ => 0

def Fv.isNan : Fv → Bool
  | .nan => true
  | _ => false
def Fv.isZero : Fv → Bool
  | .fin _ 0 _ => true
  | _ => false
def Fv.sign : Fv → Bool
  | .nan => false
  | .inf n => n
  | .fin n _ _ => n

/-- a < b with −0 below +0, as the minimum and maximum take it (R123). -/
def Fv.below (a b : Fv) : Bool :=
  a.cmp b == -1 || (a.isZero && b.isZero && a.sign && !b.sign)

/-- Minimum and maximum of two data of a format (R123). -/
def FpFmt.minMax (f : FpFmt) (isMax : Bool) (x y : Nat) : Nat :=
  let a := f.decode x
  let b := f.decode y
  if a.isNan || b.isNan then f.nan
  else if isMax then (if a.below b then y else x)
  else (if b.below a then y else x)

/-! ### The operations of R122 in a format -/

def FpFmt.add (f : FpFmt) (rm x y : Nat) : Nat := f.round rm (Fv.add (rm == 2) (f.decode x) (f.decode y))
def FpFmt.sub (f : FpFmt) (rm x y : Nat) : Nat := f.round rm (Fv.add (rm == 2) (f.decode x) (f.decode y).neg)
def FpFmt.mul (f : FpFmt) (rm x y : Nat) : Nat := f.round rm (Fv.mul (f.decode x) (f.decode y))
/-- a × b + c, and a × b − c, rounded once. -/
def FpFmt.fma (f : FpFmt) (rm x y z : Nat) (minus : Bool) : Nat :=
  let c := f.decode z
  f.round rm (Fv.add (rm == 2) (Fv.mul (f.decode x) (f.decode y)) (if minus then c.neg else c))

/-- a ÷ b (R124): a nonzero number by zero is an infinity; 0 ÷ 0 and ∞ ÷ ∞ are NaN. The quotient of two numbers is taken with more bits
than the format keeps and a flag for the remainder. -/
def FpFmt.divFv (f : FpFmt) (rm : Nat) : Fv → Fv → Nat
  | .nan, _ => f.nan
  | _, .nan => f.nan
  | .inf _, .inf _ => f.nan
  | .inf a, .fin n _ _ => f.round rm (.inf (a != n))
  | .fin n _ _, .inf b => f.round rm (.fin (n != b) 0 0)
  | .fin na ma ea, .fin nb mb eb =>
    if mb = 0 then (if ma = 0 then f.nan else f.round rm (.inf (na != nb)))
    else if ma = 0 then f.round rm (.fin (na != nb) 0 0)
    else
      let k := f.mb + 4 + Nat.log2 mb
      let num := ma * 2 ^ k
      f.roundFin rm (na != nb) (num / mb) (ea - eb - k) (num % mb != 0)
def FpFmt.div (f : FpFmt) (rm x y : Nat) : Nat := f.divFv rm (f.decode x) (f.decode y)

/-- The integer square root, bit by bit from bit `n − 1`. -/
def isqrtFrom (v r : Nat) : Nat → Nat
  | 0 => r
  | n + 1 =>
    let c := r + 2 ^ n
    isqrtFrom v (if c * c ≤ v then c else r) n
def isqrt (v : Nat) : Nat := isqrtFrom v 0 (Nat.log2 v / 2 + 1)

/-- √a (R124). -/
def FpFmt.sqrt (f : FpFmt) (rm x : Nat) : Nat :=
  match f.decode x with
  | .nan => f.nan
  | .inf n => if n then f.nan else x
  | .fin n m e =>
    if m = 0 then x
    else if n then f.nan
    else
      let k := 2 * (f.mb + 4) + (if e % 2 = 0 then 0 else 1)
      let v := m * 2 ^ k
      let r := isqrt v
      f.roundFin rm false r ((e - k) / 2) (r * r != v)

/-- 1 ÷ a (R124). -/
def FpFmt.rcp (f : FpFmt) (rm x : Nat) : Nat := f.divFv rm (.fin false 1 0) (f.decode x)

/-- 1 ÷ √a (R124): the root of 2^2k ÷ m. -/
def FpFmt.rsqrt (f : FpFmt) (rm x : Nat) : Nat :=
  match f.decode x with
  | .nan => f.nan
  | .inf n => if n then f.nan else f.round rm (.fin false 0 0)
  | .fin n m e =>
    if m = 0 then f.round rm (.inf n)
    else if n then f.nan
    else
      let m := if e % 2 = 0 then m else 2 * m
      let e := if e % 2 = 0 then e else e - 1
      let k := f.mb + 4 + Nat.log2 m
      let r := isqrt (2 ^ (2 * k) / m)
      f.roundFin rm false r (-(e / 2) - k) (m * r * r != 2 ^ (2 * k))

/-! ### Special functions (R124, R201)

Fixed-point numbers have `p` = 320 fraction bits. Every term is cut, and fewer than 2^20 units of 2^−p are lost in all. A result that is
not exact is rounded as a magnitude strictly above the cut one, so it is the correct rounding unless the exact result lies within
2^−300 of a rounding boundary (log 22). -/

/-- ln 2 = Σ 1 ÷ (k × 2^k) in fixed point; each term is cut, so the sum is low by fewer than p + 1 units. -/
def ln2Fix (p : Nat) : Nat := (List.range p).foldl (fun acc k => acc + 2 ^ p / ((k + 1) * 2 ^ (k + 1))) 0

/-- Σ x^k ÷ k! in fixed point for 0 ≤ x < 1, from term k on, `n` terms: low by fewer than 3 × n units. -/
def expFixFrom (p x term k : Nat) : Nat → Nat
  | 0 => 0
  | n + 1 => term + expFixFrom p x (term * x / 2 ^ p / (k + 1)) (k + 1) n

/-- Σ z^(2k+1) ÷ (2k + 1) in fixed point, `n` terms: low by fewer than 3 × n units. -/
def atanhFixFrom (p z2 pw k : Nat) : Nat → Nat
  | 0 => 0
  | n + 1 => pw / (2 * k + 1) + atanhFixFrom p z2 (pw * z2 / 2 ^ p) (k + 1) n

/-- An inexact magnitude, cut at lo × 2^e, rounded (log 22). -/
def FpFmt.roundEnc (f : FpFmt) (rm : Nat) (neg : Bool) (lo : Nat) (e : Int) : Nat := f.roundFin rm neg lo e true

/-- The fraction bits that the special functions are computed with (log 22). -/
def specBits : Nat := 320

/-- 2^n × e^r for 0 ≤ r < 1 in fixed point, rounded. -/
def FpFmt.expScaled (f : FpFmt) (rm : Nat) (n : Int) (r : Nat) : Nat :=
  f.roundEnc rm false (expFixFrom specBits r (2 ^ specBits) 0 100) (n - specBits)

/-- 2^x (R124). An integer gives an exact power. -/
def FpFmt.exp2 (f : FpFmt) (rm x : Nat) : Nat :=
  match f.decode x with
  | .nan => f.nan
  | .inf n => if n then f.round rm (.fin false 0 0) else f.round rm (.inf false)
  | .fin neg m e =>
    if m = 0 then f.round rm (.fin false 1 0)
    else if 10 < Nat.log2 m + e then
      -- beyond every exponent of the format
      f.roundEnc rm false 1 (if neg then -1000 else 1000)
    else
      let v : Int := if e ≥ 0 then scaledInt neg m e 0 * 2 ^ specBits
        else scaledInt neg m e (min e (-specBits)) / 2 ^ ((-specBits : Int) - min e (-specBits)).toNat
      let n := v / 2 ^ specBits
      let r := (v % 2 ^ specBits).toNat
      if r = 0 then f.round rm (.fin false 1 n)
      else f.expScaled rm n (r * ln2Fix specBits / 2 ^ specBits)

/-- e^x (R124). -/
def FpFmt.exp (f : FpFmt) (rm x : Nat) : Nat :=
  match f.decode x with
  | .nan => f.nan
  | .inf n => if n then f.round rm (.fin false 0 0) else f.round rm (.inf false)
  | .fin neg m e =>
    if m = 0 then f.round rm (.fin false 1 0)
    else if 10 < Nat.log2 m + e then f.roundEnc rm false 1 (if neg then -1000 else 1000)
    else
      let v : Int := if e ≥ 0 then scaledInt neg m e 0 * 2 ^ specBits
        else scaledInt neg m e (min e (-specBits)) / 2 ^ ((-specBits : Int) - min e (-specBits)).toNat
      let l : Int := ln2Fix specBits
      let n := v / l
      f.expScaled rm n (v % l).toNat

/-- log2 x (R124): a power of two gives an exact integer. -/
def FpFmt.log2 (f : FpFmt) (rm x : Nat) : Nat :=
  match f.decode x with
  | .nan => f.nan
  | .inf n => if n then f.nan else x
  | .fin neg m e =>
    if m = 0 then f.round rm (.inf true)
    else if neg then f.nan
    else
      let k := Nat.log2 m
      let n : Int := k + e
      if m = 2 ^ k then f.round rm (.fin (decide (n < 0)) n.natAbs 0)
      else
        let p := specBits
        let z := (m - 2 ^ k) * 2 ^ p / (m + 2 ^ k)
        let ln := 2 * atanhFixFrom p (z * z / 2 ^ p) z 0 110
        let v : Int := n * 2 ^ p + (ln * 2 ^ p / ln2Fix p : Nat)
        if v < 0 then f.roundEnc rm true (-v - 1).toNat (-p) else f.roundEnc rm false v.toNat (-p)

/-! ### Conversions (R119) -/

/-- A finite value rounded to an integer in a mode (R119). -/
def intRound (rm : Nat) (neg : Bool) (m : Nat) (e : Int) : Int :=
  let mag := if e ≥ 0 then m * 2 ^ e.toNat
    else
      let sh := (-e).toNat
      let q := m / 2 ^ sh
      if roundUp rm neg q (m % 2 ^ sh) (2 ^ (sh - 1)) false then q + 1 else q
  if neg then -(mag : Int) else mag

def clampInt (lo hi v : Int) : Int := if v < lo then lo else if hi < v then hi else v

/-- A value converted to an integer of a range: rounded, clamped, 0 for a NaN (R119, R195, R199). A magnitude far beyond every range is
clamped without being expanded. -/
def Fv.toIntClamp (rm : Nat) (lo hi : Int) : Fv → Int
  | .nan => 0
  | .inf n => if n then lo else hi
  | .fin n m e =>
    if m ≠ 0 ∧ 80 < Nat.log2 m + e then (if n then lo else hi)
    else if (m : Nat) = 0 then 0
    else if Nat.log2 m + e < -4 then clampInt lo hi (intRound rm n 1 (-4))
    else clampInt lo hi (intRound rm n m e)

/-- An integer as an exact value. -/
def Fv.ofInt (v : Int) : Fv := .fin (decide (v < 0)) v.natAbs 0

/-- The low `w` bits of an integer. -/
def intBits (w : Nat) (v : Int) : Nat := (v % 2 ^ w).toNat

/-- A value encoded in a saturating format of R111 (FP8 E4M3 with largest code 0x7E, FP4 E2M1 with 7): beyond the largest magnitude the
largest, an infinity likewise, and `nan` for a NaN (R119). -/
def FpFmt.encodeSat (f : FpFmt) (top nan : Nat) (rm : Nat) : Fv → Nat
  | .nan => nan
  | .inf n => f.signed n top
  | .fin n m e => f.signed n (min top (f.roundMag rm n m e false))

end Sys2Proof.Machine
end

