-- ==== Sys2Proof/Machine/Access.lean ====
section
/-!
DEFINITION. Accesses of slots to memory (R88 to R92, R165 to R169, R172 to R174): how one is checked, when it issues, and how it takes its places.

A plain, acquire or release access takes its places in the step that issues it when every sector it needs is at hand; otherwise it parks its
slot until a sector fill (R80) or a remote answer (R99) lets it go on. A relaxed access leaves its slot and takes its place in a later step
(`MEMORY_REPLY`, `STORE_COMPLETION`), at a cycle that is a free value (log 5), so that relaxed accesses take places in any order (R89).
-/

namespace Sys2Proof.Machine

/-! ### Places -/

/-- A part's memory is at hand: SRAM, a valid sector of its home slice, or DRAM when the slice cannot take its line. -/
def State.atHand (s : State) (p : Part) : Bool :=
  match p.home with
  | none => true
  | some c =>
    let core := coreAt (linOf p.gpa) c
    s.l2Valid core p.gpa || !s.l2HasRoom core p.gpa

/-- A part does not find what it needs at hand, and it does not write a whole sector (R80). -/
def State.needsFill (s : State) (p : Part) : Bool := p.size != 128 && !s.atHand p

def State.partLoc (s : State) (p : Part) : Nat := s.dataLoc p.gpa p.home

/-- A part's access uses its line in the home slice (R80). -/
def State.usePart (s : State) (world : Nat) (p : Part) : State :=
  match p.home with
  | none => s
  | some c => s.l2Used (coreAt (linOf p.gpa) c) p.gpa world

/-- A read of a part meets uncorrectable data (R355). -/
def State.readBad (s : State) (p : Part) : Bool := s.badIn (s.partLoc p) p.size

/-- A write of a part meets uncorrectable data: it reads its block first unless it covers it, and its sector in the DRAM slice (R354). -/
def State.writeBad (s : State) (p : Part) : Bool :=
  let loc := s.partLoc p
  match p.home with
  | none => p.size != 16 && s.badBlock loc
  | some _ => p.size != 128 && setHas s.bad (unitOf loc)

/-- What a read of a part reads, or what a write of it reads first: the blocks that a write of SRAM touches (R308, R354). -/
def State.unitRun (s : State) (write : Bool) (p : Part) : Nat × Nat :=
  let loc := s.partLoc p
  if write && p.home.isNone then (loc / 16 * 16, (loc % 16 + p.size + 15) / 16 * 16) else (loc, p.size)

/-- A part written under a key. A whole sector is made valid in its home slice first (R80). -/
def State.writePart (s : State) (key world : Nat) (p : Part) (v : Nat) : State :=
  let s := s.ensure p.gpa p.hk p.hm p.home world
  ((s.readHalf (s.partLoc p) p.size p.va).store key (s.partLoc p) (natBytes v p.size)).l2Dirty p.gpa p.home

/-- The new value of an atomic of R173 on words of `n` bits. -/
def atomicNew (aop n old v expect : Nat) : Nat :=
  let so := (BitVec.ofNat n old).toInt
  let sv := (BitVec.ofNat n v).toInt
  match aop with
  | 0 => (old + v) % 2 ^ n
  | 1 => old &&& v
  | 2 => old ||| v
  | 3 => old ^^^ v
  | 4 => if sv < so then v else old
  | 5 => if so < sv then v else old
  | 6 => if v < old then v else old
  | 7 => if old < v then v else old
  | 8 => v
  | 9 => if old = expect then v else old
  | 10 => fp32.add 0 old v
  | 11 => fp32.minMax false old v
  | _ => fp32.minMax true old v

/-- A counter of VBUCK raised by the number of lanes that name it (R205). -/
def buckAdd (old add : Nat) : Nat := (old + add) % 2 ^ 32

/-- The result of an access at its place: the state, and the address of a part found uncorrectable. -/
structure PartRes where
  state : State
  kind : AccKind
  value : Option Word
  bad : Bool

/-- One part takes its place (R166, R167, R173, R190, R205). -/
def State.doPart (s : State) (a : Access) (p : Part) : PartRes :=
  let key := s.key (slotLin a.slot) a.world
  let loc := s.partLoc p
  match a.kind with
  | .load z =>
    if s.readBad p then ⟨s, a.kind, none, true⟩
    else ⟨(s.correct loc p.size p.va 1).usePart a.world p, a.kind, some (loadValue z (s.readAs key loc p.size)), false⟩
  | .store | .vstore =>
    if s.writeBad p then ⟨s, a.kind, none, true⟩ else ⟨s.writePart key a.world p p.data, a.kind, none, false⟩
  | .atomic aop v expect =>
    if s.writeBad p then ⟨s, a.kind, none, true⟩
    else
      let n := 8 * p.size
      let old := s.readAs key loc p.size
      let new := atomicNew aop n old (v.toNat % 2 ^ n) (expect.toNat % 2 ^ n)
      let s := (s.correct loc p.size p.va 1).usePart a.world p
      let s := if aop = 9 ∧ old ≠ expect.toNat % 2 ^ n then s else s.writePart key a.world p new
      ⟨s, a.kind, some (BitVec.ofNat 64 old), false⟩
  | .vload w got =>
    if s.readBad p then ⟨s, a.kind, none, true⟩
    else ⟨(s.correct loc p.size p.va 1).usePart a.world p, .vload w ((p.lane, s.readAs key loc p.size) :: got), none, false⟩
  | .vbuck w b lanes olds =>
    if s.writeBad p then ⟨s, a.kind, none, true⟩
    else
      let old := s.readAs key loc p.size
      let s := s.correct loc p.size p.va 1
      ⟨s.writePart key a.world p (buckAdd old p.data), .vbuck w b lanes ((p.lane, old) :: olds), none, false⟩
  | k => ⟨s, k, none, false⟩

/-- The lanes that VBUCK writes: the old count of the lane's bucket plus its rank, all ones beyond the last bucket (R205). -/
def buckLane (bound : Nat) (olds : List (Nat × Nat)) (b rank : Nat) : BitVec 32 :=
  if bound ≤ b then BitVec.allOnes 32
  else BitVec.ofNat 32 (((olds.find? (·.1 == b)).map (·.2)).getD 0 + rank)

/-- The list of accesses in flight with an entry removed, or replaced. An access that completes in the step that issues it has number 0 and
stands on no list. -/
def State.dropAccess (s : State) (a : Access) : State :=
  if a.id = 0 then s else { s with accesses := s.accesses.filter fun b => b.id != a.id }
def State.noteAccess (s : State) (a : Access) : State :=
  if a.id = 0 then s else { s with accesses := s.accesses.map fun b => if b.id == a.id then a else b }

/-- An access that has taken all its places: its destination is written, and a slot parked on it goes on (R168). -/
def State.endAccess (s : State) (a : Access) (kind : AccKind) (v : Option Word) : State :=
  let s := s.dropAccess a
  let s := match kind with
    | .vload w got =>
      s.updSlot a.slot fun sl =>
        sl.setW w (ofLanes fun i =>
          match got.find? (·.1 == i) with
          | some (_, n) => BitVec.ofNat 32 n
          | none => laneOf (sl.w w) i)
    | .vbuck w b lanes olds =>
      s.updSlot a.slot fun sl =>
        sl.setW w (ofLanes fun i =>
          match lanes.find? (·.1 == i) with
          | some (_, k, rank) => buckLane b olds k rank
          | none => laneOf (sl.w w) i)
    | _ =>
      match v with
      | some v =>
        if a.relaxed then (if a.reg = 0 then s else s.replyAwaited a.slot a.entry a.id v)
        else s.setRegOf a.slot a.reg v
      | none => s
  if a.relaxed then s else s.retireOf a.slot 4

/-- The part that a failing access reports: of a vector access the lowest lane whose data is uncorrectable (R191). -/
def State.worstPart (s : State) (a : Access) (p : Part) : Part :=
  let bad := match a.kind with
    | .vload _ _ => s.readBad
    | .vstore => s.writeBad
    | _ => fun _ => false
  (a.parts.filter bad).foldl (fun q r => if r.lane < q.lane then r else q) p

/-- A relaxed access that is a load: it alone raises its fault elsewhere (R169, R350). -/
def AccKind.isLoad : AccKind → Bool
  | .load _ => true
  | _ => false

/-- An access meets uncorrectable data: a relaxed load holds the fault for the next reader of its register (R169); any other raises 0x09 at
its instruction (R355). A relaxed store or atomic was checked where it issued; a word that has gone bad since is recorded, and the access has no
effect (log 43). -/
def State.badAccess (s : State) (a : Access) (p : Part) : State :=
  let s := s.dropAccess a
  let blk := s.unitRun (match a.kind with
    | .load _ | .vload _ _ => false
    | _ => true) p
  let s := s.dataRecAt a.slot blk.1 blk.2 p.va a.pc (if a.filled then 4 else 1)
  let v := BitVec.ofNat 64 p.va
  if a.relaxed then
    let s := if a.kind.isLoad then s.updSlot a.slot fun sl => { sl with rfaults := sl.rfaults ++ [(a.reg, v)] } else s
    if a.reg = 0 then s else s.abandonAwaited a.slot a.entry a.id
  else s.waitOf a.slot (.trapping ⟨0x09, v, false⟩)

/-- The access waits for the fill of a part's sector: it joins one in progress or starts one (R80). -/
def State.startFill (s : State) (a : Access) (p : Part) : State :=
  let core := coreAt (linOf p.gpa) (p.home.getD 0)
  let g := p.gpa / 128 * 128
  match s.fills.find? fun f => f.core == core && f.gpa == g with
  | some f => s.noteAccess { a with fill := f.id, filled := true }
  | none =>
    let (id, s) := s.newId
    let (due, s) := s.laterCycle
    let f : Fill := ⟨id, core, g, p.hk, p.hm, due⟩
    let s := { s with fills := s.fills ++ [f] }
    s.noteAccess { a with fill := id, filled := true }

/-- An access takes the places of its parts in order as far as their sectors are at hand (R168). -/
def State.runAccess (s : State) (a : Access) : Nat → State
  | 0 => s
  | n + 1 =>
    match a.parts with
    | [] => s.endAccess a a.kind none
    | p :: ps =>
      if s.needsFill p then s.startFill a p
      else
        let r := s.doPart a p
        if r.bad then r.state.badAccess a (s.worstPart a p)
        else if ps.isEmpty then r.state.endAccess a r.kind r.value
        else
          (r.state.noteAccess { a with parts := ps, kind := r.kind }).runAccess { a with parts := ps, kind := r.kind } n

/-! ### Issue -/

/-- The bank of an SRAM row (R68): 4 × part + A[8:7]. -/
def bankOf (row : Nat) : Nat := 4 * (row / 4096) + row % 4

/-- A slot's request to rows of its creel's SRAM joins those of this cycle (R68). -/
def State.noteRows (s : State) (parts : List Part) : State :=
  let rows := (parts.filter fun p => p.home.isNone && isSram (lpaOf p.gpa)).map fun p => lpaOf p.gpa / 128
  if rows.isEmpty then s
  else s.updCreel s.lin fun c =>
    { c with rowsAt := s.cycle, rows := (if c.rowsAt = s.cycle then c.rows else []) ++ rows }

/-- How many requests of this cycle, to other rows of the bank, stand ahead of one (R68). -/
def State.bankAhead (s : State) (gpa : Nat) : Nat :=
  let c := s.creel (linOf gpa)
  let row := lpaOf gpa / 128
  if c.rowsAt = s.cycle then
    ((c.rows.takeWhile (· != row)).eraseDups.filter fun r => bankOf r == bankOf row).length
  else 0

/-- The cycle at which a relaxed access of one part takes its place: on creel SRAM before its slot's next turn, later by the requests ahead of
it in its bank (R68, R168), and a later cycle of no stated bound in the DRAM slice (log 5). -/
def State.relaxedDue (s : State) (p : Part) : Nat × State :=
  let (n, s) := s.draw
  (s.cycle + 1 + (if p.home.isNone then n % (15 + s.bankAhead p.gpa) else n), s)

/-- A new access of the slot whose turn it is. One that overlaps an access of the slot still in flight waits for it (R90), a release waits for
all of them (R89), and a ninth relaxed access waits for one of the eight (R90); it issues at a later turn. A relaxed load or atomic
clears the presence bit of its destination (R168, R174) and its slot goes on, and a relaxed store or atomic of uncorrectable data raises 0x09
here (R169, R355); any other access parks its slot. -/
def State.issueAccess (s : State) (kind : AccKind) (parts : List Part) (reg : Nat) (relaxed release commut loads : Bool) :
    State :=
  if s.overlaps parts commut || (release && !(s.outstanding s.cur).isEmpty) then s.wait .hold
  else if relaxed && 8 ≤ s.relaxedOut s.cur then s
  else
    let a : Access := ⟨0, s.cur, kind, parts, reg, s.entryOf s.cur reg, relaxed, commut, 0, 0, false, s.me.world.toNat, s.me.asid.toNat, false,
      s.me.pc, s.cycle⟩
    match parts, relaxed with
    | [p], true =>
      if !kind.isLoad && s.writeBad p then s.badAccess { a with relaxed := false } p
      else
        let (id, s) := s.newId
        let (due, s) := s.relaxedDue p
        let s := { s.noteRows parts with accesses := s.accesses ++ [{ a with id := id, due := due }] }
        (if loads then s.awaitReg s.cur reg id else s).retire 4
    | _, _ =>
      let s := s.noteRows parts
      if parts.all s.atHand then s.runAccess a (parts.length + 1)
      else
        let (id, s) := s.newId
        let a := { a with id := id }
        ({ s with accesses := s.accesses ++ [a] }.park (.access id)).runAccess a (parts.length + 1)

/-- One checked part. -/
def mkPart (va size lane data : Nat) (p : Place) : Part := ⟨va, p.gpa, p.home, p.hk, p.hm, p.global, p.bits, size, lane, data⟩

/-- Rows 3 to 8 of R165 for a scalar local access; then the access goes on with its part. A miss parks the slot for a walk (R76). -/
def State.withLocal (s : State) (va size : Nat) (need : Need) (sram : Bool) (go : Place → State → State) : State :=
  match s.checkLocal s.cur va size size need sram with
  | (s, .ok p) => go p s
  | (s, .trap t) => s.trap t
  | (s, .miss) => s.parkWalk s.cur false va

/-! ### LD and ST (R166, R167) -/

def execLd (t b : BitVec 7) (z : BitVec 3) (o : BitVec 7) (r : BitVec 2) (s : State) : Host.Outcome State Fault Refusal :=
  done (issue [t, b] [b] (fun s =>
    let n := sizeOf_ z
    let va := memAddr (s.x b.toNat) o n
    s.withLocal va n .read false fun p s =>
      s.issueAccess (.load z.toNat) [mkPart va n 0 0 p] t.toNat (r == 1#2) false false true) s)

def execSt (t b : BitVec 7) (z : BitVec 3) (o : BitVec 7) (r : BitVec 2) (s : State) : Host.Outcome State Fault Refusal :=
  done (issue [t, b] [t, b] (fun s =>
    let n := sizeOf_ z
    let va := memAddr (s.x b.toNat) o n
    s.withLocal va n .write false fun p s =>
      s.issueAccess .store [mkPart va n 0 (s.x t.toNat).toNat p] 0 (r == 1#2) (r == 2#2) false false) s)

/-! ### Atomics (R173, R174) -/

/-- An atomic on a word of `n` bytes. ACAS reads x(d) as the expected value. -/
def opAtomic (aop n : Nat) (d a v : BitVec 7) (c : Bool) (s : State) : Host.Outcome State Fault Refusal :=
  done (issue [d, a, v] (if aop = 9 then [d, a, v] else [a, v]) (fun s =>
    let va := (s.x a.toNat).toNat
    s.withLocal va n .both false fun p s =>
      s.issueAccess (.atomic aop (s.x v.toNat) (s.x d.toNat)) [mkPart va n 0 0 p] d.toNat c false c true) s)

def execAaddD (d a v : BitVec 7) (c : BitVec 1) := opAtomic 0 8 d a v (c == 1#1)
def execAandD (d a v : BitVec 7) (c : BitVec 1) := opAtomic 1 8 d a v (c == 1#1)
def execAorD (d a v : BitVec 7) (c : BitVec 1) := opAtomic 2 8 d a v (c == 1#1)
def execAxorD (d a v : BitVec 7) (c : BitVec 1) := opAtomic 3 8 d a v (c == 1#1)
def execAminD (d a v : BitVec 7) (c : BitVec 1) := opAtomic 4 8 d a v (c == 1#1)
def execAmaxD (d a v : BitVec 7) (c : BitVec 1) := opAtomic 5 8 d a v (c == 1#1)
def execAminuD (d a v : BitVec 7) (c : BitVec 1) := opAtomic 6 8 d a v (c == 1#1)
def execAmaxuD (d a v : BitVec 7) (c : BitVec 1) := opAtomic 7 8 d a v (c == 1#1)
def execAswapD (d a v : BitVec 7) := opAtomic 8 8 d a v false
def execAcasD (d a v : BitVec 7) := opAtomic 9 8 d a v false
def execAaddW (d a v : BitVec 7) (c : BitVec 1) := opAtomic 0 4 d a v (c == 1#1)
def execAandW (d a v : BitVec 7) (c : BitVec 1) := opAtomic 1 4 d a v (c == 1#1)
def execAorW (d a v : BitVec 7) (c : BitVec 1) := opAtomic 2 4 d a v (c == 1#1)
def execAxorW (d a v : BitVec 7) (c : BitVec 1) := opAtomic 3 4 d a v (c == 1#1)
def execAminW (d a v : BitVec 7) (c : BitVec 1) := opAtomic 4 4 d a v (c == 1#1)
def execAmaxW (d a v : BitVec 7) (c : BitVec 1) := opAtomic 5 4 d a v (c == 1#1)
def execAminuW (d a v : BitVec 7) (c : BitVec 1) := opAtomic 6 4 d a v (c == 1#1)
def execAmaxuW (d a v : BitVec 7) (c : BitVec 1) := opAtomic 7 4 d a v (c == 1#1)
def execAswapW (d a v : BitVec 7) := opAtomic 8 4 d a v false
def execAcasW (d a v : BitVec 7) := opAtomic 9 4 d a v false
def execAfadd (d a v : BitVec 7) (c : BitVec 1) := opAtomic 10 4 d a v (c == 1#1)
def execAfmin (d a v : BitVec 7) (c : BitVec 1) := opAtomic 11 4 d a v (c == 1#1)
def execAfmax (d a v : BitVec 7) (c : BitVec 1) := opAtomic 12 4 d a v (c == 1#1)

/-! ### Full/empty forms (R170, R171) -/

/-- An LSYNC form: it succeeds at its place if its condition holds and joins the word's wait list otherwise. Its access is checked as a
load or store that needs creel SRAM; an uncorrectable word raises 0x09 at once (R357). -/
def opLsync (form : Nat) (need : Need) (reads release : Bool) (t b o : BitVec 7) (s : State) :
    Host.Outcome State Fault Refusal :=
  done (issue (if form = 4 then [b] else [t, b]) (if reads then [t, b] else [b]) (fun s =>
    let va := memAddr (s.x b.toNat) o 8
    s.withLocal va 8 need true fun p s =>
      let part := mkPart va 8 0 0 p
      let v := s.x t.toNat
      let writes := form = 2 ∨ form = 3
      if s.overlaps [part] false || (release && !(s.outstanding s.cur).isEmpty) then s.wait .hold
      else if writes ∧ s.badBlock p.gpa then
        (s.dataRec s.cur (p.gpa / 16 * 16) 16 va).trapWith 0x09 (BitVec.ofNat 64 va)
      else if s.badIn p.gpa 8 then (s.dataRec s.cur p.gpa 8 va).trapWith 0x09 (BitVec.ofNat 64 va)
      else
        let s := s.noteRows [part]
        if lsyncReady form (s.fe p.gpa) then
          let s := s.correct p.gpa 8 va 1
          let s := if form = 2 ∨ form = 3 then s.readHalf p.gpa 8 va else s
          let full := s.fe p.gpa
          let s := (s.lsyncEffect s.cur form p.gpa t.toNat v).retire 4
          if s.fe p.gpa == full then s else s.wake p.gpa
        else
          (s.park .lsync).updCreel s.lin fun c =>
            { c with lwaits := c.lwaits ++ [⟨s.cur, form, p.gpa, va, p.bits, t.toNat, v⟩] }) s)

def execLdf (t b o : BitVec 7) (_r : BitVec 2) := opLsync 0 .read false false t b o
def execLdfe (t b o : BitVec 7) (_r : BitVec 2) := opLsync 1 .both false false t b o
def execStfe (t b o : BitVec 7) (r : BitVec 2) := opLsync 2 .both true (r == 2#2) t b o
def execStf (t b o : BitVec 7) (r : BitVec 2) := opLsync 3 .write true (r == 2#2) t b o
def execSete (b o : BitVec 7) (r : BitVec 2) := opLsync 4 .write false (r == 2#2) 0 b o

/-! ### Fences (R93, R175) -/

/-- R93: FENCE waits until every access that the slot issued earlier has completed; events stay pending (R373). -/
def execFence (s : State) : Host.Outcome State Fault Refusal :=
  done (issueFence (fun s => if (s.outstanding s.cur).isEmpty then s.retire 4 else s.wait .hold) s)

/-- The instruction cache lines of a core's strands and of its creel are discarded (R93, R48). -/
def State.dropFetched (s : State) (core : Nat) : State :=
  (s.updCore core fun c => { c with icache := [] }).updCreel (core / 32) fun c => { c with icache := [] }

/-- R93: FENCE.I has FENCE's effect, and every later fetch for the slot reads memory after it. In a weave it acts like a conditional branch
to the next address (R46). -/
def execFenceI (s : State) : Host.Outcome State Fault Refusal :=
  done (issueFence (fun s =>
    if (s.outstanding s.cur).isEmpty then
      let s := s.dropFetched (slotCore s.cur)
      if s.me.member = .attached then s.branchTo (s.me.pc + 4) else s.retire 4
    else s.wait .hold) s)

/-! ### Replies and completions -/

/-- A reply is due. -/
def Access.ready (a : Access) (s : State) : Bool := a.fill == 0 && decide (a.due ≤ s.cycle)

/-- R168: a store takes its place. -/
def isStore : AccKind → Bool
  | .store | .vstore => true
  | _ => false

/-- R80: a sector fill completes into its home slice; the accesses that wait for it go on. -/
def execSectorFill (id : Nat) (s : State) : Host.Outcome State Fault Refusal :=
  done (match s.fills.find? (·.id == id) with
    | none => s
    | some f =>
      let s := { s with fills := s.fills.filter (·.id != id) }
      let s := s.l2Ensure f.core f.gpa f.hk f.hm (((s.accesses.find? (·.fill == id)).map (·.world)).getD 0)
      { s with accesses := s.accesses.map fun a => if a.fill == id then { a with fill := 0 } else a })

/-- R168: a store that has left its slot takes its places; the slot of a plain or release store goes on. -/
def execStoreCompletion (id : Nat) (s : State) : Host.Outcome State Fault Refusal :=
  done (match s.accesses.find? (·.id == id) with
    | none => s
    | some a => if isStore a.kind && a.ready s then s.runAccess a (a.parts.length + 1) else s)

end Sys2Proof.Machine
end

