-- ==== Sys2Proof/Machine/Engine.lean ====
section
/-!
DEFINITION. What the engines share: commands acting for their slots (R347), tickets (R332), pending failures (R333, R350), engine faults
(R335), and the reads and writes that engines make.
-/

namespace Sys2Proof.Machine

/-- Slot `id` with the world, ASID and mode that a command took at issue, while `f` runs (R347). -/
def State.acting {α : Type} (s : State) (id : Nat) (w : BitVec 6) (a : BitVec 9) (m : Bool) (f : State → State × α) :
    State × α :=
  let old := s.slot id
  let (s, r) := f (s.updSlot id fun sl => { sl with world := w, asid := a, mode := m })
  (s.updSlot id fun sl => { sl with world := old.world, asid := old.asid, mode := old.mode }, r)

/-! ### Tickets and failures -/

/-- The next ticket of a slot for a command of an engine (R332). -/
def Slot.ticket (sl : Slot) (engine fn : Nat) : Nat := sl.serial * 2 ^ 16 + engine * 2 ^ 12 + fn
def Slot.takeTicket (sl : Slot) : Slot := { sl with serial := sl.serial + 1 }
def ticketEngine (t : Nat) : Nat := nbits t 15 12

/-- The pending failure of the lowest SERIAL among those that `sel` covers (R333). -/
def Slot.firstFailure (sl : Slot) (sel : Failure → Bool) : Option Failure :=
  (sl.failures.filter sel).foldl (fun acc f =>
    match acc with
    | some g => if f.ticket < g.ticket then some f else acc
    | none => some f) none

/-- Raise the failure that a sync covers, or go on (R333, R350). -/
def State.raiseFailure (s : State) (sel : Failure → Bool) (go : State → State) : State :=
  match s.me.firstFailure sel with
  | some f =>
    (s.updMe fun sl => { sl with failures := sl.failures.erase f }).trap ⟨f.cause, BitVec.ofNat 64 f.ticket, true⟩
  | none => go s

/-- The record of a failure that a termination discards: a Gaussian failure has none yet (R328). -/
def State.discardRec (s : State) (id : Nat) (f : Failure) : State :=
  if f.cause = 0x10 then s else s.slotRec id 0x03 0x2 f.cause 0 0 f.ticket f.pc 0

/-- A command fails: the failure becomes pending in its slot (R333), or is recorded when the slot is being terminated (R328). A slot holds at most
eight; a ninth is not held and is recorded as a discarded one is (log 46). -/
def State.addFailure (s : State) (id : Nat) (f : Failure) : State :=
  if (s.slot id).terminating || decide (8 ≤ (s.slot id).failures.length) then s.discardRec id f
  else s.updSlot id fun sl => { sl with failures := sl.failures ++ [f] }

/-! ### Engine faults -/

/-- Why an engine stops a command: DETAIL of R335, the virtual address and the global physical address. -/
structure EFault where
  detail : Nat
  va : Nat
  gpa : Nat
  deriving DecidableEq, Repr

/-- An engine fault's record, of class 0x4 for uncorrectable data, whose PADDR is the word or sector, and which ends LSYNC waits on it (R355,
R357), and of class 0x2 otherwise (R337). -/
def State.engineRec (s : State) (id source ticket pc : Nat) (e : EFault) : State :=
  if e.detail = 5 then (s.slotRec id source 0x4 0x10 e.va (unitOf e.gpa) ticket pc 5).foundBad (unitOf e.gpa) 8
  else s.slotRec id source 0x2 0x10 e.va e.gpa ticket pc e.detail

/-- What keeps a command from its next step: an engine fault, or a walk that it waits for (R76). -/
inductive EStop where
  | fault (e : EFault)
  | walk
  deriving DecidableEq, Repr

/-- The checks of an engine's access of `n` bytes in one page, with their DETAIL (R73, R86, R217, R220, R335). The command asks for walks under
the number `req`. -/
def State.engineCheck (s : State) (req id va n : Nat) (need : Need) (sram : Bool) : State × Except EStop Place :=
  if 2 ^ 47 ≤ va then (s, .error (.fault ⟨1, va, 0⟩))
  else
    match s.unitXlate req id false va with
    | (s, .wait) => (s, .error .walk)
    | (s, .fault (.cause _)) => (s, .error (.fault ⟨1, va, 0⟩))
    | (s, .fault (.bad g _)) => (s, .error (.fault ⟨5, va, g⟩))
    | (s, .ok e) =>
      let lin := slotLin id
      let p := e.phys lin va
      let lpa := lpaOf p.gpa
      let home := if isDram lpa then s.homeOf lin p.hk p.home lpa else none
      if isDram lpa && home.isNone then (s, .error (.fault ⟨1, va, p.gpa⟩))
      else if !permitted e need (s.slot id).mode then (s, .error (.fault ⟨2, va, p.gpa⟩))
      else if sram && !isSram lpa then (s, .error (.fault ⟨7, va, p.gpa⟩))
      else if (need == .write || need == .both) && isSystemArea lpa then (s, .error (.fault ⟨3, va, p.gpa⟩))
      else if s.partitionRefuses id p.gpa n then 
        (let a := s.firstRefused id va p.gpa n
         (s, .error (.fault ⟨3, a, p.gpa + (a - va)⟩)))
      else (s, .ok (p.place home))

/-- The spans of an engine's access of `n` bytes. -/
def State.engineSpans (s : State) (req id va n : Nat) (need : Need) (sram : Bool) : Nat → State × Except EStop (List Span)
  | 0 => (s, .ok [])
  | fuel + 1 =>
    if n = 0 then (s, .ok [])
    else
      let piece := min n (2 ^ 16 - va % 2 ^ 16)
      match s.engineCheck req id va piece need sram with
      | (s, .error e) => (s, .error e)
      | (s, .ok p) =>
        match s.engineSpans req id (va + piece) (n - piece) need sram fuel with
        | (s, .ok ps) => (s, .ok (⟨va, piece, p⟩ :: ps))
        | (s, .error e) => (s, .error e)

/-! ### Bytes -/

/-- The bytes of a location as a key reads them. -/
def State.bytesAs (s : State) (key loc n : Nat) : List Byte := (List.range n).map fun k => s.byteAs key (loc + k)

/-- The first uncorrectable byte of a run, as an offset. -/
def State.firstBad (s : State) (loc n : Nat) : Option Nat := (List.range n).find? fun k => setHas s.bad (unitOf (loc + k))

/-- A write of a run of SRAM reads, for a block that it covers in part, an uncorrectable word (R354): that block. -/
def State.edgeBad (s : State) (gpa n : Nat) : Option Nat :=
  (List.range ((gpa % 16 + n + 15) / 16)).findSome? fun k =>
    let b := gpa / 16 * 16 + 16 * k
    if (b < gpa || gpa + n < b + 16) && s.badBlock b then some b else none

/-- The home of an address in a page: its own line's under a hash mask, the page's core otherwise (R79). -/
def State.homeAt (s : State) (lin : Nat) (p : Place) (g : Nat) : Option Nat :=
  if p.hk then s.homeOf lin true p.hm (lpaOf g) else p.home

/-- The sectors of a run of bytes made valid in their home slices (R79, R80): each line through its own home. -/
def State.ensureRun (s : State) (lin : Nat) (p : Place) (n world : Nat) : State :=
  if isDram (lpaOf p.gpa) then
    (List.range ((p.gpa % 128 + n + 127) / 128)).foldl (fun s k =>
      let g := p.gpa / 128 * 128 + 128 * k
      s.ensure g p.hk p.hm (s.homeAt lin p g) world) s
  else s

/-- One byte of a run, at the location that its own line's home gives. -/
def State.runLoc (s : State) (lin : Nat) (p : Place) (k : Nat) : Nat :=
  let g := p.gpa + k
  if isDram (lpaOf g) then s.dataLoc g (s.homeAt lin p g) else g

/-- The bytes of spans as a slot reads them, or the address and the location of the first uncorrectable one (R355). -/
def State.readSpans (s : State) (id : Nat) : List Span → State × Except (Nat × Nat) (List Byte)
  | [] => (s, .ok [])
  | sp :: l =>
    let lin := slotLin id
    let s := s.ensureRun lin sp.place sp.n (s.slot id).world.toNat
    match (List.range sp.n).find? fun k => setHas s.bad (unitOf (s.runLoc lin sp.place k)) with
    | some k => (s, .error (sp.va + k, s.runLoc lin sp.place k))
    | none =>
      let key := s.slotKey id
      let bs := (List.range sp.n).map fun k => s.byteAs key (s.runLoc lin sp.place k)
      let s := if s.soft.isEmpty then s else
          (List.range sp.n).foldl (fun s k => s.correct (s.runLoc lin sp.place k) 1 (sp.va + k) 1) s
      match s.readSpans id l with
      | (s, .ok r) => (s, .ok (bs ++ r))
      | (s, .error e) => (s, .error e)

/-- The bytes of spans of creel SRAM written under a slot's key; fe is preserved. -/
def State.writeSpans (s : State) (id : Nat) (bs : List Byte) : List Span → State
  | [] => s
  | sp :: l =>
    ((s.readHalf sp.place.gpa sp.n sp.va).store (s.slotKey id) sp.place.gpa (bs.take sp.n)).writeSpans id (bs.drop sp.n) l

/-- fe ← 1 on every aligned word that a run touches, with what it wakes (R83, R94). -/
def State.fillWords (s : State) (gpa n : Nat) : State :=
  (List.range ((gpa % 8 + n + 7) / 8)).foldl (fun s k =>
    let g := gpa / 8 * 8 + 8 * k
    (s.setFe g true).wake g) s

/-- Spans of creel SRAM written and set full (R94). -/
def State.writeFull (s : State) (id : Nat) (bs : List Byte) (l : List Span) : State :=
  l.foldl (fun s sp => s.fillWords sp.place.gpa sp.n) (s.writeSpans id bs l)

/-- The spans' uncorrectable partial block: the first address written in it, and the block (R354). -/
def State.spansEdgeBad (s : State) (l : List Span) : Option (Nat × Nat) :=
  l.findSome? fun sp => (s.edgeBad sp.place.gpa sp.n).map fun b => (sp.va + (b - sp.place.gpa), b)

end Sys2Proof.Machine
end

