-- ==== Sys2Proof/Machine/Gauss.lean ====
section
/-!
DEFINITION. The Gaussian message engine (R252 to R268): its records, the checks at issue, what each command computes, and the steps at which a
command starts and completes.

A command reads its records and computes when it starts, and writes when it completes (log 12). It reads the words that its rule names: a header,
then the η and Λ entries of the header's dimension.
-/

namespace Sys2Proof.Machine

/-! ### Records (R252, R253) -/

/-- Index of element (r, q), r ≤ q, of a packed triangle of dimension n. -/
def packIdx (n r q : Nat) : Nat := r * n - r * (r - 1) / 2 + (q - r)
def triangle (d : Nat) : Nat := d * (d + 1) / 2

/-- A record as read: its addresses and its bytes. -/
structure GRec where
  va : Nat
  gpa : Nat
  raw : Nat

/-- A 32-bit value of a record at a byte offset, and `n` of them. -/
def GRec.val (r : GRec) (off : Nat) : Nat := r.raw / 2 ^ (8 * off) % 2 ^ 32
def GRec.vals (r : GRec) (off n : Nat) : List Nat := (List.range n).map fun i => r.val (off + 4 * i)

/-- The fields of a message record's header (R252). -/
def GRec.d (r : GRec) : Nat := nbits r.raw 3 0
def GRec.kind (r : GRec) : Nat := nbits r.raw 7 4
def GRec.beta (r : GRec) : Nat := nbits r.raw 15 8
def GRec.node (r : GRec) : Nat := nbits r.raw 31 16
def GRec.ver (r : GRec) : Nat := nbits r.raw 63 32
/-- The η entries and then the packed Λ entries of a message of dimension d. -/
def GRec.entries (r : GRec) (d : Nat) : List Nat := r.vals 8 d ++ r.vals 40 (triangle d)
def GRec.msgOk (r : GRec) : Bool := (r.kind == 0 || r.kind == 2) && decide (r.d ≤ 8)

/-- The fields of a factor record's header (R253). -/
def GRec.n (r : GRec) : Nat := nbits r.raw 4 0
def GRec.v (r : GRec) : Nat := nbits r.raw 7 5
def GRec.dim (r : GRec) (i : Nat) : Nat := r.raw / 2 ^ (16 + 4 * i) % 16
def GRec.off (r : GRec) (i : Nat) : Nat := (List.range i).foldl (fun acc k => acc + r.dim k) 0
def GRec.factorOk (r : GRec) : Bool :=
  nbits r.raw 15 8 == 0 && decide (1 ≤ r.v ∧ r.v ≤ 4) && decide (1 ≤ r.n ∧ r.n ≤ 16) && r.off 4 == r.n &&
  (List.range 4).all fun i => if i < r.v then decide (1 ≤ r.dim i ∧ r.dim i ≤ 8) else r.dim i == 0

/-! ### Values (R259 to R261) -/

/-- Why a command ends without its effect: an engine fault, or a failure of R261; or it waits for a walk (R76). -/
inductive GErr where
  | fault (e : EFault)
  | fail (cause : Nat)
  | walk

def fpFinite (v : Nat) : Bool :=
  match fp32.decode v with
  | .fin _ _ _ => true
  | _ => false

/-- A value that must be finite (R259). -/
def gFin (v : Nat) : Except GErr Nat := if fpFinite v then .ok v else .error (.fail 0x12)
def gAdd (a b : Nat) : Except GErr Nat := gFin (fp32.add 0 a b)
def gSub (a b : Nat) : Except GErr Nat := gFin (fp32.sub 0 a b)
def gMul (a b : Nat) : Except GErr Nat := gFin (fp32.mul 0 a b)
def gDiv (a b : Nat) : Except GErr Nat := gFin (fp32.div 0 a b)
/-- c + a × b and c − a × b, rounded once. -/
def gFma (c a b : Nat) : Except GErr Nat := gFin (fp32.fma 0 a b c false)
def gFnma (c a b : Nat) : Except GErr Nat :=
  gFin (fp32.round 0 (Fv.add false (fp32.decode c) (Fv.mul (fp32.decode a) (fp32.decode b)).neg))

/-- A pivot passes when it is above max(τ, +0); a NaN τ makes every pivot fail (R254). -/
def pivotPasses (tau d : Nat) : Bool :=
  let t := fp32.decode tau
  let v := fp32.decode d
  !t.isNan && !v.isNan && v.cmp t == 1 && v.cmp (.fin false 0 0) == 1

/-- A list position written. -/
def setNth (l : List Nat) (k v : Nat) : List Nat := l.set k v
def getNth (l : List Nat) (k : Nat) : Nat := (nth l k).getD 0

/-- A joint: its dimension, η and the packed Λ. -/
structure Joint where
  n : Nat
  eta : List Nat
  lam : List Nat

/-- A(r, q) of either order. -/
def Joint.at_ (j : Joint) (r q : Nat) : Nat := getNth j.lam (if r ≤ q then packIdx j.n r q else packIdx j.n q r)
def Joint.setAt (j : Joint) (r q v : Nat) : Joint := { j with lam := setNth j.lam (packIdx j.n r q) v }
def Joint.setEta (j : Joint) (r v : Nat) : Joint := { j with eta := setNth j.eta r v }

/-- Pairs r ≤ q of a rising list, r then q increasing. -/
def pairsOf : List Nat → List (Nat × Nat)
  | [] => []
  | r :: l => (r :: l).map (fun q => (r, q)) ++ pairsOf l

/-- One elimination step of index p into the indices `us` (R259). -/
def Joint.eliminate (tau : Nat) (us : List Nat) (j : Joint) (p : Nat) : Except GErr Joint := do
  let d := j.at_ p p
  if !pivotPasses tau d then .error (.fail 0x11)
  let ls ← us.mapM fun r => do return (r, ← gDiv (j.at_ p r) d)
  let l := fun r => ((ls.find? (·.1 == r)).map (·.2)).getD 0
  let j ← (pairsOf us).foldlM (fun j (r, q) => do return j.setAt r q (← gFnma (j.at_ r q) (l r) (j.at_ p q))) j
  us.foldlM (fun j r => do return j.setEta r (← gFnma (getNth j.eta r) (l r) (getNth j.eta p))) j

/-- R259's elimination of every index outside the block of `dj` indices from `o`, and the block that is left. -/
def Joint.marginal (j : Joint) (tau o dj : Nat) : Except GErr (List Nat) := do
  let inJ := fun r => decide (o ≤ r ∧ r < o + dj)
  let out := (List.range j.n).filter fun p => !inJ p
  let j ← out.foldlM (fun j p =>
    j.eliminate tau ((List.range j.n).filter fun r => inJ r || decide (p < r)) p) j
  let js := (List.range dj).map (o + ·)
  return js.map (getNth j.eta) ++ (pairsOf js).map fun (r, q) => j.at_ r q

/-- The joint of a factor; every value must be finite. -/
def GRec.joint (f : GRec) : Except GErr Joint := do
  let eta ← (f.vals 8 f.n).mapM gFin
  let lam ← (f.vals 72 (triangle f.n)).mapM gFin
  return ⟨f.n, eta, lam⟩

/-- A message of dimension d added into a joint at offset o (R259, R263): `op` adds or subtracts. -/
def Joint.addMsg (op : Nat → Nat → Except GErr Nat) (o d : Nat) (m : GRec) (j : Joint) : Except GErr Joint := do
  let j ← (List.range d).foldlM (fun j r => do
    return j.setEta (o + r) (← op (getNth j.eta (o + r)) (← gFin (m.val (8 + 4 * r))))) j
  (pairsOf (List.range d)).foldlM (fun j (r, q) => do
    return j.setAt (o + r) (o + q) (← op (j.at_ (o + r) (o + q)) (← gFin (m.val (40 + 4 * packIdx d r q))))) j

/-- A finite FP32 value in units of 2^−149. -/
def fpUnits (v : Nat) : Int :=
  match fp32.decode v with
  | .fin n m e => scaledInt n m e (-149)
  | _ => 0

/-- rne32 of the largest exact difference of two lists (R260, R266). One that rounds to infinity fails as a value that is not finite does (log 31). -/
def residual (a b : List Nat) : Except GErr Nat :=
  let m := (a.zip b).foldl (fun acc (x, y) => max acc (fpUnits x - fpUnits y).natAbs) 0
  gFin (fp32.round 0 (.fin false m (-149)))

/-- Little-endian 32-bit values as one number. -/
def wordsNat (l : List Nat) : Nat := l.foldr (fun v acc => v + 2 ^ 32 * acc) 0
/-- Values padded with +0 to a length. -/
def padTo (n : Nat) (l : List Nat) : List Nat := l ++ List.replicate (n - l.length) 0

/-- The output step of R260 into record `o`: its writes, the header last. -/
def outputStep (o : GRec) (d : Nat) (new : List Nat) (damped : Bool) (kind : Nat) : Except GErr (List (Nat × Nat × Nat)) := do
  let old ← if o.d = 0 then pure (List.replicate (d + triangle d) 0) else (o.entries d).mapM gFin
  let beta := if damped then o.beta else 0
  let out ← (new.zip old).mapM fun (x, y) =>
    if beta = 0 then pure x
    else gFin (fp32.round 0 (Fv.add false
      (Fv.mul (fp32.decode x) (.fin false (256 - beta) (-8))) (Fv.mul (fp32.decode y) (.fin false beta (-8)))))
  let res ← residual out old
  let hdr := d + kind * 2 ^ 4 + o.beta * 2 ^ 8 + o.node * 2 ^ 16 + (o.ver + 1) % 2 ^ 32 * 2 ^ 32
  return [(o.gpa + 8, 176, wordsNat (padTo 8 (out.take d) ++ padTo 36 (out.drop d))), (o.gpa + 248, 8, res), (o.gpa, 8, hdr)]

/-- An engine fault of DETAIL 6 at a record (R258). -/
def badRecord {α : Type} (r : GRec) : Except GErr α := .error (.fault ⟨6, r.va, r.gpa⟩)
def need (r : GRec) (c : Bool) : Except GErr Unit := if c then .ok () else badRecord r
/-- A destination takes a result of dimension d (R258). -/
def destOk (o : GRec) (d : Nat) : Bool := o.d == 0 || o.d == d

/-! ### What each command computes -/

/-- R259: messages as (variable, record). -/
def computeGupd (tau j : Nat) (f : GRec) (ms : List (Nat × GRec)) (o : GRec) : Except GErr (List (Nat × Nat × Nat)) := do
  need f f.factorOk
  need f (decide (j < f.v))
  ms.forM fun (i, m) => need m (m.d == f.dim i)
  need o (destOk o (f.dim j))
  let jt ← f.joint
  let jt ← ms.foldlM (fun jt (i, m) => jt.addMsg gAdd (f.off i) (f.dim i) m) jt
  let new ← jt.marginal tau (f.off j) (f.dim j)
  outputStep o (f.dim j) new true 0

/-- R262: the dimension is that of the record that the first nonzero list word names. A later word that is zero, while another is not, names the record at address 0 (log 31). -/
def computeGbel (list : GRec) (prior : Option GRec) (ms : List GRec) (bel : GRec) (outs : List GRec) :
    Except GErr (List (Nat × Nat × Nat)) := do
  let src := prior.toList ++ ms
  match src.find? (·.va != 0) with
  | none => badRecord list
  | some first =>
    let d := first.d
    src.forM fun m => need m (decide (1 ≤ m.d) && m.d == d)
    (bel :: outs).forM fun o => need o (destOk o d)
    let sum ← match prior with
      | some p => (p.entries d).mapM gFin
      | none => pure (List.replicate (d + triangle d) 0)
    let sum ← ms.foldlM (fun sum m =>
      (sum.zip (m.entries d)).mapM fun (x, y) => do gAdd x (← gFin y)) sum
    let ws ← (outs.zip ms).mapM fun (o, m) => do
      let new ← (sum.zip (m.entries d)).mapM fun (x, y) => gSub x y
      outputStep o d new true 0
    let wb ← outputStep bel d sum false 2
    return ws.flatten ++ wb

/-- R263. -/
def computeGaddMsg (op : Nat → Nat → Except GErr Nat) (o src : GRec) : Except GErr (List (Nat × Nat × Nat)) := do
  let d := src.d
  need src (decide (1 ≤ d))
  need o (destOk o d)
  let old := if o.d = 0 then List.replicate (d + triangle d) 0 else o.entries d
  let new ← (old.zip (src.entries d)).mapM fun (x, y) => do op (← gFin x) (← gFin y)
  outputStep o d new false (if o.d = 0 then 0 else o.kind)

/-- R263: GADD into a factor, entry by entry. An entry that is not finite, and a sum that is not, fail, though no output step follows (log 31). -/
def computeGaddFactor (op : Nat → Nat → Except GErr Nat) (i : Nat) (f src : GRec) : Except GErr (List (Nat × Nat × Nat)) := do
  need f f.factorOk
  need f (decide (i < f.v))
  let d := f.dim i
  need src (decide (1 ≤ src.d) && src.d == d)
  let o := f.off i
  let eta ← (List.range d).mapM fun r => do
    let k := 8 + 4 * (o + r)
    return (f.gpa + k, 4, ← op (← gFin (f.val k)) (← gFin (src.val (8 + 4 * r))))
  let lam ← (pairsOf (List.range d)).mapM fun (r, q) => do
    let k := 72 + 4 * packIdx f.n (o + r) (o + q)
    return (f.gpa + k, 4, ← op (← gFin (f.val k)) (← gFin (src.val (40 + 4 * packIdx d r q))))
  let hdr := f.raw % 2 ^ 32 + (f.ver + 1) % 2 ^ 32 * 2 ^ 32
  return eta ++ lam ++ [(f.gpa, 8, hdr)]

/-- R264. -/
def computeGelim (tau j : Nat) (f o : GRec) : Except GErr (List (Nat × Nat × Nat)) := do
  need f f.factorOk
  need f (decide (j < f.v))
  need o (destOk o (f.dim j))
  let jt ← f.joint
  let new ← jt.marginal tau (f.off j) (f.dim j)
  outputStep o (f.dim j) new false 0

def computeGdamp (o src : GRec) : Except GErr (List (Nat × Nat × Nat)) := do
  need src (decide (1 ≤ src.d))
  need o (destOk o src.d)
  let new ← (src.entries src.d).mapM gFin
  outputStep o src.d new (o.d != 0) o.kind

/-- R265's factorisation: the joint after it, the pivots, and L(r, p) by (r, p). -/
def solveFactor (tau : Nat) (j : Joint) : Except GErr (Joint × List Nat × List ((Nat × Nat) × Nat)) :=
  (List.range j.n).foldlM (fun (j, ds, ls) p => do
    let d := j.at_ p p
    if !pivotPasses tau d then .error (.fail 0x11)
    let us := (List.range j.n).filter fun r => decide (p < r)
    let l ← us.mapM fun r => do return ((r, p), ← gDiv (j.at_ p r) d)
    let lr := fun r => ((l.find? (·.1 == (r, p))).map (·.2)).getD 0
    let j ← (pairsOf us).foldlM (fun j (r, q) => do return j.setAt r q (← gFnma (j.at_ r q) (lr r) (j.at_ p q))) j
    let j ← us.foldlM (fun j r => do return j.setEta r (← gFnma (getNth j.eta r) (lr r) (getNth j.eta p))) j
    return (j, ds ++ [d], ls ++ l)) (j, [], [])

/-- R265. -/
def computeGsolve (tau : Nat) (diag : Bool) (r : GRec) : Except GErr (List (Nat × Nat × Nat)) := do
  let d := r.d
  need r (decide (1 ≤ d))
  let es ← (r.entries d).mapM gFin
  let (j, ds, ls) ← solveFactor tau ⟨d, es.take d, es.drop d⟩
  let l := fun r t => ((ls.find? (·.1 == (r, t))).map (·.2)).getD 0
  let mu ← (List.range d).reverse.foldlM (fun mu p => do
    let m ← gDiv (getNth j.eta p) (getNth ds p)
    let m ← ((List.range d).filter fun r => decide (p < r)).foldlM (fun m r => gFnma m (l r p) (getNth mu r)) m
    return setNth mu p m) (List.replicate d 0)
  let sigma ← if diag then
      (List.range d).mapM fun i => do
        let w ← ((List.range d).filter fun r => decide (i < r)).foldlM (fun w r => do
          let acc ← ((List.range r).filter fun t => decide (i ≤ t)).foldlM (fun acc t => gFma acc (l r t) (getNth w t)) 0
          return setNth w r ((acc + 2 ^ 31) % 2 ^ 32)) (setNth (List.replicate d 0) i 0x3F800000)
        ((List.range d).filter fun t => decide (i ≤ t)).foldlM (fun s t => do
          gAdd s (← gDiv (← gMul (getNth w t) (getNth w t)) (getNth ds t))) 0
    else pure []
  let ws := [(r.gpa + 184, 32, wordsNat (padTo 8 mu))] ++
    (if diag then [(r.gpa + 216, 32, wordsNat (padTo 8 sigma))] else [])
  return ws ++ [(r.gpa, 8, r.raw % 2 ^ 64)]
/-- R266. -/
def computeGres (a b : GRec) : Except GErr Nat := do
  need a (decide (1 ≤ a.d))
  need b (a.d == b.d)
  let x ← (a.entries a.d).mapM gFin
  let y ← (b.entries a.d).mapM gFin
  residual x y

/-! ### Reading records (R257, R258) -/

/-- The place of `n` bytes that a command names: alignment, then the checks of R257 as engine faults. -/
def State.gPlace (s : State) (c : GCmd) (va n align : Nat) (dest : Bool) : State × Except GErr Nat :=
  if va % align ≠ 0 then (s, .error (.fault ⟨6, va, 0⟩))
  else
    match s.engineCheck (unitReq c.id) c.slot va n (if dest then .both else .read) true with
    | (s, .ok p) => (s, .ok p.gpa)
    | (s, .error .walk) => (s, .error .walk)
    | (s, .error (.fault e)) => (s, .error (.fault (if e.detail = 7 && !dest then { e with detail := 2 } else e)))

/-- Bytes of a record read at a place. -/
def State.gBytes (s : State) (c : GCmd) (va g n : Nat) : State × Except GErr Nat :=
  match s.firstBad g n with
  | some k => (s, .error (.fault ⟨5, va + k, g + k⟩))
  | none => (s.correct g n va 1, .ok (s.readAs (s.slotKey c.slot) g n))

/-- Two reads in turn. -/
def gThen {α β : Type} (r : State × Except GErr α) (k : State → α → State × Except GErr β) : State × Except GErr β :=
  match r with
  | (s, .ok a) => k s a
  | (s, .error e) => (s, .error e)

/-- A list word read. -/
def State.gWord (s : State) (c : GCmd) (va : Nat) : State × Except GErr Nat :=
  gThen (s.gPlace c va 8 8 false) fun s g => s.gBytes c va g 8

/-- The words of a list. -/
def State.gWords (s : State) (c : GCmd) : List Nat → State × Except GErr (List Nat)
  | [] => (s, .ok [])
  | va :: l => gThen (s.gWord c va) fun s w => gThen (s.gWords c l) fun s ws => (s, .ok (w :: ws))

/-- A message record: its header, which must be in range, and the entries of its dimension (R252, R258). -/
def State.gMsg (s : State) (c : GCmd) (va : Nat) (dest : Bool) : State × Except GErr GRec :=
  gThen (s.gPlace c va 256 256 dest) fun s g =>
    gThen (s.gBytes c va g 8) fun s hdr =>
      let r : GRec := ⟨va, g, hdr⟩
      if !r.msgOk then (s, badRecord r)
      else
        gThen (s.gBytes c (va + 8) (g + 8) (4 * r.d)) fun s eta =>
          gThen (s.gBytes c (va + 40) (g + 40) (4 * triangle r.d)) fun s lam =>
            (s, .ok ⟨va, g, hdr + 2 ^ 64 * eta + 2 ^ 320 * lam⟩)

/-- A factor record: its header, which must be in range, and the entries of its dimension; the engine ignores bytes 616 to 1,023 (R253, R258). -/
def State.gFactor (s : State) (c : GCmd) (va : Nat) (dest : Bool) : State × Except GErr GRec :=
  gThen (s.gPlace c va 1024 1024 dest) fun s g =>
    gThen (s.gBytes c va g 8) fun s hdr =>
      let r : GRec := ⟨va, g, hdr⟩
      if !r.factorOk then (s, badRecord r)
      else
        gThen (s.gBytes c (va + 8) (g + 8) (4 * r.n)) fun s eta =>
          gThen (s.gBytes c (va + 72) (g + 72) (4 * triangle r.n)) fun s lam =>
            (s, .ok ⟨va, g, hdr + 2 ^ 64 * eta + 2 ^ 576 * lam⟩)

/-- The messages at addresses. -/
def State.gMsgs (s : State) (c : GCmd) (dest : Bool) : List Nat → State × Except GErr (List GRec)
  | [] => (s, .ok [])
  | va :: l => gThen (s.gMsg c va dest) fun s m => gThen (s.gMsgs c dest l) fun s ms => (s, .ok (m :: ms))

def gSel (ctl : Nat) : Nat := ctl % 16
def gOpt (ctl : Nat) : Bool := ctl.testBit 4
def gInt (ctl : Nat) : Bool := ctl.testBit 8
def gWf (ctl : Nat) : Bool := ctl.testBit 9

/-- The variables of GUPD other than its target. -/
def gOthers (f : GRec) (j : Nat) : List Nat := (List.range (min f.v 4)).filter (· != j)

/-- What a command comes to when it has read its records: its writes, the value of GRES, and the records that it writes. -/
structure GOut where
  ws : List (Nat × Nat × Nat)
  v : Nat
  dests : List GRec

/-- A command reads its records and computes its writes, or the value of GRES. Where several of R258's cases hold, it reports the first in the order of its
reads; the checks of roles and dimensions come after all of them (log 48). -/
def State.gCompute (s : State) (c : GCmd) : State × Except GErr GOut :=
  let sel := gSel c.ctl
  let j := sel % 4
  let op := if sel.testBit 0 then gSub else gAdd
  let out := fun (ds : List GRec) (r : Except GErr (List (Nat × Nat × Nat))) => r.map fun ws => GOut.mk ws 0 ds
  match c.fn with
  | 0 =>
    gThen (s.gFactor c c.a false) fun s f =>
      let is := gOthers f j
      gThen (s.gWords c (is.map fun i => c.b + 8 * i)) fun s ws =>
        gThen (s.gMsgs c false ws) fun s ms =>
          gThen (s.gMsg c c.c1 true) fun s o => (s, out [o] (computeGupd c.tau j f (is.zip ms) o))
  | 1 =>
    gThen (s.gWords c ((List.range (sel + 1)).map fun i => c.b + 8 * i)) fun s words =>
      let list : GRec := ⟨c.b, 0, 0⟩
      if words.all (· == 0) then (s, badRecord list)
      else
        gThen (if words.headD 0 = 0 then (s, .ok none)
          else match s.gMsg c (words.headD 0) false with
            | (s, .ok r) => (s, .ok (some r))
            | (s, .error e) => (s, .error e)) fun s prior =>
          gThen (s.gMsgs c false words.tail) fun s ms =>
            gThen (s.gMsg c c.a true) fun s bel =>
              gThen (if gOpt c.ctl then
                  gThen (s.gWords c ((List.range sel).map fun i => c.c1 + 8 * i)) fun s ws => s.gMsgs c true ws
                else (s, .ok [])) fun s outs => (s, out (bel :: outs) (computeGbel list prior ms bel outs))
  | 2 =>
    if sel.testBit 1 then
      gThen (s.gFactor c c.a true) fun s f =>
        gThen (s.gMsg c c.b false) fun s m => (s, out [f] (computeGaddFactor op (sel / 4) f m))
    else
      gThen (s.gMsg c c.a true) fun s o =>
        gThen (s.gMsg c c.b false) fun s m => (s, out [o] (computeGaddMsg op o m))
  | 3 =>
    gThen (s.gFactor c c.a false) fun s f =>
      gThen (s.gMsg c c.b true) fun s o => (s, out [o] (computeGelim c.tau j f o))
  | 4 =>
    gThen (s.gMsg c c.a true) fun s o =>
      gThen (s.gMsg c c.b false) fun s m => (s, out [o] (computeGdamp o m))
  | 5 => gThen (s.gMsg c c.a true) fun s r => (s, out [r] (computeGsolve c.tau (gOpt c.ctl) r))
  | _ =>
    gThen (s.gMsg c c.a false) fun s x =>
      gThen (s.gMsg c c.b false) fun s y => (s, (computeGres x y).map fun v => ⟨[], v, []⟩)

/-! ### WF waits (R258) -/

/-- List words as far as they can be read; none when the command must wait for a walk. -/
def State.gReachable (s : State) (c : GCmd) : List Nat → State × Option (List Nat)
  | [] => (s, some [])
  | va :: l =>
    match s.gWord c va with
    | (s, .error .walk) => (s, none)
    | (s, .error _) => s.gReachable c l
    | (s, .ok w) =>
      match s.gReachable c l with
      | (s, some ws) => (s, some (w :: ws))
      | (s, none) => (s, none)

/-- The headers of the input records of a command in operand order, as far as their addresses can be read (R258). -/
def State.gHeads (s : State) (c : GCmd) : State × Option (List Nat) :=
  match c.fn with
  | 0 =>
    match s.gWord c c.a with
    | (s, .error .walk) => (s, none)
    | (s, .error _) => (s, some [c.a])
    | (s, .ok f) =>
      match s.gReachable c ((gOthers ⟨c.a, 0, f⟩ (gSel c.ctl % 4)).map fun i => c.b + 8 * i) with
      | (s, some ws) => (s, some (c.a :: ws ++ [c.c1]))
      | r => r
  | 1 =>
    match s.gReachable c ((List.range (gSel c.ctl + 1)).map fun i => c.b + 8 * i) with
    | (s, some ws) => (s, some (if ws.headD 0 = 0 then ws.tail else ws))
    | r => r
  | 5 => (s, some [c.a])
  | _ => (s, some [c.a, c.b])

/-- How many headers, from the first on, are full; none when the command must wait for a walk. A header that cannot be reached or is uncorrectable
ends its wait, since the read that follows reports it (R357, R258). -/
def State.gFull (s : State) (c : GCmd) : List Nat → State × Option Nat
  | [] => (s, some 0)
  | va :: l =>
    match s.gPlace c va 8 8 false with
    | (s, .error .walk) => (s, none)
    | (s, r) =>
      if (match r with
        | .ok g => s.badIn g 8 || s.fe g
        | .error _ => true) then
        match s.gFull c l with
        | (s, some n) => (s, some (n + 1))
        | r => r
      else (s, some 0)

/-- What a command that has not started does next: it waits for a walk, goes on waiting for a header, has passed more headers, or starts. -/
inductive GNext where
  | walk
  | idle
  | passed (n : Nat)
  | start
  deriving DecidableEq, Repr

/-- The count of headers of a command whose waits are over. -/
def gAllPassed : Nat := 255

def State.gNextOf (s : State) (c : GCmd) : State × GNext :=
  if !gWf c.ctl || c.fn == 6 || c.waited == gAllPassed then (s, .start)
  else
    match s.gHeads c with
    | (s, none) => (s, .walk)
    | (s, some hs) =>
      match s.gFull c (hs.drop c.waited) with
      | (s, none) => (s, .walk)
      | (s, some k) =>
        (s, if hs.length ≤ c.waited + k then .passed gAllPassed else if k = 0 then .idle else .passed (c.waited + k))

/-- The same, acting for the command's slot (R347). -/
def State.gNext (s : State) (c : GCmd) : State × GNext := s.acting c.slot c.world c.asid c.mode fun s => s.gNextOf c

/-- The waits of a command are over. -/
def State.gReady (s : State) (c : GCmd) : Bool :=
  match (s.gNext c).2 with
  | .start => true
  | .passed n => n == gAllPassed
  | _ => false

/-- The command of a core that can start, or go on in its wait, now: the first of its slot (R257), 8 cycles after the last start (R270). -/
def State.gaussNext (s : State) (core : Nat) : Option GCmd :=
  let q := (s.core core).gq
  if s.cycle < (s.core core).gnext then none
  else
    (q.find? fun c =>
      !c.started && !(q.any fun b => b.slot == c.slot && decide (b.id < c.id)) && !s.unitWaits (core / 32) (unitReq c.id) &&
        (s.gNext c).2 != .idle)

def State.setGauss (s : State) (core : Nat) (c : GCmd) : State :=
  s.updCore core fun k => { k with gq := k.gq.map fun b => if b.id == c.id then c else b }

/-- A block of 16 bytes lies wholly within the runs that a command writes (R354). -/
def runsCover (ws : List (Nat × Nat × Nat)) (b : Nat) : Bool :=
  (List.range 16).all fun k => ws.any fun (g, n, _) => decide (g ≤ b + k ∧ b + k < g + n)
/-- The blocks that runs touch. -/
def runBlocks (ws : List (Nat × Nat × Nat)) : List Nat :=
  (ws.flatMap fun (g, n, _) => (List.range ((g % 16 + n + 15) / 16)).map fun k => g / 16 * 16 + 16 * k).eraseDups

/-- The virtual address of a byte of a record that a command writes: messages of 256 bytes, or one factor of 1,024 (R252, R253). -/
def destVa (ds : List GRec) (g : Nat) : Nat :=
  let inside := fun (n : Nat) => ds.find? fun r => decide (r.gpa ≤ g ∧ g < r.gpa + n)
  match (inside 256).or (inside 1024) with
  | some r => r.va + (g - r.gpa)
  | none => 0

/-- The page bits of the translation that the command's core finds for a local address (R77). -/
def State.pageBits (s : State) (core asid world va : Nat) : Nat :=
  (((s.tlbFind core asid false world va).1).map (·.bits)).getD 16

/-- What a command has come to, with the engine fault of a block that it would write in part and that is uncorrectable (R354). -/
def State.gOutcome (s : State) (r : Except GErr GOut) : State × Except GErr GOut :=
  match r with
  | .ok o =>
    match (runBlocks o.ws).find? fun b => s.badBlock b && !runsCover o.ws b with
    | some b => (s.foundBad b 16, .error (.fault ⟨5, destVa o.dests b, s.badUnitIn b 16⟩))
    | none => (s, .ok o)
  | r => (s, r)

/-- R258: a command that has waited starts: it reads its records and computes. Engine faults are recorded here (R335). -/
def execGaussCommandStart (core : Nat) (s : State) : Host.Outcome State Fault Refusal :=
  done (match s.gaussNext core with
    | none => s
    | some c =>
      match s.gNext c with
      | (s, .passed n) => s.setGauss core { c with waited := n }
      | (s, .start) =>
        let go := fun (s : State) (r : GResult) (ds : List GRec) =>
          let (due, s) := s.laterCycle
          let places := ds.map fun d => (d.va, s.pageBits core c.asid.toNat c.world.toNat d.va)
          (s.setGauss core { c with started := true, due := due, result := r, dests := places }).updCore core fun k =>
            { k with gnext := s.cycle + 8 }
        match s.acting c.slot c.world c.asid c.mode fun s =>
          match s.gCompute c with
          | (s, r) => s.gOutcome r with
        | (s, .error .walk) => s
        | (s, .ok o) => go s (.writes o.ws o.v) o.dests
        | (s, .error (.fail k)) => go s (.fail k) []
        | (s, .error (.fault e)) =>
          go (s.acting c.slot c.world c.asid c.mode fun s => (s.engineRec c.slot 0x03 c.ticket c.pc e, ())).1 .fault []
      | (s, _) => s)

/-- Entries of four bytes that share an aligned word as one write of the word (R94). -/
def pairRuns (ws : List (Nat × Nat × Nat)) : List (Nat × Nat × Nat) :=
  ws.foldl (fun acc (g, n, v) =>
    if n = 4 ∧ acc.any fun (h, m, _) => m == 4 && h / 8 == g / 8 then
      acc.map fun (h, m, w) =>
        if m = 4 ∧ h / 8 = g / 8 then (g / 8 * 8, 8, if g % 8 = 0 then v + 2 ^ 32 * w else w + 2 ^ 32 * v) else (h, m, w)
    else acc ++ [(g, n, v)]) []

/-- The writes of a command in order, each word with its bit at one place (R94, R260). -/
def State.gWrite (s : State) (key : Nat) (ws : List (Nat × Nat × Nat)) : State :=
  let s := (runBlocks ws).foldl (fun s b => if runsCover ws b then (s.cleanUnit b).cleanUnit (b + 8) else s.correct b 16 0 1) s
  (pairRuns ws).foldl (fun s (g, n, v) => (s.store key g (natBytes v n)).fillWords g n) s

/-- R261, R333: how a failure of a command reaches its slot. -/
def State.gFail (s : State) (c : GCmd) (cause : Nat) : State :=
  if cause ≠ 0x10 ∧ c.quiet then
    s.updSlot c.slot fun sl => if cause = 0x11 then { sl with gsb := true } else { sl with gnf := true }
  else s.addFailure c.slot ⟨c.ticket, cause, c.pc⟩

/-- R259 to R266: a started command that is due completes. -/
def execGaussCommandComplete (core : Nat) (s : State) : Host.Outcome State Fault Refusal :=
  done (match (s.core core).gq.find? fun c => c.started && decide (c.due ≤ s.cycle) with
    | none => s
    | some c =>
      let s := s.updCore core fun k => { k with gq := k.gq.filter (·.id != c.id) }
      let key := s.key (slotLin c.slot) c.world.toNat
      let gres := fun (s : State) (v : Nat) =>
        if c.fn = 6 ∧ c.reg ≠ 0 then s.replyAwaited c.slot c.entry c.id (BitVec.ofNat 64 v) else s
      let s := match c.result with
        | .writes ws v => gres (s.gWrite key ws) v
        | .fail k => gres (s.gFail c k) 0x7FC00000
        | .fault => gres (s.gFail c 0x10) 0x7FC00000
        | .none => s
      if c.fn ≠ 6 && gInt c.ctl then s.pendUser c.slot 3 else s)

/-! ### Issue (R255 to R257) -/

def State.gaussOut (s : State) (id : Nat) : List GCmd := (s.core (slotCore id)).gq.filter (·.slot == id)

/-- The control word that a form accepts (R256). -/
def gCtlOk (fn c : Nat) : Bool :=
  nbits c 63 10 == 0 && nbits c 7 5 == 0 &&
  match fn with
  | 0 | 3 => decide (gSel c ≤ 3) && !gOpt c
  | 1 => true
  | 2 => !gOpt c
  | 4 => gSel c == 0 && !gOpt c
  | _ => gSel c == 0

/-- One address that a command names: what is there, its alignment, its length, and whether the command writes there. -/
structure GArg where
  va : Nat
  align : Nat
  n : Nat
  dest : Bool

/-- Items 2 of R257 for the addresses in operand order. -/
def gArgTrap (as : List GArg) : Option Trap :=
  as.findSome? fun a =>
    if 2 ^ 47 ≤ a.va then some ⟨0x05, BitVec.ofNat 64 a.va, false⟩
    else if a.va % a.align ≠ 0 then some ⟨0x04, BitVec.ofNat 64 a.va, false⟩
    else none

/-- Item 3 of R257 for the addresses in operand order. -/
def State.gCheckArgs (s : State) : List GArg → State × Option Stop
  | [] => (s, none)
  | a :: l =>
    match s.checkRange s.cur a.va a.n (if a.dest then .both else .read) true 2 with
    | (s, .error t) => (s, some t)
    | (s, .ok _) => s.gCheckArgs l

/-- A command that has passed its checks enters the queue (R257, R332). A fifth waits at the instruction boundary, where the slot takes events, and
reissues (log 47). -/
def State.queueGauss (s : State) (fn a b ctl c1 reg : Nat) : State :=
  if 4 ≤ (s.gaussOut s.cur).length then s.wait .none
  else
    let (id, s) := s.newId
    let sl := s.me
    let c : GCmd := ⟨id, s.cur, fn, a, b, ctl, c1, reg, s.entryOf s.cur reg, sl.gtau.toNat, sl.gquiet, sl.ticket 2 fn, sl.pc, sl.world,
      sl.asid, sl.mode, 0, false, 0, .none, []⟩
    let s := (s.updMe Slot.takeTicket).updCore (slotCore s.cur) fun k => { k with gq := k.gq ++ [c] }
    (if fn = 6 then s.awaitReg s.cur reg id else s).retire 4

/-- The checks of R257, then the queue. -/
def State.withGauss (s : State) (fn a b ctl c1 reg : Nat) (as : List GArg) : State :=
  match gArgTrap as with
  | some t => s.trap t
  | none =>
    match s.gCheckArgs as with
    | (s, some t) => s.stopped t
    | (s, none) => s.queueGauss fn a b ctl c1 reg

/-- GUPD: the factor's header is read once for v, as a plain load, which waits for the slot's own accesses to it (R90, R257). -/
def execGupd (a b c : BitVec 7) (s : State) : Host.Outcome State Fault Refusal :=
  done (issue [a, b, c, c + 1] [a, b, c, c + 1] (fun s =>
    let va := (s.x a.toNat).toNat
    let vb := (s.x b.toNat).toNat
    let ctl := (s.x c.toNat).toNat
    let vo := (s.x (c + 1).toNat).toNat
    let f : GArg := ⟨va, 1024, 1024, false⟩
    let rest : List GArg := [⟨vb, 8, 8, false⟩, ⟨vo, 256, 256, true⟩]
    if !gCtlOk 0 ctl then s.trapWith 0x01 (wordOf (.gupd a b c))
    else
      match gArgTrap (f :: rest) with
      | some t => s.trap t
      | none =>
        match s.checkRange s.cur va 1024 .read true 2 with
        | (s, .error t) => s.stopped t
        | (s, .ok sp) =>
          let g := match sp with
            | p :: _ => p.place.gpa
            | [] => 0
          if s.spansClash (sp.map fun p => { p with n := 8 }) then s.wait .hold
          else if s.badIn g 8 then (s.dataRec s.cur g 8 va).trapWith 0x09 (BitVec.ofNat 64 va)
          else
            let s := s.correct g 8 va 1
            let v := nbits (s.readAs (s.slotKey s.cur) g 8) 7 5
            let v := max 1 (min v 4)
            s.withGauss 0 va vb ctl vo 0 [⟨vb, 8, 8 * v, false⟩, ⟨vo, 256, 256, true⟩]) s)

def execGbel (a b c : BitVec 7) (s : State) : Host.Outcome State Fault Refusal :=
  done (issue [a, b, c, c + 1] [a, b, c, c + 1] (fun s =>
    let va := (s.x a.toNat).toNat
    let vb := (s.x b.toNat).toNat
    let ctl := (s.x c.toNat).toNat
    let vo := (s.x (c + 1).toNat).toNat
    let k := gSel ctl
    if !gCtlOk 1 ctl then s.trapWith 0x01 (wordOf (.gbel a b c))
    else s.withGauss 1 va vb ctl vo 0
      ([⟨va, 256, 256, true⟩, ⟨vb, 8, 8 * (k + 1), false⟩] ++ if gOpt ctl then [⟨vo, 8, 8 * k, false⟩] else [])) s)

/-- GADD, GELIM and GDAMP. -/
def opGauss (fn : Nat) (w : Word) (a b c : BitVec 7) (args : Nat → Nat → Nat → List GArg) (s : State) :
    Host.Outcome State Fault Refusal :=
  done (issue [a, b, c] [a, b, c] (fun s =>
    let va := (s.x a.toNat).toNat
    let vb := (s.x b.toNat).toNat
    let ctl := (s.x c.toNat).toNat
    if !gCtlOk fn ctl then s.trapWith 0x01 w else s.withGauss fn va vb ctl 0 0 (args va vb ctl)) s)

def execGadd (a b c : BitVec 7) :=
  opGauss 2 (wordOf (.gadd a b c)) a b c fun va vb ctl =>
    [if (gSel ctl).testBit 1 then ⟨va, 1024, 1024, true⟩ else ⟨va, 256, 256, true⟩, ⟨vb, 256, 256, false⟩]
def execGelim (a b c : BitVec 7) :=
  opGauss 3 (wordOf (.gelim a b c)) a b c fun va vb _ => [⟨va, 1024, 1024, false⟩, ⟨vb, 256, 256, true⟩]
def execGdamp (a b c : BitVec 7) :=
  opGauss 4 (wordOf (.gdamp a b c)) a b c fun va vb _ => [⟨va, 256, 256, true⟩, ⟨vb, 256, 256, false⟩]

def execGsolve (a c : BitVec 7) (s : State) : Host.Outcome State Fault Refusal :=
  done (issue [a, c] [a, c] (fun s =>
    let va := (s.x a.toNat).toNat
    let ctl := (s.x c.toNat).toNat
    if !gCtlOk 5 ctl then s.trapWith 0x01 (wordOf (.gsolve a c))
    else s.withGauss 5 va 0 ctl 0 0 [⟨va, 256, 256, true⟩]) s)

/-- GRES names its destination in field c (R266). -/
def execGres (a b c : BitVec 7) (s : State) : Host.Outcome State Fault Refusal :=
  done (issue [a, b, c] [a, b] (fun s =>
    let va := (s.x a.toNat).toNat
    let vb := (s.x b.toNat).toNat
    s.withGauss 6 va vb 0 0 c.toNat [⟨va, 256, 256, false⟩, ⟨vb, 256, 256, false⟩]) s)

/-- R267. -/
def execGsync (s : State) : Host.Outcome State Fault Refusal :=
  done (issue [] [] (fun s =>
    if (s.gaussOut s.cur).isEmpty then s.raiseFailure (fun f => ticketEngine f.ticket == 2) (·.retire 4)
    else s.wait .none) s)

end Sys2Proof.Machine
end

