-- ==== Sys2Proof/Machine/Vec.lean ====
section
/-!
DEFINITION. Lane arithmetic: elements and masks (R188, R189), VFP (R192), VINT (R193) and VSPEC (R201).
-/

namespace Sys2Proof.Machine

/-! ### Elements (R188) -/

/-- The width of an element of a type. -/
def tyWidth (y : Nat) : Nat :=
  match y with
  | 0 | 3 => 32
  | 1 | 2 | 4 => 16
  | _ => 8

/-- The number of elements of a type. -/
def tyCount (y : Nat) : Nat := 4096 / tyWidth y

/-- The format of a floating-point type. -/
def tyFmt (y : Nat) : FpFmt :=
  match y with
  | 1 => bf16
  | 2 => fp16
  | _ => fp32

/-- Element e of width w: bits [w × e + w − 1 : w × e], which is where R188 puts it. -/
def elemOf (v : BitVec 4096) (w e : Nat) : Nat := v.toNat / 2 ^ (w * e) % 2 ^ w

/-- A register from `n` elements of width w, the lowest first. -/
def ofElems (w : Nat) (es : List Nat) : BitVec 4096 :=
  BitVec.ofNat 4096 (es.foldr (fun v acc => v % 2 ^ w + 2 ^ w * acc) 0)

/-- The active elements written with f, the others kept (R189). -/
def mapElems (w : Nat) (mask : BitVec 128) (old : BitVec 4096) (f : Nat → Nat) : BitVec 4096 :=
  ofElems w ((List.range (4096 / w)).map fun e => if mask.getLsbD (w * e / 32) then f e else elemOf old w e)

/-- An element read as signed (R193). -/
def signedElem (w v : Nat) : Int := (BitVec.ofNat w v).toInt

/-- All ones in w bits if c, else 0. -/
def allOnesIf (w : Nat) (c : Bool) : Nat := if c then 2 ^ w - 1 else 0

/-- A lane instruction with destination d, mask m and elements of width w: `f` gives each element from the slot's registers as they
were (R189). -/
def opLanes (d : BitVec 3) (m : BitVec 2) (w : Nat) (f : Slot → Nat → Nat) (s : State) :
    Host.Outcome State Fault Refusal :=
  done (issue [] [] (fun s =>
    (s.updMe fun sl => sl.setW d.toNat (mapElems w (sl.m m.toNat) (sl.w d.toNat) (f sl))).retire 4) s)

/-- One source. -/
def opLanes1 (d a : BitVec 3) (m : BitVec 2) (y : Nat) (f : Nat → Nat) :=
  opLanes d m (tyWidth y) fun sl e => f (elemOf (sl.w a.toNat) (tyWidth y) e)
/-- Two sources. -/
def opLanes2 (d a b : BitVec 3) (m : BitVec 2) (y : Nat) (f : Nat → Nat → Nat) :=
  opLanes d m (tyWidth y) fun sl e =>
    f (elemOf (sl.w a.toNat) (tyWidth y) e) (elemOf (sl.w b.toNat) (tyWidth y) e)
/-- Three sources. -/
def opLanes3 (d a b c : BitVec 3) (m : BitVec 2) (y : Nat) (f : Nat → Nat → Nat → Nat) :=
  opLanes d m (tyWidth y) fun sl e =>
    f (elemOf (sl.w a.toNat) (tyWidth y) e) (elemOf (sl.w b.toNat) (tyWidth y) e)
      (elemOf (sl.w c.toNat) (tyWidth y) e)

/-! ### Floating-point lanes (R192) -/

/-- A datum with its sign cleared or inverted; the canonical NaN for a NaN (R192). -/
def FpFmt.withSign (f : FpFmt) (x : Nat) (sign : Bool → Bool) : Nat :=
  let v := f.decode x
  if v.isNan then f.nan else f.signed (sign (decide (2 ^ (f.mb + f.eb) ≤ x))) (x % 2 ^ (f.mb + f.eb))

/-- A comparison of two data: false for a NaN, and −0 equals +0 (R123). -/
def FpFmt.compare (f : FpFmt) (x y : Nat) (p : Int → Bool) : Bool :=
  let a := f.decode x
  let b := f.decode y
  !a.isNan && !b.isNan && p (a.cmp b)

def execVadd (d a b : BitVec 3) (m : BitVec 2) (y : BitVec 4) (r : BitVec 3) :=
  opLanes2 d a b m y.toNat ((tyFmt y.toNat).add r.toNat)
def execVsub (d a b : BitVec 3) (m : BitVec 2) (y : BitVec 4) (r : BitVec 3) :=
  opLanes2 d a b m y.toNat ((tyFmt y.toNat).sub r.toNat)
def execVmul (d a b : BitVec 3) (m : BitVec 2) (y : BitVec 4) (r : BitVec 3) :=
  opLanes2 d a b m y.toNat ((tyFmt y.toNat).mul r.toNat)
def execVfma (d a b c : BitVec 3) (m : BitVec 2) (y : BitVec 4) (r : BitVec 3) :=
  opLanes3 d a b c m y.toNat fun u v w => (tyFmt y.toNat).fma r.toNat u v w false
def execVfms (d a b c : BitVec 3) (m : BitVec 2) (y : BitVec 4) (r : BitVec 3) :=
  opLanes3 d a b c m y.toNat fun u v w => (tyFmt y.toNat).fma r.toNat u v w true
def execVmin (d a b : BitVec 3) (m : BitVec 2) (y : BitVec 4) :=
  opLanes2 d a b m y.toNat ((tyFmt y.toNat).minMax false)
def execVmax (d a b : BitVec 3) (m : BitVec 2) (y : BitVec 4) :=
  opLanes2 d a b m y.toNat ((tyFmt y.toNat).minMax true)
def execVabs (d a : BitVec 3) (m : BitVec 2) (y : BitVec 4) :=
  opLanes1 d a m y.toNat fun u => (tyFmt y.toNat).withSign u fun _ => false
def execVneg (d a : BitVec 3) (m : BitVec 2) (y : BitVec 4) :=
  opLanes1 d a m y.toNat fun u => (tyFmt y.toNat).withSign u fun n => !n
def execVcmpeq (d a b : BitVec 3) (m : BitVec 2) (y : BitVec 4) :=
  opLanes2 d a b m y.toNat fun u v => allOnesIf (tyWidth y.toNat) ((tyFmt y.toNat).compare u v (· == 0))
def execVcmplt (d a b : BitVec 3) (m : BitVec 2) (y : BitVec 4) :=
  opLanes2 d a b m y.toNat fun u v => allOnesIf (tyWidth y.toNat) ((tyFmt y.toNat).compare u v (· == -1))
def execVcmple (d a b : BitVec 3) (m : BitVec 2) (y : BitVec 4) :=
  opLanes2 d a b m y.toNat fun u v => allOnesIf (tyWidth y.toNat) ((tyFmt y.toNat).compare u v (· != 1))
/-- VSEL copies bits (R123). -/
def execVsel (d a b c : BitVec 3) (m : BitVec 2) (y : BitVec 4) :=
  opLanes3 d a b c m y.toNat fun u v w => if w = 0 then v else u
def execVdiv (d a b : BitVec 3) (m : BitVec 2) (y : BitVec 4) (r : BitVec 3) :=
  opLanes2 d a b m y.toNat ((tyFmt y.toNat).div r.toNat)
def execVsqrt (d a : BitVec 3) (m : BitVec 2) (y : BitVec 4) (r : BitVec 3) :=
  opLanes1 d a m y.toNat ((tyFmt y.toNat).sqrt r.toNat)

/-! ### Special functions (R124, R201) -/

def execVexp2 (d a : BitVec 3) (m : BitVec 2) (y : BitVec 4) (r : BitVec 3) :=
  opLanes1 d a m y.toNat ((tyFmt y.toNat).exp2 r.toNat)
def execVlog2 (d a : BitVec 3) (m : BitVec 2) (y : BitVec 4) (r : BitVec 3) :=
  opLanes1 d a m y.toNat ((tyFmt y.toNat).log2 r.toNat)
def execVrcp (d a : BitVec 3) (m : BitVec 2) (y : BitVec 4) (r : BitVec 3) :=
  opLanes1 d a m y.toNat ((tyFmt y.toNat).rcp r.toNat)
def execVrsq (d a : BitVec 3) (m : BitVec 2) (y : BitVec 4) (r : BitVec 3) :=
  opLanes1 d a m y.toNat ((tyFmt y.toNat).rsqrt r.toNat)
def execVexp (d a : BitVec 3) (m : BitVec 2) (y : BitVec 4) (r : BitVec 3) :=
  opLanes1 d a m y.toNat ((tyFmt y.toNat).exp r.toNat)

/-! ### Integer lanes (R193) -/

def execViadd (d a b : BitVec 3) (m : BitVec 2) (y : BitVec 4) := opLanes2 d a b m y.toNat fun u v => u + v
def execVisub (d a b : BitVec 3) (m : BitVec 2) (y : BitVec 4) :=
  opLanes2 d a b m y.toNat fun u v => u + 2 ^ tyWidth y.toNat - v
def execVimul (d a b : BitVec 3) (m : BitVec 2) (y : BitVec 4) := opLanes2 d a b m y.toNat fun u v => u * v
def execVimad (d a b c : BitVec 3) (m : BitVec 2) (y : BitVec 4) :=
  opLanes3 d a b c m y.toNat fun u v w => u * v + w
def execVand (d a b : BitVec 3) (m : BitVec 2) (y : BitVec 4) := opLanes2 d a b m y.toNat fun u v => u &&& v
def execVor (d a b : BitVec 3) (m : BitVec 2) (y : BitVec 4) := opLanes2 d a b m y.toNat fun u v => u ||| v
def execVxor (d a b : BitVec 3) (m : BitVec 2) (y : BitVec 4) := opLanes2 d a b m y.toNat fun u v => u ^^^ v
def execVshl (d a b : BitVec 3) (m : BitVec 2) (y : BitVec 4) :=
  opLanes2 d a b m y.toNat fun u v => u * 2 ^ (v % tyWidth y.toNat)
def execVshr (d a b : BitVec 3) (m : BitVec 2) (y : BitVec 4) :=
  opLanes2 d a b m y.toNat fun u v => u / 2 ^ (v % tyWidth y.toNat)
def execVsra (d a b : BitVec 3) (m : BitVec 2) (y : BitVec 4) :=
  opLanes2 d a b m y.toNat fun u v =>
    intBits (tyWidth y.toNat) (signedElem (tyWidth y.toNat) u / 2 ^ (v % tyWidth y.toNat))
def execVimin (d a b : BitVec 3) (m : BitVec 2) (y : BitVec 4) :=
  opLanes2 d a b m y.toNat fun u v =>
    if signedElem (tyWidth y.toNat) v < signedElem (tyWidth y.toNat) u then v else u
def execVimax (d a b : BitVec 3) (m : BitVec 2) (y : BitVec 4) :=
  opLanes2 d a b m y.toNat fun u v =>
    if signedElem (tyWidth y.toNat) u < signedElem (tyWidth y.toNat) v then v else u
def execVicmpeq (d a b : BitVec 3) (m : BitVec 2) (y : BitVec 4) :=
  opLanes2 d a b m y.toNat fun u v => allOnesIf (tyWidth y.toNat) (u == v)
def execVicmplt (d a b : BitVec 3) (m : BitVec 2) (y : BitVec 4) :=
  opLanes2 d a b m y.toNat fun u v =>
    allOnesIf (tyWidth y.toNat) (decide (signedElem (tyWidth y.toNat) u < signedElem (tyWidth y.toNat) v))
/-- VIDOT4: lane i is c plus the sum of the four products of INT8 elements, wrapped. -/
def execVidot4 (d a b c : BitVec 3) (m : BitVec 2) :=
  opLanes d m 32 fun sl i =>
    let p := fun j => signedElem 8 (elemOf (sl.w a.toNat) 8 (4 * i + j)) * signedElem 8 (elemOf (sl.w b.toNat) 8 (4 * i + j))
    intBits 32 (signedElem 32 (elemOf (sl.w c.toNat) 32 i) + p 0 + p 1 + p 2 + p 3)

end Sys2Proof.Machine
end

