-- ==== Sys2Proof/Machine/Conv.lean ====
section
/-!
DEFINITION. Format codes and descriptors (R114 to R120) and the conversions of VCVT (R194 to R200).
-/

namespace Sys2Proof.Machine

/-! ### Descriptors (R114 to R116) -/

/-- CODE, BS and TADDR of a descriptor (R115). -/
def descCode (v : Nat) : Nat := v % 256
def descBs (v : Nat) : Bool := v.testBit 8
def descTaddr (v : Nat) : Nat := v / 2 ^ 16

/-- An assigned format code (R114). -/
def codeAssigned (c : Nat) : Bool := decide (1 ≤ c ∧ c ≤ 9) || c == 0x10 || c == 0x11
def codeIsTable (c : Nat) : Bool := c == 0x10 || c == 0x11

/-- A descriptor is valid for an instruction that accepts the codes `acc` (R116). -/
def descOk (v : Nat) (acc : Nat → Bool) : Bool :=
  let c := descCode v
  codeAssigned c && nbits v 15 9 == 0 &&
  !(descBs v && (c == 1 || c == 2 || c == 3 || c == 7)) &&
  (if codeIsTable c then nbits v 25 16 == 0 else descTaddr v == 0) &&
  acc c

/-- The width of a code in bits. -/
def codeWidth (c : Nat) : Nat :=
  match c with
  | 1 => 32
  | 2 | 3 => 16
  | 8 | 9 | 0x11 => 4
  | _ => 8

/-- A slot has claimed decode table t, 0 A or 1 B (R208). -/
def cfgTable (cfg t : Nat) : Bool := cfg.testBit (20 + t)
/-- A slot has claimed tile t (R208). -/
def cfgTile (cfg t : Nat) : Bool := cfg.testBit (16 + t)

/-- Entry c of a core's decode table t (R117). -/
def Core.entry (c : Core) (t k : Nat) : Nat := mapGet c.tables 0 (256 * t + k)

/-! ### Decoding and encoding codes (R118 to R120) -/

/-- The value of a code in a format (R111, R118); `tab` is the decode table that the operand names. -/
def decodeCode (f : Nat) (tab : Nat → Nat) (c : Nat) : Fv :=
  match f with
  | 2 => bf16.decode c
  | 3 => fp16.decode c
  | 4 => if c % 128 = 127 then .nan else e4m3.value (decide (128 ≤ c)) (c / 8 % 16) (c % 8)
  | 5 => e5m2.decode c
  | 6 => .ofInt (signedElem 8 c)
  | 7 => .ofInt c
  | 8 => e2m1.value (decide (8 ≤ c)) (c / 2 % 4) (c % 2)
  | 9 => .ofInt (signedElem 4 c)
  | 0x10 => e8m10.decode (tab c)
  | _ => e8m10.decode (tab (c % 16))

/-- FP32 encoded in a built-in format (R119). -/
def encodeBuiltin (f rm : Nat) (v : Fv) : Nat :=
  match f with
  | 2 => bf16.round rm v
  | 3 => fp16.round rm v
  | 4 => e4m3.encodeSat 0x7E 0x7F rm v
  | 5 => e5m2.round rm v
  | 6 => intBits 8 (v.toIntClamp rm (-128) 127)
  | 7 => intBits 8 (v.toIntClamp rm 0 255)
  | 8 => e2m1.encodeSat 7 0 rm v
  | _ => intBits 4 (v.toIntClamp rm (-8) 7)

/-- The magnitude of a value, +∞ for a NaN: key(c) and |v| of R120. -/
def Fv.magnitude : Fv → Fv
  | .nan => .inf false
  | .inf _ => .inf false
  | .fin _ m e => .fin false m e

/-- a ≤ b of magnitudes. -/
def Fv.le (a b : Fv) : Bool := a.cmp b != 1

/-- The search of R120 between lo and hi. -/
def tableSearch (key : Nat → Fv) (a : Fv) (lo hi : Nat) : Nat → Nat
  | 0 => lo
  | n + 1 =>
    if lo < hi then
      let mid := (lo + hi + 1) / 2
      if (key mid).le a then tableSearch key a mid hi n else tableSearch key a lo (mid - 1) n
    else lo

/-- R120: a value encoded through a table whose halves have h codes. The nearer of key(c) and key(c + 1) is found by comparing their sum with
twice the magnitude. -/
def encodeTable (h : Nat) (tab : Nat → Nat) (v : Fv) : Nat :=
  if v.isNan then ((List.range (2 * h)).find? fun c => (e8m10.decode (tab c)).isNan).getD 0
  else
    let key := fun c => (e8m10.decode (tab c)).magnitude
    let a := v.magnitude
    let c :=
      if a.cmp (key 0) = -1 then 0
      else
        let c := tableSearch key a 0 (h - 1) 8
        if c < h - 1 && (key c).le a then
          let cmp := (Fv.add false (key c) (key (c + 1))).cmp (Fv.add false a a)
          if cmp = -1 ∨ (cmp = 0 ∧ c % 2 = 1) then c + 1 else c
        else c
    if v.sign then c + h else c

/-! ### VCVT (R195) -/

/-- One element converted from type c to type y. -/
def convertElem (y c rm x : Nat) : Nat :=
  match y, c with
  | 1, _ => bf16.round rm (fp32.decode x)
  | 2, _ => fp16.round rm (fp32.decode x)
  | 4, 5 => intBits 16 (signedElem 8 x)
  | 4, _ => intBits 16 (clampInt (-2 ^ 15) (2 ^ 15 - 1) (signedElem 32 x))
  | 5, _ => intBits 8 (clampInt (-2 ^ 7) (2 ^ 7 - 1) (signedElem 16 x))
  | 0, 1 => fp32.round 0 (bf16.decode x)
  | 0, 2 => fp32.round 0 (fp16.decode x)
  | 0, _ => fp32.round rm (.ofInt (signedElem 32 x))
  | 3, 4 => intBits 32 (signedElem 16 x)
  | 3, _ => intBits 32 ((fp32.decode x).toIntClamp rm (-2 ^ 31) (2 ^ 31 - 1))
  | _, _ => x

/-- R195: a narrowing takes wa and then wb, a widening half H of wa, and any other form element e of wa. -/
def execVcvt (d a b c : BitVec 3) (m : BitVec 2) (y : BitVec 4) (r : BitVec 3) :=
  let wd := tyWidth y.toNat
  let ws := tyWidth c.toNat
  opLanes d m wd fun sl e =>
    let n := 4096 / ws
    let x :=
      if wd < ws then
        if e < n then elemOf (sl.w a.toNat) ws e else elemOf (sl.w b.toNat) ws (e - n)
      else if ws < wd then elemOf (sl.w a.toNat) ws (b.toNat * (4096 / wd) + e)
      else elemOf (sl.w a.toNat) ws e
    convertElem y.toNat c.toNat r.toNat x

/-! ### VDEC and VENC (R196, R197, R210) -/

/-- The descriptor that field c of VDEC or VENC names, and its number. -/
def Slot.desc (sl : Slot) (c : Nat) : Nat :=
  match c with
  | 0 => sl.fa.toNat
  | 1 => sl.fb.toNat
  | _ => sl.fc.toNat
def descNumber (c : Nat) : Word := BitVec.ofNat 64 (0x20 + c)

/-- The descriptor is valid for VDEC and VENC, and its table, if it names one, is claimed by the slot (R196, R210). -/
def Slot.codeOk (sl : Slot) (c : Nat) : Bool :=
  let v := sl.desc c
  descOk v (fun k => decide (4 ≤ k)) &&
  (!codeIsTable (descCode v) || (decide (c ≤ 1) && cfgTable sl.mcfg.toNat c))

/-- The checks of R196 in their order, for a word `w`. -/
def State.withCode (s : State) (w : Word) (c g rm : Nat) (go : State → State) : State :=
  let f := descCode (s.me.desc c)
  if !s.me.codeOk c then s.trapWith 0x15 (descNumber c)
  else if 32 / codeWidth f ≤ g then s.trapWith 0x01 w
  else if codeIsTable f && rm != 0 then s.trapWith 0x01 w
  else go s

def execVdec (d a b c : BitVec 3) (m : BitVec 2) (s : State) : Host.Outcome State Fault Refusal :=
  done (issue [] [] (fun s =>
    s.withCode (wordOf (.vdec d a b c m)) c.toNat b.toNat 0 fun s =>
      let core := s.core (slotCore s.cur)
      (s.updMe fun sl =>
        let f := descCode (sl.desc c.toNat)
        let k := codeWidth f
        sl.setW d.toNat (mapElems 32 (sl.m m.toNat) (sl.w d.toNat) fun i =>
          fp32.round 0 (decodeCode f (core.entry c.toNat) (elemOf (sl.w a.toNat) k (b.toNat * 128 + i))))).retire 4) s)

def execVenc (d a b c : BitVec 3) (m : BitVec 2) (r : BitVec 3) (s : State) : Host.Outcome State Fault Refusal :=
  done (issue [] [] (fun s =>
    s.withCode (wordOf (.venc d a b c m r)) c.toNat b.toNat r.toNat fun s =>
      let core := s.core (slotCore s.cur)
      (s.updMe fun sl =>
        let f := descCode (sl.desc c.toNat)
        let k := codeWidth f
        let base := b.toNat * 128
        sl.setW d.toNat (ofElems k ((List.range (4096 / k)).map fun n =>
          if decide (base ≤ n ∧ n < base + 128) && (sl.m m.toNat).getLsbD (n - base) then
            let v := fp32.decode (elemOf (sl.w a.toNat) 32 (n - base))
            if codeIsTable f then encodeTable (if f = 0x10 then 128 else 8) (core.entry c.toNat) v
            else encodeBuiltin f r.toNat v
          else elemOf (sl.w d.toNat) k n))).retire 4) s)

/-! ### VSCL, VQNT, VSGN1 (R198 to R200) -/

/-- The value of an E8M0 scale (R112). -/
def scaleValue (e : Nat) : Fv := if e = 255 then .nan else .fin false 1 (e - 127)

def execVscl (d a b c : BitVec 3) (m : BitVec 2) (r : BitVec 3) :=
  opLanes d m 32 fun sl i =>
    fp32.round r.toNat (Fv.mul (fp32.decode (elemOf (sl.w a.toNat) 32 i))
      (scaleValue (elemOf (sl.w b.toNat) 8 (4 * c.toNat + i / 32))))

/-- R199: element G × 128 + i of wd from lane i. -/
def execVqnt (d a b c : BitVec 3) (m : BitVec 2) (y : BitVec 4) (r : BitVec 3) (s : State) :
    Host.Outcome State Fault Refusal :=
  let w := tyWidth y.toNat
  let base := c.toNat * 128
  done (issue [] [] (fun s =>
    (s.updMe fun sl =>
      sl.setW d.toNat (ofElems w ((List.range (4096 / w)).map fun n =>
        if decide (base ≤ n ∧ n < base + 128) && (sl.m m.toNat).getLsbD (n - base) then
          let i := n - base
          intBits w ((Fv.mul (fp32.decode (elemOf (sl.w a.toNat) 32 i)) (fp32.decode (elemOf (sl.w b.toNat) 32 i))).toIntClamp
            r.toNat (-(2 ^ (w - 1) : Nat)) ((2 ^ (w - 1) : Nat) - 1))
        else elemOf (sl.w d.toNat) w n))).retire 4) s)

/-- R200: the sign bits go to bits 0 to 127 of wd, and the errors to wb. -/
def execVsgn1 (d a b c : BitVec 3) (m : BitVec 2) (s : State) : Host.Outcome State Fault Refusal :=
  done (issue [] [] (fun s =>
    (s.updMe fun sl =>
      let alpha := elemOf (sl.w c.toNat) 32 0
      let sum := fun i => fp32.add 0 (elemOf (sl.w a.toNat) 32 i) (elemOf (sl.w b.toNat) 32 i)
      let bit := fun i => decide (2 ^ 31 ≤ sum i)
      let q := fun i => if bit i then (fp32.decode alpha).neg else fp32.decode alpha
      let err := mapElems 32 (sl.m m.toNat) (sl.w b.toNat) fun i =>
        fp32.round 0 (Fv.add false (fp32.decode (sum i)) (q i).neg)
      let bits := ofElems 1 ((List.range 4096).map fun n =>
        if decide (n < 128) && (sl.m m.toNat).getLsbD n then (bit n).toNat else elemOf (sl.w d.toNat) 1 n)
      (sl.setW b.toNat err).setW d.toNat bits).retire 4) s)

end Sys2Proof.Machine
end

