-- ==== Sys2Proof/Machine/Matrix.lean ====
section
/-!
DEFINITION. The matrix engine (R207 to R227): configuration and claims, queued commands, pinned lines, saving and restoring.

A queued command takes its effect step by step: a step of R125 in each cycle on the array (R227), a row of MOUT or MIN at a free cycle (log 5).
-/

namespace Sys2Proof.Machine

/-! ### Configuration (R208) -/

def cfgM (g : Nat) : Nat := nbits g 6 0
def cfgN (g : Nat) : Nat := nbits g 13 7
def cfgK (g : Nat) : Nat := nbits g 47 32
/-- The six resources of a configuration word: tiles 0 to 3, tables A and B. -/
def cfgClaim (g r : Nat) : Bool := if r < 4 then cfgTile g r else cfgTable g (r - 4)

/-- A configuration word that R214 accepts. -/
def cfgValid (g : Nat) : Bool :=
  nbits g 63 48 == 0 && nbits g 31 22 == 0 && nbits g 15 14 == 0 &&
  decide (0 < cfgM g ∧ cfgM g ≤ 96) && decide (0 < cfgN g ∧ cfgN g ≤ 96) && decide (0 < cfgK g)

/-- The configuration that a slot starts with (R208, R209): M, N and K 96, nothing claimed. -/
def cfgReset : Nat := 96 * 2 ^ 32 + 96 * 2 ^ 7 + 96

/-- Resource r is claimed by a slot of the core other than `id` (R207). -/
def State.claimedElsewhere (s : State) (id r : Nat) : Bool :=
  s.slots.any fun (k, sl) => k != id && k / 16 == id / 16 && cfgClaim sl.mcfg.toNat r

/-- Tile t with every element +0, and table t with every entry +0 (R214, R219). -/
def Core.clearTile (c : Core) (t : Nat) : Core :=
  { c with tiles := (List.range 96).foldl (fun m i => mapDel m (96 * t + i)) c.tiles }
def Core.clearTable (c : Core) (t : Nat) : Core :=
  { c with tables := (List.range 256).foldl (fun m i => mapDel m (256 * t + i)) c.tables }
def Core.clearResource (c : Core) (r : Nat) : Core := if r < 4 then c.clearTile r else c.clearTable (r - 4)
def Core.setTable (c : Core) (t : Nat) (es : List Nat) : Core :=
  { c with tables := es.zipIdx.foldl (fun m (e, i) => mapPut m (256 * t + i) e) c.tables }

/-- Element (i, j) of a tile, and row i written from its 96 elements. -/
def Core.element (c : Core) (t i j : Nat) : Nat := (mapGet c.tiles 0 (96 * t + i)).toNat / 2 ^ (32 * j) % 2 ^ 32
def Core.setRow (c : Core) (t i : Nat) (f : Nat → Nat) : Core :=
  let row := (List.range 96).foldr (fun j acc => f j % 2 ^ 32 + 2 ^ 32 * acc) 0
  { c with tiles := mapPut c.tiles (96 * t + i) (BitVec.ofNat 3072 row) }

/-! ### Starting commands (R213, R227) -/

/-- MMA and MMAS run on the array, the other commands on the accumulator port (R213). -/
def MCmd.array (c : MCmd) : Bool := c.fn == 2 || c.fn == 3
def MCmd.tile (c : MCmd) : Nat := c.ctl % 4

/-- The steps' size g of R218. -/
def stepSize (code : Nat) : Nat :=
  match codeWidth code with
  | 16 => 1
  | 8 => 2
  | _ => 4
def MCmd.step (c : MCmd) : Nat := min (stepSize (descCode c.fa)) (stepSize (descCode c.fb))
/-- How many steps a command of the array has; it occupies the array for one cycle each (R227). -/
def MCmd.steps (c : MCmd) : Nat := (cfgK c.cfg + c.step - 1) / c.step

/-- A command may start: no earlier one holds its tile, or its unit (R213). -/
def mcmdFree (before : List MCmd) (c : MCmd) : Bool :=
  before.all fun b => b.tile != c.tile && (b.array != c.array)

/-- Start every command that may start. -/
def State.startMatrixFrom (s : State) (core : Nat) (before : List MCmd) : List MCmd → State
  | [] => s.updCore core fun c => { c with mq := before }
  | c :: l =>
    if c.due = 0 && mcmdFree before c then
      let (n, s) := s.draw
      s.startMatrixFrom core (before ++ [{ c with due := s.cycle + 1 + n }]) l
    else s.startMatrixFrom core (before ++ [c]) l
def State.startMatrix (s : State) (core : Nat) : State := s.startMatrixFrom core [] (s.core core).mq

/-- The matrix commands of a slot that have not completed. -/
def State.matrixOut (s : State) (id : Nat) : List MCmd := (s.core (slotCore id)).mq.filter (·.slot == id)

/-- A command that has passed its checks takes a ticket and enters the queue; a fifth waits at issue (R213). That wait stands at the instruction
boundary: the slot takes a user interrupt or the supervisor timer event there, and the command reissues (log 47). -/
def State.queueMatrix (s : State) (fn : Nat) (a b ctl : Word) : State :=
  if 4 ≤ (s.matrixOut s.cur).length then s.wait .none
  else
    let (id, s) := s.newId
    let sl := s.me
    let c : MCmd := ⟨id, s.cur, fn, a.toNat, b.toNat, ctl.toNat, sl.mcfg.toNat, sl.fa.toNat, sl.fb.toNat, sl.fc.toNat, sl.sa.toNat,
      sl.sb.toNat, sl.ticket 1 fn, sl.pc, sl.world, sl.asid, sl.mode, 0, 0, []⟩
    let core := slotCore s.cur
    (((s.updMe Slot.takeTicket).updCore core fun k => { k with mq := k.mq ++ [c] }).startMatrix core).retire 4

/-! ### MCFG (R214) -/

/-- A decode table's 256 entries read from memory as a slot's plain loads (R90, R214); they lie in one line. -/
def State.readTable (s : State) (id va : Nat) : State × Except Stop (List Nat) :=
  match s.checkRange id va 1024 .read false 2 with
  | (s, .error t) => (s, .error t)
  | (s, .ok l) =>
    if s.spansClash l then (s, .error .busy)
    else
      match s.readSpans id l with
      | (s, .error (v, loc)) => (s.dataRec id loc 1 v, .error (.trap ⟨0x09, BitVec.ofNat 64 v, false⟩))
      | (s, .ok bs) =>
        let w := bytesNat bs
        (s, .ok ((List.range 256).map fun k => w / 2 ^ (32 * k) % 2 ^ 32))

/-- The address of the first entry with a nonzero bit in [31:19] (R117, R331). -/
def badEntry (va : Nat) (es : List Nat) : Option Nat :=
  (es.zipIdx.find? fun (e, _) => decide (2 ^ 19 ≤ e)).map fun (_, i) => va + 4 * i

/-- The last steps of R214: claims, releases, the configuration and the tables to load. -/
def State.applyCfg (s : State) (g : Nat) (ta tb : Option (List Nat)) : State :=
  let core := slotCore s.cur
  let old := s.me.mcfg.toNat
  let s := s.updCore core fun c =>
    let c := (List.range 6).foldl (fun c r => if cfgClaim g r && !cfgClaim old r then c.clearResource r else c) c
    let c := match ta with | some es => c.setTable 0 es | none => c
    match tb with | some es => c.setTable 1 es | none => c
  s.updMe fun sl => { sl with mcfg := BitVec.ofNat 64 g }

/-- A table to be loaded or none, with its descriptor's checks (R214). -/
def State.fetchTable (s : State) (wanted : Bool) (d : Nat) : State × Except Stop (Option (List Nat)) :=
  if wanted then
    match s.readTable s.cur (descTaddr d) with
    | (s, .error t) => (s, .error t)
    | (s, .ok es) => (s, .ok (some es))
  else (s, .ok none)

/-- R214 after its wait: the checks in their order, then the effect, and `go` on. -/
def State.configure (s : State) (w : Word) (g f : Nat) (go : State → State) : State :=
  let sl := s.me
  let la := f.testBit 0
  let lb := f.testBit 1
  if !cfgValid g then s.trapWith 0x01 w
  else if (List.range 6).any (fun r => cfgClaim g r && s.claimedElsewhere s.cur r) then s.trapWith 0x07 0
  else if (la && !cfgTable g 0) || (lb && !cfgTable g 1) then s.trapWith 0x07 0
  else if la && !descOk sl.fa.toNat codeIsTable then s.trapWith 0x15 0x20
  else if lb && !descOk sl.fb.toNat codeIsTable then s.trapWith 0x15 0x21
  else
    match s.fetchTable la sl.fa.toNat with
    | (s, .error t) => s.stopped t
    | (s, .ok ta) =>
      match s.fetchTable lb sl.fb.toNat with
      | (s, .error t) => s.stopped t
      | (s, .ok tb) =>
        match (ta.bind (badEntry (descTaddr sl.fa.toNat))).or (tb.bind (badEntry (descTaddr sl.fb.toNat))) with
        | some a => s.trapWith 0x15 (BitVec.ofNat 64 a)
        | none => go (s.applyCfg g ta tb)

def execMcfg (a b : BitVec 7) (s : State) : Host.Outcome State Fault Refusal :=
  done (issue [a, b] [a, b] (fun s =>
    if (s.matrixOut s.cur).isEmpty then
      s.configure (wordOf (.mcfg a b)) (s.x a.toNat).toNat (s.x b.toNat).toNat (·.retire 4)
    else s.wait .none) s)

/-! ### Queued commands (R218 to R221) -/

/-- An operand descriptor of MMA or MMAS is valid (row 2 of R218), and its table is claimed (row 3). -/
def operandOk (d : Nat) (scaled : Bool) : Bool := descOk d (fun c => c != 1) && (scaled || !descBs d)
def tableClaimed (cfg d t : Nat) : Bool := !codeIsTable (descCode d) || cfgTable cfg t

def opMma (fn : Nat) (a b c : BitVec 7) (s : State) : Host.Outcome State Fault Refusal :=
  done (issue [a, b, c] [a, b, c] (fun s =>
    let sl := s.me
    let cfg := sl.mcfg.toNat
    let va := s.x a.toNat
    let vb := s.x b.toNat
    let ctl := s.x c.toNat
    if !operandOk sl.fa.toNat (fn == 3) then s.trapWith 0x15 0x20
    else if !operandOk sl.fb.toNat (fn == 3) then s.trapWith 0x15 0x21
    else if !tableClaimed cfg sl.fa.toNat 0 then s.trapWith 0x15 0x20
    else if !tableClaimed cfg sl.fb.toNat 1 then s.trapWith 0x15 0x21
    else if !cfgTile cfg (ctl.toNat % 4) then s.trapWith 0x07 0
    else if 2 ^ 47 ≤ va.toNat then s.trapWith 0x05 va
    else if 2 ^ 47 ≤ vb.toNat then s.trapWith 0x05 vb
    else if va.toNat % 16 ≠ 0 then s.trapWith 0x04 va
    else if vb.toNat % 16 ≠ 0 then s.trapWith 0x04 vb
    else s.queueMatrix fn va vb ctl) s)

def execMma (a b c : BitVec 7) := opMma 2 a b c
def execMmas (a b c : BitVec 7) := opMma 3 a b c

def execMzero (c : BitVec 7) (s : State) : Host.Outcome State Fault Refusal :=
  done (issue [c] [c] (fun s =>
    let ctl := s.x c.toNat
    if !cfgTile s.me.mcfg.toNat (ctl.toNat % 4) then s.trapWith 0x07 0 else s.queueMatrix 1 0 0 ctl) s)

/-- The stride and address checks of MOUT and MIN (R220). -/
def State.withRows (s : State) (w va stride : Word) (go : State → State) : State :=
  if stride.toNat = 0 ∨ 2 ^ 20 ≤ stride.toNat ∨ stride.toNat % 8 ≠ 0 then s.trapWith 0x01 w
  else if 2 ^ 47 ≤ va.toNat then s.trapWith 0x05 va
  else if va.toNat % 8 ≠ 0 then s.trapWith 0x04 va
  else go s

def execMout (a b c : BitVec 7) (s : State) : Host.Outcome State Fault Refusal :=
  done (issue [a, b, c] [a, b, c] (fun s =>
    let sl := s.me
    let w := wordOf (.mout a b c)
    let ctl := s.x c.toNat
    let table := descCode sl.fc.toNat == 0x10
    if !cfgTile sl.mcfg.toNat (ctl.toNat % 4) then s.trapWith 0x07 0
    else if !descOk sl.fc.toNat (fun k => decide (k ≤ 7) || k == 0x10) then s.trapWith 0x15 0x22
    else if table && !cfgTable sl.mcfg.toNat (nbits ctl.toNat 9 9) then s.trapWith 0x15 0x22
    else if table && nbits ctl.toNat 11 10 != 0 then s.trapWith 0x01 w
    else s.withRows w (s.x a.toNat) (s.x b.toNat) fun s => s.queueMatrix 4 (s.x a.toNat) (s.x b.toNat) ctl) s)

def execMin (a b c : BitVec 7) (s : State) : Host.Outcome State Fault Refusal :=
  done (issue [a, b, c] [a, b, c] (fun s =>
    let ctl := s.x c.toNat
    if !cfgTile s.me.mcfg.toNat (ctl.toNat % 4) then s.trapWith 0x07 0
    else s.withRows (wordOf (.min a b c)) (s.x a.toNat) (s.x b.toNat) fun s =>
      s.queueMatrix 5 (s.x a.toNat) (s.x b.toNat) ctl) s)

/-! ### What a command does (R125, R216 to R222) -/

/-- Bytes of a panel or scale fetched for a command: creel SRAM, or a pinned DRAM line of its home slice (R217, R377). -/
def State.fetchOperand (s : State) (c : MCmd) (va n : Nat) : State × Except EStop Nat :=
  match s.engineCheck (unitReq c.id) c.slot va n .read false with
  | (s, .error e) => (s, .error e)
  | (s, .ok p) =>
    let key := s.slotKey c.slot
    match p.home with
    | none =>
      match s.firstBad p.gpa n with
      | some k => (s, .error (.fault ⟨5, va + k, p.gpa + k⟩))
      | none => (s.correct p.gpa n va 1, .ok (s.readAs key p.gpa n))
    | some h =>
      match s.l2Find (coreAt (slotLin c.slot) h) p.gpa with
      | some (_, l) =>
        if l.pins = 0 then (s, .error (.fault ⟨4, va, p.gpa⟩))
        else
          let s := s.ensure p.gpa p.hk p.hm p.home c.world.toNat
          let loc := s.dataLoc p.gpa p.home
          match s.firstBad loc n with
          | some k => (s, .error (.fault ⟨5, va + k, p.gpa + k⟩))
          | none => (s.correct loc n va 1, .ok (s.readAs key loc n))
      | none => (s, .error (.fault ⟨4, va, p.gpa⟩))

/-- The code of element r of step k of a panel (R215). -/
def State.fetchCode (s : State) (c : MCmd) (panel code k r : Nat) : State × Except EStop Nat :=
  match codeWidth code with
  | 16 => s.fetchOperand c (panel + 192 * k + 2 * r) 2
  | 8 => s.fetchOperand c (panel + 96 * k + r) 1
  | _ =>
    match s.fetchOperand c (panel + 48 * k + r / 2) 1 with
    | (s, .ok v) => (s, .ok (v / 16 ^ (r % 2) % 16))
    | (s, .error e) => (s, .error e)

/-- The scale byte of row r for step k of an MMAS (R218): it is read at the first step of its block of 32 and held for the others, since a command
reads a word once, old or new (R322). -/
def State.fetchScale (s : State) (c : MCmd) (isB : Bool) (k r : Nat) : State × Except EStop Nat :=
  let key := 96 * isB.toNat + r
  let core := slotCore c.slot
  if k % 32 = 0 then
    match s.fetchOperand c ((if isB then c.sb else c.sa) + 96 * (nbits c.ctl 63 48 + k / 32) + r) 1 with
    | (s, .ok e) =>
      (s.updCore core fun q => { q with mq := q.mq.map fun b => if b.id == c.id then { b with scales := mapPut b.scales key e } else b }, .ok e)
    | (s, .error e) => (s, .error e)
  else (s, .ok (match (s.core core).mq.find? (·.id == c.id) with | some b => mapGet b.scales 0 key | none => 0))

/-- One operand of a step, decoded and scaled (R118, R218). -/
def State.fetchElem (s : State) (c : MCmd) (isB : Bool) (k r : Nat) : State × Except EStop Fv :=
  let d := if isB then c.fb else c.fa
  let code := descCode d
  let table := (s.core (slotCore c.slot)).entry (if isB then 1 else 0)
  match s.fetchCode c (if isB then c.b else c.a) code k r with
  | (s, .error e) => (s, .error e)
  | (s, .ok v) =>
    let x := decodeCode code table v
    if c.fn == 3 && descBs d then
      match s.fetchScale c isB k r with
      | (s, .ok e) => (s, .ok (Fv.mul x (scaleValue e)))
      | (s, .error e) => (s, .error e)
    else (s, .ok x)

/-- The operands of steps k of a group for rows r < n, each as (k, r, value). -/
def State.fetchGroup (s : State) (c : MCmd) (isB : Bool) : List (Nat × Nat) → State × Except EStop (List (Nat × Nat × Fv))
  | [] => (s, .ok [])
  | (k, r) :: l =>
    match s.fetchElem c isB k r with
    | (s, .error e) => (s, .error e)
    | (s, .ok v) =>
      match s.fetchGroup c isB l with
      | (s, .error e) => (s, .error e)
      | (s, .ok vs) => (s, .ok ((k, r, v) :: vs))

def groupVal (l : List (Nat × Nat × Fv)) (k r : Nat) : Fv :=
  match l.find? fun (k', r', _) => k' == k && r' == r with
  | some (_, _, v) => v
  | none => .fin false 0 0

/-- R125: one step of the accumulation into element t for the steps ks. -/
def mmaStep (ks : List Nat) (a b : List (Nat × Nat × Fv)) (i j t : Nat) : Nat :=
  let sum := ks.foldl (fun acc k => Fv.add false acc (Fv.mul (groupVal a k i) (groupVal b k j))) (.fin false 0 0)
  fp32.round 0 (Fv.add false (fp32.decode t) sum)

/-- R218: step `st`. A fault leaves the sum of the steps before it (R222). Where several operands of a step fault, the first is recorded in the
order A before B, k before row (log 48). -/
def State.mmaAt (s : State) (c : MCmd) (st : Nat) : State × Except EStop Unit :=
  let g := c.step
  let ks := (List.range g).filterMap fun i => if g * st + i < cfgK c.cfg then some (g * st + i) else none
  let pairs := fun m => ks.flatMap fun k => (List.range m).map fun r => (k, r)
  match s.fetchGroup c false (pairs (cfgM c.cfg)) with
  | (s, .error e) => (s, .error e)
  | (s, .ok a) =>
    match s.fetchGroup c true (pairs (cfgN c.cfg)) with
    | (s, .error e) => (s, .error e)
    | (s, .ok b) =>
      (s.updCore (slotCore c.slot) fun k =>
        (List.range (cfgM c.cfg)).foldl (fun k i =>
          k.setRow c.tile i fun j =>
            if j < cfgN c.cfg then mmaStep ks a b i j (k.element c.tile i j) else k.element c.tile i j) k, .ok ())

/-- The rows of a MOUT or MIN (R220). -/
def MCmd.rows (c : MCmd) : List Nat :=
  let row0 := nbits c.ctl 22 16
  let count := nbits c.ctl 30 24
  let m := cfgM c.cfg
  let stop := if count = 0 then m else min (row0 + count) m
  (List.range (stop - row0)).map (row0 + ·)

/-- The code and its size in bytes that MOUT writes for an element (R119, R120, R220). -/
def MCmd.outCode (c : MCmd) (tab : Nat → Nat) (v : Nat) : Nat :=
  match descCode c.fc with
  | 1 => v
  | 0x10 => encodeTable 128 tab (fp32.decode v)
  | f => encodeBuiltin f (nbits c.ctl 11 10) (fp32.decode v)

/-- R220: a row of a MOUT. -/
def State.moutRow (s : State) (c : MCmd) (i : Nat) : State × Except EStop Unit :=
  let sz := codeWidth (descCode c.fc) / 8
  let n := cfgN c.cfg
  match s.engineSpans (unitReq c.id) c.slot (c.a + i * c.b) (n * sz) .write true 2 with
  | (s, .error e) => (s, .error e)
  | (s, .ok sp) =>
    match s.spansEdgeBad sp with
    | some (v, b) => (s.foundBad b 16, .error (.fault ⟨5, v, s.badUnitIn b 16⟩))
    | none =>
      let core := s.core (slotCore c.slot)
      let bs := (List.range n).flatMap fun j =>
        natBytes (c.outCode (core.entry (nbits c.ctl 9 9)) (core.element c.tile i j)) sz
      let s := s.writeFull c.slot bs sp
      (if c.ctl.testBit 12 then
        s.updCore (slotCore c.slot) fun k => k.setRow c.tile i fun j => if j < n then 0 else k.element c.tile i j
      else s, .ok ())

/-- R221: a row of a MIN. -/
def State.minRow (s : State) (c : MCmd) (i : Nat) : State × Except EStop Unit :=
  let bf := c.ctl.testBit 13
  let sz := if bf then 2 else 4
  let n := cfgN c.cfg
  match s.engineSpans (unitReq c.id) c.slot (c.a + i * c.b) (n * sz) .read true 2 with
  | (s, .error e) => (s, .error e)
  | (s, .ok sp) =>
    match s.readSpans c.slot sp with
    | (s, .error (v, loc)) => (s, .error (.fault ⟨5, v, locGpa loc⟩))
    | (s, .ok bs) =>
      let w := bytesNat bs
      let v := fun j => if bf then w / 2 ^ (16 * j) % 2 ^ 16 * 2 ^ 16 else w / 2 ^ (32 * j) % 2 ^ 32
      (s.updCore (slotCore c.slot) fun k =>
        k.setRow c.tile i fun j => if j < n then v j else k.element c.tile i j, .ok ())

/-- How many steps or rows a command has. -/
def MCmd.parts (c : MCmd) : Nat :=
  match c.fn with
  | 1 => 1
  | 4 | 5 => c.rows.length
  | _ => c.steps

/-- The next step or row of a queued command. -/
def State.matrixPart (s : State) (c : MCmd) : State × Except EStop Unit :=
  match c.fn with
  | 1 => (s.updCore (slotCore c.slot) (·.clearTile c.tile), .ok ())
  | 4 => match nth c.rows c.pos with | some i => s.moutRow c i | none => (s, .ok ())
  | 5 => match nth c.rows c.pos with | some i => s.minRow c i | none => (s, .ok ())
  | _ => s.mmaAt c c.pos

/-- A command has taken a step. -/
def State.stepMatrix (s : State) (core : Nat) (c : MCmd) (due : Nat) : State :=
  s.updCore core fun k => { k with mq := k.mq.map fun b => if b.id == c.id then { b with pos := c.pos + 1, due := due } else b }

/-- R213, R222: a command ends, and those it held up start. A fault is recorded and becomes pending (R333, R335). -/
def State.endMatrix (s : State) (core : Nat) (c : MCmd) (fault : Option EFault) : State :=
  let s := match fault with
    | some e =>
      let s := (s.acting c.slot c.world c.asid c.mode fun s => (s.engineRec c.slot 0x02 c.ticket c.pc e, ())).1
      s.addFailure c.slot ⟨c.ticket, 0x10, c.pc⟩
    | none => s
  let s := if c.ctl.testBit 8 then s.pendUser c.slot 3 else s
  (s.updCore core fun k => { k with mq := k.mq.filter (·.id != c.id) }).startMatrix core

/-- A command has a step to take now. -/
def State.matrixDue (s : State) (core : Nat) (c : MCmd) : Bool :=
  c.due != 0 && decide (c.due ≤ s.cycle) && !s.unitWaits (core / 32) (unitReq c.id)

/-- R213, R222, R227: the next step of a command: the command waits for a walk that it needs, goes on, or ends. -/
def execMatrixCommandComplete (core id : Nat) (s : State) : Host.Outcome State Fault Refusal :=
  done (match (s.core core).mq.find? (·.id == id) with
    | none => s
    | some c =>
      if !s.matrixDue core c then s
      else
        match s.acting c.slot c.world c.asid c.mode fun s => s.matrixPart c with
        | (s, .error .walk) => s
        | (s, .error (.fault e)) => s.endMatrix core c (some e)
        | (s, .ok _) =>
          if c.parts ≤ c.pos + 1 then s.endMatrix core c none
          else
            let (due, s) := if c.array then (s.cycle + 1, s) else s.laterCycle
            s.stepMatrix core c due)

/-! ### MSYNC (R225) -/

def execMsync (s : State) : Host.Outcome State Fault Refusal :=
  done (issue [] [] (fun s =>
    if (s.matrixOut s.cur).isEmpty then s.raiseFailure (fun f => ticketEngine f.ticket == 1) (·.retire 4)
    else s.wait .none) s)

/-! ### Pinned lines (R223, R224) -/

/-- A line in a slice as one number: core and line. -/
def lineId (core gpa : Nat) : Nat := core * 2 ^ 54 + gpa / 1024
def lineIdCore (n : Nat) : Nat := n / 2 ^ 54
def lineIdGpa (n : Nat) : Nat := n % 2 ^ 54 * 1024

/-- The lines that touch a range, each through its translation; the first failing address decides (R223). The form needs RD of each leaf, and U in
user mode, as a load does (log 49). -/
def State.pinPlaces (s : State) (id va stop : Nat) : Nat → State × Except Stop (List Place)
  | 0 => (s, .ok [])
  | n + 1 =>
    if stop ≤ va then (s, .ok [])
    else
      let v := BitVec.ofNat 64 va
      if 2 ^ 47 ≤ va then (s, .error (.trap ⟨0x05, v, false⟩))
      else
        match s.xlate id false va with
        | (s, none) => (s, .error (.miss false va))
        | (s, some e) =>
          if !isDram (lpaOf (e.phys (slotLin id) va).gpa) then (s, .error (.trap ⟨0x08, v, false⟩))
          else
            match s.checkPlace id va 1 .read false e with
            | .trap t => (s, .error (.trap t))
            | .miss => (s, .error (.miss false va))
            | .ok p =>
              match s.pinPlaces id (va / 1024 * 1024 + 1024) stop n with
              | (s, .error t) => (s, .error t)
              | (s, .ok ps) => (s, .ok (p :: ps))

def Place.lineId (p : Place) : Nat := Machine.lineId (coreAt (linOf p.gpa) (p.home.getD 0)) p.gpa

/-- The line of a number is resident and pinned. -/
def State.linePinned (s : State) (n : Nat) : Bool :=
  match s.l2Find (lineIdCore n) (lineIdGpa n) with
  | some (_, l) => l.pins != 0
  | none => false

/-- A set would hold more than 12 pinned ways once the lines `ids` are pinned (R223). -/
def State.pinsTooMany (s : State) (ids : List Nat) : Bool :=
  let fresh := ids.filter fun n => !s.linePinned n
  fresh.any fun n =>
    let core := lineIdCore n
    let set := l2Set (lineIdGpa n)
    let held := ((s.core core).l2.filter fun (k, l) => k / 16 == set && l.pins != 0).length
    let added := (fresh.filter fun m => lineIdCore m == core && l2Set (lineIdGpa m) == set).length
    12 < held + added

/-- Every sector of a line made valid and the line's count raised. -/
def State.pinLine (s : State) (p : Place) : State :=
  let g := p.gpa / 1024 * 1024
  let core := coreAt (linOf p.gpa) (p.home.getD 0)
  let s := (List.range 8).foldl (fun s i => s.l2Ensure core (g + 128 * i) p.hk p.hm s.me.world.toNat) s
  match s.l2Find core g with
  | some (w, _) => s.updLine core w fun l => { l with pins := l.pins + 1 }
  | none => s

/-- The places of distinct lines. -/
def distinctLines (ps : List Place) : List Place :=
  ps.foldl (fun acc p => if acc.any fun q => q.lineId == p.lineId then acc else acc ++ [p]) []

def execTfpin (a b c : BitVec 7) (s : State) : Host.Outcome State Fault Refusal :=
  done (issue [a, b, c] [a, b] (fun s =>
    let va := (s.x a.toNat).toNat
    let n := (s.x b.toNat).toNat
    if n = 0 ∨ 2 ^ 20 < n then s.trapWith 0x01 (wordOf (.tfpin a b c))
    else
      match s.pinPlaces s.cur va (va + n) (n / 1024 + 2) with
      | (s, .error t) => s.stopped t
      | (s, .ok ps) =>
        let ps := distinctLines ps
        let ids := ps.map Place.lineId
        match (List.range 8).find? fun k => (mapFind s.me.pins k).isNone with
        | none => s.finish c 2
        | some k =>
          if s.pinsTooMany ids then s.finish c 1
          else
            let s := ps.foldl State.pinLine s
            (s.updMe fun sl => { sl with pins := mapPut sl.pins k ⟨va, n, ids⟩ }).finish c 0) s)

/-- One line's count lowered. -/
def State.unpinLine (s : State) (n : Nat) : State :=
  match s.l2Find (lineIdCore n) (lineIdGpa n) with
  | some (w, _) => s.updLine (lineIdCore n) w fun l => { l with pins := l.pins - 1 }
  | none => s

/-- Every pin of a slot released (R209). -/
def State.unpinAll (s : State) (id : Nat) : State :=
  let s := (s.slot id).pins.foldl (fun s (_, p) => p.lines.foldl State.unpinLine s) s
  s.updSlot id fun sl => { sl with pins := [] }

/-- R224. Of two entries with the same start address the one of the lower position goes (log 50). -/
def execTfrel (a : BitVec 7) (s : State) : Host.Outcome State Fault Refusal :=
  done (issue [a] [a] (fun s =>
    if (s.matrixOut s.cur).isEmpty then
      match s.me.pins.find? fun (_, p) => p.base == (s.x a.toNat).toNat with
      | some (k, p) =>
        ((p.lines.foldl State.unpinLine s).updMe fun sl => { sl with pins := mapDel sl.pins k }).retire 4
      | none => s.retire 4
    else s.wait .none) s)

/-! ### MSAVE and MREST (R226) -/

/-- The selector's fields and the checks of R226: the claim, and the size of the area. -/
def selKind (v : Nat) : Nat := nbits v 1 0
def selSel (v : Nat) : Nat := nbits v 3 2
def selRow0 (v : Nat) : Nat := nbits v 14 8
def selRm1 (v : Nat) : Nat := nbits v 22 16
def selBytes (v : Nat) : Nat :=
  match selKind v with
  | 0 => (selRm1 v + 1) * 384
  | 1 => 64
  | _ => 1024
def selBad (v : Nat) : Bool :=
  match selKind v with
  | 0 => decide (95 < selRow0 v + selRm1 v)
  | 1 => false
  | 2 => decide (1 < selSel v)
  | _ => true
def selClaimed (cfg v : Nat) : Bool :=
  match selKind v with
  | 0 => cfgTile cfg (selSel v)
  | 2 => cfgTable cfg (selSel v)
  | _ => true

/-- The wait and the checks of MSAVE and MREST, and the area they move; the slot's own accesses to it come first (R90). -/
def State.withArea (s : State) (w va sel : Word) (need : Need) (go : List Span → State → State) : State :=
  let v := sel.toNat
  let busy := (s.matrixOut s.cur).any fun c => selKind v != 0 || c.tile == selSel v
  if busy then s.wait .none
  else if selBad v then s.trapWith 0x01 w
  else if !selClaimed s.me.mcfg.toNat v then s.trapWith 0x07 0
  else if va.toNat % 8 ≠ 0 then s.trapWith 0x04 va
  else
    match s.checkRange s.cur va.toNat (selBytes v) need true (pagesOf (selBytes v)) with
    | (s, .error t) => s.stopped t
    | (s, .ok sp) => if s.spansClash sp then s.wait .hold else go sp s

def execMsave (a b : BitVec 7) (s : State) : Host.Outcome State Fault Refusal :=
  done (issue [a, b] [a, b] (fun s =>
    let sel := s.x b.toNat
    s.withArea (wordOf (.msave a b)) (s.x a.toNat) sel .write fun sp s =>
      match s.spansEdgeBad sp with
      | some (v, g) => (s.dataRec s.cur g 16 v).trapWith 0x09 (BitVec.ofNat 64 v)
      | none =>
        let core := s.core (slotCore s.cur)
        let v := sel.toNat
        let bs := match selKind v with
          | 0 => (List.range (selRm1 v + 1)).flatMap fun i =>
              (List.range 96).flatMap fun j => natBytes (core.element (selSel v) (selRow0 v + i) j) 4
          | 1 => natBytes s.me.mcfg.toNat 64
          | _ => (List.range 256).flatMap fun k => natBytes (core.entry (selSel v) k) 4
        (s.writeSpans s.cur bs sp).retire 4) s)

def execMrest (a b : BitVec 7) (s : State) : Host.Outcome State Fault Refusal :=
  done (issue [a, b] [a, b] (fun s =>
    let sel := s.x b.toNat
    let w := wordOf (.mrest a b)
    let va := s.x a.toNat
    s.withArea w va sel .read fun sp s =>
      match s.readSpans s.cur sp with
      | (s, .error (v, loc)) => (s.dataRec s.cur loc 1 v).trapWith 0x09 (BitVec.ofNat 64 v)
      | (s, .ok bs) =>
        let n := bytesNat bs
        let v := sel.toNat
        let core := slotCore s.cur
        match selKind v with
        | 0 =>
          (s.updCore core fun k =>
            (List.range (selRm1 v + 1)).foldl (fun k i =>
              k.setRow (selSel v) (selRow0 v + i) fun j => n / 2 ^ (32 * (96 * i + j)) % 2 ^ 32) k).retire 4
        | 1 =>
          if 2 ^ 64 ≤ n then s.trapWith 0x01 w
          else s.configure w n 0 (·.retire 4)
        | _ =>
          let es := (List.range 256).map fun k => n / 2 ^ (32 * k) % 2 ^ 32
          match badEntry va.toNat es with
          | some e => s.trapWith 0x15 (BitVec.ofNat 64 e)
          | none => (s.updCore core (·.setTable (selSel v) es)).retire 4) s)

end Sys2Proof.Machine
end

