-- ==== Sys2Proof/Machine/Barrier.lean ====
section
/-!
DEFINITION. Barrier objects (R176 to R181) and register messages between the slots of a core (R182 to R185, R187).
-/

namespace Sys2Proof.Machine

/-! ### BAR -/

/-- A BAR form's address: checked as an atomic on both words, a multiple of 16, in creel SRAM (R177). It waits for the slot's own accesses to
those words (R90), and a release for all of them (R89). -/
def opBar (fields srcs : List (BitVec 7)) (a : BitVec 7) (release : Bool) (go : Nat → Place → State → State) (s : State) :
    Host.Outcome State Fault Refusal :=
  done (issue fields srcs (fun s =>
    let va := (s.x a.toNat).toNat
    match s.checkLocal s.cur va 16 16 .both true with
    | (s, .trap t) => s.trap t
    | (s, .miss) => s.parkWalk s.cur false va
    | (s, .ok p) =>
      let part : Part := mkPart va 16 0 0 p
      if s.overlaps [part] false || (release && !(s.outstanding s.cur).isEmpty) then s.wait .hold
      else go va p (s.noteRows [part])) s)

/-- Both words are readable; otherwise 0x09 (R355). -/
def State.withObject (s : State) (va gpa : Nat) (go : State → State) : State :=
  if s.badIn gpa 16 then (s.dataRec s.cur gpa 16 va).trapWith 0x09 (BitVec.ofNat 64 va) else go (s.correct gpa 16 va 1)

/-- R178: BARI writes E and zeros at one place; what was parked on the object is re-examined. -/
def execBari (a b : BitVec 7) :=
  opBar [a, b] [a, b] a true fun va p s =>
    let e := (s.x b.toNat).toNat
    if e = 0 ∨ 4095 < e then s.trapWith 0x0D (BitVec.ofNat 64 va)
    else (s.store (s.slotKey s.cur) p.gpa (natBytes e 8 ++ natBytes 0 8)).retire 4

/-- R179: BARA arrives with the count and phase of x(b), as a release. -/
def execBara (d a b : BitVec 7) :=
  opBar [d, a, b] [a, b] a true fun va p s => s.withObject va p.gpa fun s =>
    let gpa := p.gpa
    let x := (s.x b.toNat).toNat
    let q := x % 16
    let k := x / 16 % 4096
    let key := s.slotKey s.cur
    let o := s.barRead key gpa
    match barArrive o (slotCoreNo s.cur) q k with
    | .trap c o' => (s.barWrite key gpa o').trapWith c (BitVec.ofNat 64 va)
    | .block o' =>
      ((s.barWrite key gpa o').park .bara).updCreel s.lin fun c =>
        { c with bwaits := c.bwaits ++ [⟨s.cur, true, gpa, va, p.bits, q, k, d.toNat⟩] }
    | .done o' =>
      let s := (s.barWrite key gpa o').finish d (BitVec.ofNat 64 (barWord0 o'))
      if o'.p = o.p then s else s.barRetry s.lin gpa true ((s.creel s.lin).bwaits.length + 1)

/-- R180: BARW returns 1 when the phase has completed and otherwise parks, for B cycles when B is not 0. -/
def execBarw (d a b : BitVec 7) :=
  opBar [d, a, b] [a, b] a false fun va p s => s.withObject va p.gpa fun s =>
    let gpa := p.gpa
    let x := (s.x b.toNat).toNat
    let q := x % 16
    let bound := x / 2 ^ 32
    if barDone (s.barRead (s.slotKey s.cur) gpa) q then s.finish d 1
    else
      (s.park (.barw (if bound = 0 then 0 else s.cycle + bound))).updCreel s.lin fun c =>
        { c with bwaits := c.bwaits ++ [⟨s.cur, false, gpa, va, p.bits, q, 0, d.toNat⟩] }

/-- R180: BART makes the same test once. -/
def execBart (d a b : BitVec 7) :=
  opBar [d, a, b] [a, b] a false fun va p s => s.withObject va p.gpa fun s =>
    s.finish d (boolWord (barDone (s.barRead (s.slotKey s.cur) p.gpa) ((s.x b.toNat).toNat % 16)))

/-- R180: the bound of a BARW ends: it leaves the list, writes 0 and orders nothing. -/
def execBarwBoundExpire (sl : Nat) (s : State) : Host.Outcome State Fault Refusal :=
  done (match (s.slot sl).wait with
    | .barw bound =>
      if bound ≠ 0 ∧ bound ≤ s.cycle then
        match (s.creel (slotLin sl)).bwaits.find? (·.slot == sl) with
        | some w => ((s.dropBwait (slotLin sl) sl).setRegOf sl w.reg 0).retireOf sl 4
        | none => s
      else s
    | _ => s)

/-! ### XMSG -/

/-- R183, R184: PUTX to a register of another slot of the core. The target's presence bit is cleared now and the value lands 8 cycles
later. A slot that becomes idle in this cycle counts as busy (R187). -/
def execPutx (d a b : BitVec 7) (s : State) : Host.Outcome State Fault Refusal :=
  done (issue [d, a, b] [a, b] (fun s =>
    let x := s.x a.toNat
    let t := slotCore s.cur * 16 + x.toNat % 16
    let n := x.toNat / 16 % 128
    let tg := s.slot t
    let busy := tg.busy || tg.idleAt == s.cycle + 1
    if busy && (tg.world != s.me.world || tg.asid != s.me.asid) then s.trapWith 0x07 x
    else if !busy then s.finish d 1
    else if n = 0 ∨ tg.limit ≤ tg.base + n then s.finish d 2
    else
      let v := s.x b.toNat
      let e := s.entryOf t n
      let (id, s) := s.newId
      let p : Putx := ⟨id, t, tg.weave, e, v, s.cycle + 8⟩
      let s := s.finish d 0
      let s := { s with putxs := s.putxs ++ [p] }
      s.setEntry e { s.entry e with pres := false }) s)

/-- R184, R185: the value lands and sets the presence bit; an entry marked interrupting loses its mark and sets the target's message
pending bit. A target that has ended meanwhile takes nothing. -/
def execPutxLand (id : Nat) (s : State) : Host.Outcome State Fault Refusal :=
  done (match s.putxs.find? (·.id == id) with
    | none => s
    | some p =>
      if s.cycle < p.due then s
      else
        let s := { s with putxs := s.putxs.filter (·.id != id) }
        let tg := s.slot p.slot
        if tg.busy && tg.weave == p.weave then
          let r := s.entry p.entry
          let s := s.setEntry p.entry ⟨p.value, true, false, r.tok⟩
          if r.mark then s.pendUser p.slot 1 else s
        else s)

/-- R185: EMPTYX clears the presence bit of x(d) and may mark the entry as interrupting; EMPTYX x0 has no effect. A reply that x(d) awaits is
still awaited: it lands, sets the bit and clears the mark (log 45). -/
def execEmptyx (d a : BitVec 7) (s : State) : Host.Outcome State Fault Refusal :=
  done (issue [d, a] [a] (fun s =>
    if d = 0 then s.retire 4
    else
      let e := s.entryOf s.cur d.toNat
      let r := s.entry e
      (s.setEntry e { r with pres := false, mark := r.mark || (s.x a.toNat).getLsbD 0 }).retire 4) s)

end Sys2Proof.Machine
end

