-- ==== Sys2Proof/Machine/Remote.lean ====
section
/-!
DEFINITION. Reads of other creels' memory by GLD (R172), the read port that serves them (R86, R99), and reader-cache lines (R81, R103).

A request and its answer travel for a free number of cycles (log 5). The place of the read is the step `READ_PORT_READ`; `MEMORY_REPLY` brings the
value back and fills the reader-cache line of a cached GLD. What the read port read waits on its way in a location of its own, so that
the line holds what the fill's place held (R103).
-/

namespace Sys2Proof.Machine

def Watch.initial : Watch := ⟨.free, 0, 0, 0, false, 0, 0, 0, 0⟩
def Slot.watch (sl : Slot) (k : Nat) : Watch := mapGet sl.watches Watch.initial k

/-! ### Bound ranges and tags (R81) -/

/-- The watch's bound range contains an address (R81, R236). -/
def Watch.contains (w : Watch) (va : Nat) : Bool :=
  w.bind != 0 && decide (w.start.toNat ≤ va ∧ va < w.start.toNat + w.len.toNat)

/-- The lowest-numbered register of a slot whose bound range contains an address (R81). -/
def Slot.boundAt (sl : Slot) (va : Nat) : Option (Nat × Watch) := sl.watches.find? fun (_, w) => w.contains va

/-- A tag is current while its binding has not ended and its value is not below the register's answered value (R81). -/
def State.tagCurrent (s : State) (t : Tag) : Bool :=
  let w := (s.slot t.slot).watch t.reg
  (s.slot t.slot).busy && w.bind == t.bind && decide (w.ansv ≤ t.v)

/-- The tag of a fill by slot `id` at an address (R81). -/
def State.fillTag (s : State) (id va : Nat) : Option Tag :=
  match (s.slot id).boundAt va with
  | some (k, w) => some ⟨w.bind, id, k, w.ansv⟩
  | none => none

/-- A lookup by slot `id` may hit a line with this tag (R81). -/
def State.tagHits (s : State) (id va : Nat) (tag : Option Tag) : Bool :=
  match (s.slot id).boundAt va with
  | some (k, w) =>
    match tag with
    | some t => t.bind == w.bind && t.slot == id && t.reg == k && s.tagCurrent t
    | none => false
  | none =>
    match tag with
    | some t => s.tagCurrent t
    | none => true

/-- The reader-cache hit of a cached GLD, as the location of its data (R81). -/
def State.readerHit (s : State) (id core va gpa : Nat) : Option Nat :=
  match s.l2Find core gpa with
  | some (_, l) =>
    if l.reader && l.valid.getLsbD (sectorOf gpa) && s.tagHits id va l.tag then some (sliceLoc core gpa) else none
  | none => none

/-- The fills of reader-cache lines whose data is on its way to creel `lin` and that `p` selects by line number are given up: what invalidates a
line invalidates what was read for it before (R81, R103). -/
def State.cancelFills (s : State) (lin : Nat) (p : Nat → Bool) : State :=
  { s with accesses := s.accesses.map fun a =>
      match a.kind, a.parts with
      | .gldData z v (some _), q :: _ =>
        if slotLin a.slot == lin && p (q.gpa / 1024) then { a with kind := .gldData z v none } else a
      | _, _ => a }

/-- Where what a read port read waits for its reply. -/
def replyLoc (id gpa : Nat) : Nat := (2 ^ 27 + id) * 2 ^ 64 + gpa

/-- R81: a sector filled into a reader-cache line with the tag that its fill took at its place. A line with another tag loses its other
sectors first. -/
def State.readerFill (s : State) (core gpa src : Nat) (tag : Option Tag) (hk : Bool) (hm world : Nat) : State :=
  let s := match s.l2Find core gpa with
    | some (w, l) => if l.tag == tag then s else s.l2Drop core w
    | none => s
  let s := (s.l2FillFrom core gpa src true hk hm).l2Used core gpa world
  match s.l2Find core gpa with
  | some (w, _) => s.updLine core w fun l => { l with tag := tag }
  | none => s

/-! ### Budgets (R251) -/

/-- The sectors that a traffic class of a creel may still request in this period; 0 in SECT means unlimited. -/
def State.budgetOpen (s : State) (lin cls : Nat) : Bool :=
  let c := s.creel lin
  let sect := nbits (mapGet c.tree 0 (0x200 + cls)).toNat 15 0
  sect == 0 || decide (mapGet c.spent 0 cls < sect)

/-- One sector of a class spent. -/
def State.spend (s : State) (lin cls : Nat) : State :=
  s.updCreel lin fun c => { c with spent := mapPut c.spent cls (mapGet c.spent 0 cls + 1) }

/-! ### GLD (R172) -/

/-- Module `m` is lost for the module of creel `lin` (R360). -/
def State.isLost (s : State) (lin m : Nat) : Bool := m != lin / 128 && setHas (s.module (lin / 128)).mlost m

/-- A fault of a slot that is being terminated is recorded and not raised, unless it has its record already (R328). -/
def State.lateFault (s : State) (id : Nat) (t : Trap) : State :=
  if t.cause = 0x09 ∨ t.cause = 0x0A then s
  else s.slotRec id 0x01 0x2 t.cause (trapVaddr t) 0 t.val.toNat (s.slot id).pc 0

/-- A read of a lost source by a slot is recorded: source 0x01, class 0x5 (R335, R361). -/
def State.lostRec (s : State) (id va gpa : Nat) : State := s.slotRec id 0x01 0x5 0x0A va gpa va (s.slot id).pc 0

/-- A GLD is cached: ord 00, and the page allows reader-cache lines (R81, R172). -/
def gldCached (ord : Nat) (nc : Bool) : Bool := ord == 0 && !nc

/-- A GLD of another creel's memory: refused for a lost module, served by the reader cache, or sent to the owner. The requester never merges it
with a read in flight, as R104 allows it not to (log 44). -/
def State.remoteGld (s : State) (t : BitVec 7) (z ord va : Nat) (p : Phys) : State :=
  let v := BitVec.ofNat 64 va
  let n := 2 ^ (z / 2)
  let cached := gldCached ord p.nc
  let home := s.homeOf s.lin p.hk p.home (lpaOf p.gpa)
  if s.isLost s.lin (linOf p.gpa / 128) then (s.lostRec s.cur va p.gpa).trapWith 0x0A v
  else
    let core := coreAt s.lin (home.getD 0)
    match if cached then s.readerHit s.cur core va p.gpa else none with
    | some loc =>
      if s.badIn loc n then (s.dataRec s.cur loc n va).trapWith 0x09 v
      else
        let s := (s.correct loc n va 1).l2Used core p.gpa s.me.world.toNat
        s.finish t (loadValue z (s.readAs (s.slotKey s.cur) loc n))
    | none =>
      if !s.budgetOpen s.lin 0 then s
      else
      let (id, s) := (s.spend s.lin 0).newId
      let (due, s) := s.laterCycle
      let part : Part := ⟨va, p.gpa, home, p.hk, p.home, true, p.bits, n, 0, 0⟩
      let a : Access := ⟨id, s.cur, .gld z ord, [part], t.toNat, s.entryOf s.cur t.toNat, false, false, due, 0, false,
        s.me.world.toNat, s.me.asid.toNat, p.nc, s.me.pc, s.cycle⟩
      { s with accesses := s.accesses ++ [a] }.park (.access id)

/-- R172: GLD reads through the global tables. One that names the executing creel is a plain load (R63). -/
def execGld (t b : BitVec 7) (z : BitVec 3) (o : BitVec 7) (r : BitVec 2) (s : State) : Host.Outcome State Fault Refusal :=
  done (issue [t, b] [b] (fun s =>
    let n := sizeOf_ z
    let va := memAddr (s.x b.toNat) o n
    let v := BitVec.ofNat 64 va
    if va % n ≠ 0 then s.trapWith 0x04 v
    else
      match s.xlate s.cur true va with
      | (s, none) => s.parkWalk s.cur true va
      | (s, some e) =>
        let p := e.phys s.lin va
        if linOf p.gpa = s.lin then
          match s.checkPlace s.cur va n .read false e with
          | .ok q => s.issueAccess (.load z.toNat) [mkPart va n 0 0 q] t.toNat false false false true
          | .trap t => s.trap t
          | .miss => s
        else if gldCached r.toNat p.nc && (s.homeOf s.lin p.hk p.home (lpaOf p.gpa)).isNone then s.trapWith 0x06 v
        else if !permitted e .read s.me.mode then s.trapWith 0x08 v
        else s.remoteGld t z.toNat r.toNat va p) s)

/-! ### The owner's read port (R79, R86, R99) -/

/-- Where a read port finds `n` bytes that slot `id` reads, or the cause of its refusal. A DRAM line is read through the home that the
requester's leaf gives, with the owner's masks (R79); creel SRAM is checked against partitions (R86). -/
def State.portFind (s : State) (id gpa n : Nat) (hk : Bool) (hm : Nat) : State × Except Nat Nat :=
  let lpa := lpaOf gpa
  if isDram lpa then
    match s.homeOf (linOf gpa) hk hm lpa with
    | none => (s, .error 0x06)
    | some c =>
      let s := s.ensure gpa hk (hm % 4) (some c) (s.slot id).world.toNat
      (s, .ok (s.dataLoc gpa (some c)))
  else if s.partitionRefuses id gpa n then (s, .error 0x07)
  else (s, .ok gpa)

/-- What a read port answers a read of `n` bytes: the location to read, or a cause with the location that was found uncorrectable. -/
def State.portRead (s : State) (id gpa n : Nat) (hk : Bool) (hm : Nat) : State × Except (Nat × Nat) Nat :=
  match s.portFind id gpa n hk hm with
  | (s, .ok loc) => if s.badIn loc n then (s.foundBad loc n, .error (0x09, loc)) else (s.correct loc n 0 1, .ok loc)
  | (s, .error c) => (s, .error (c, gpa))

/-- The owner serves a GLD at a place in its creel order (R99). A cached one reads its whole sector, and none is filled when any of it is
uncorrectable (R355). The answer starts back. -/
def State.serveGld (s : State) (a : Access) (p : Part) (z ord : Nat) : State :=
  let (due, s) := s.laterCycle
  let cached := gldCached ord a.nc
  let g := if cached then p.gpa / 128 * 128 else p.gpa
  let n := if cached then 128 else p.size
  match s.portRead a.slot g n p.hk p.hm with
  | (s, .ok loc) =>
    let s := if cached then s.copySector loc (replyLoc a.id g) else s
    let v := s.readAs (s.key (slotLin a.slot) a.world) (loc + (p.gpa - g)) p.size
    s.noteAccess { a with kind := .gldData z v (if cached then some (s.fillTag a.slot p.va) else none), due := due }
  | (s, .error (c, loc)) =>
    let s := if c = 0x09 then s.dataRecAt a.slot loc n p.va a.pc (if cached then 4 else 1) else s
    s.noteAccess { a with kind := .gldTrap ⟨c, BitVec.ofNat 64 p.va, false⟩, due := due }

/-! ### Cerern paths (R360, R385) -/

/-- Port p of module m has number 32 × m + p. -/
def State.link (s : State) (port : Nat) : Port := mapGet (s.module (port / 32)).ports Port.initial (port % 32)

/-- The port carries flits: it has lanes and is not retraining. One that a stopped stream leaves sends no new flit (R385). -/
def Port.carries (p : Port) : Bool := p.width != 0 && p.retrainAt == 0
def Port.sends (p : Port) : Bool := p.carries && !p.stop

/-- The modules that one more link, with both its ports as `ok` says, reaches. -/
def State.hop (s : State) (ok : Port → Bool) (ms : List Nat) : List Nat :=
  s.links.foldl (fun ms (a, b) =>
    if ok (s.link a) && ok (s.link b) then
      let ms := if ms.contains (a / 32) && !ms.contains (b / 32) then b / 32 :: ms else ms
      if ms.contains (b / 32) && !ms.contains (a / 32) then a / 32 :: ms else ms
    else ms) ms
def State.reached (s : State) (ok : Port → Bool) (m : Nat) : Nat → List Nat
  | 0 => [m]
  | n + 1 => s.hop ok (s.reached ok m n)

/-- Messages pass between two modules now, and some path between them is up (R360; log 13). -/
def State.pathOpen (s : State) (m n : Nat) : Bool := m == n || (s.reached (·.sends) m s.links.length).contains n
def State.pathUp (s : State) (m n : Nat) : Bool := m == n || (s.reached (·.width != 0) m s.links.length).contains n

/-- A request reaches its owner, whose module has not declared the requester's module lost (R234, R361). -/
def State.answers (s : State) (requester owner : Nat) : Bool :=
  (mapFind s.mods (owner / 128)).isSome && !s.isLost owner (requester / 128) && s.pathOpen (requester / 128) (owner / 128)

/-- R168: data for a load or an atomic is ready, or a GLD's answer arrives; it is written, and the slot goes on. -/
def execMemoryReply (id : Nat) (s : State) : Host.Outcome State Fault Refusal :=
  done (match s.accesses.find? (·.id == id) with
    | none => s
    | some a =>
      if a.ready s && !isStore a.kind then
        match a.kind, a.parts with
        | .gld _ _, _ => s
        | .gldData z v f, p :: _ =>
          let g := p.gpa / 128 * 128
          let s := match f, s.homeOf (slotLin a.slot) p.hk p.hm (lpaOf p.gpa) with
            | some tag, some c => s.readerFill (coreAt (slotLin a.slot) c) p.gpa (replyLoc id g) tag p.hk (p.hm % 4) a.world
            | _, _ => s
          (s.dropSector (replyLoc id g)).endAccess a a.kind (some (loadValue z v))
        | .gldTrap t, _ =>
          if (s.slot a.slot).terminating then (s.dropAccess a).lateFault a.slot t
          else (s.dropAccess a).waitOf a.slot (.trapping t)
        | _, _ => s.runAccess a (a.parts.length + 1)
      else s)

end Sys2Proof.Machine
end

