-- ==== Sys2Proof/Machine/Sweep.lean ====
section
/-!
DEFINITION. Range forms: the CACHE forms over a range (R293, R324) and WRANGE (R236).

Every page of the range is translated and checked first, then the lines are acted on. A form whose pages are all at hand and whose lines lie in one
page is done in one step. Any other parks its slot: it waits for walks, and goes on by one page at each of its slot's turns (log 5), so that other
accesses and an L2HM take places between.
-/

namespace Sys2Proof.Machine

/-- The reader-cache lines of a creel that hold lines of the given ranges are dropped, and the fills on their way to them (R236, R293). -/
def State.dropReaderLines (s : State) (lin : Nat) (ranges : List (Nat × Nat)) : State :=
  let touch := fun (ln : Nat) => ranges.any fun (g, n) => decide (g < ln * 1024 + 1024 ∧ ln * 1024 < g + n)
  let s := (List.range 24).foldl (fun s c =>
    let core := coreAt lin c
    ((s.core core).l2.filter fun (_, l) => l.reader && touch l.line).foldl (fun s (w, _) => s.l2Drop core w) s) s
  s.cancelFills lin touch

/-- The lines that a span touches, each with its home core under the masks of now (R79, R324). -/
def State.spanLines (s : State) (lin : Nat) (sp : Span) : List (Nat × Nat) :=
  (List.range ((sp.place.gpa % 1024 + sp.n + 1023) / 1024)).filterMap fun k =>
    let g := sp.place.gpa / 1024 * 1024 + 1024 * k
    (s.homeAt lin sp.place g).map fun c => (coreAt lin c, g)

/-- What checking a page comes to. -/
inductive SweepPage where
  | ok (l : List Span) (n : Nat)
  | trap (t : Trap)
  | wait
  deriving DecidableEq, Repr

/-- What a local form needs of its leaves (R293). -/
def sweepNeed (fn : Nat) : Need := if fn = 1 then .write else .read
def Sweep.global (w : Sweep) : Bool := w.fn == 3 || w.fn == 6

/-- The next page of a local form: pages of creel SRAM are skipped (R293). -/
def State.sweepLocal (s : State) (id : Nat) (w : Sweep) : State × SweepPage :=
  let v := BitVec.ofNat 64 w.va
  let n := min w.left (2 ^ 16 - w.va % 2 ^ 16)
  if 2 ^ 47 ≤ w.va then (s, .trap ⟨0x05, v, false⟩)
  else
    match s.unitXlate (sweepReq id) id false w.va with
    | (s, .wait) => (s, .wait)
    | (s, .fault (.cause c)) => (s, .trap ⟨c, v, false⟩)
    | (s, .fault (.bad _ _)) => (s, .trap ⟨0x09, v, false⟩)
    | (s, .ok e) =>
      let p := e.phys (slotLin id) w.va
      let lpa := lpaOf p.gpa
      let home := if isDram lpa then s.homeOf (slotLin id) p.hk p.home lpa else none
      if isDram lpa && home.isNone then (s, .trap ⟨0x05, v, false⟩)
      else if !permitted e (sweepNeed w.fn) (s.slot id).mode then (s, .trap ⟨0x08, v, false⟩)
      else (s, .ok (if isDram lpa then [⟨w.va, n, p.place home⟩] else []) n)

/-- The next page of RINV, which needs RD (R293), or of WRANGE, which needs only a translation (R236). -/
def State.sweepGlobal (s : State) (id : Nat) (w : Sweep) : State × SweepPage :=
  let v := BitVec.ofNat 64 w.va
  if 2 ^ 64 ≤ w.va then (s, .trap ⟨0x06, v, false⟩)
  else
    match s.unitXlate (sweepReq id) id true w.va with
    | (s, .wait) => (s, .wait)
    | (s, .fault (.cause c)) => (s, .trap ⟨if w.fn = 6 then 0x06 else c, v, false⟩)
    | (s, .fault (.bad _ _)) => (s, .trap ⟨0x09, v, false⟩)
    | (s, .ok e) =>
      let n := min w.left (2 ^ e.bits - w.va % 2 ^ e.bits)
      let p := e.phys (slotLin id) w.va
      if w.fn = 3 ∧ !permitted e .read (s.slot id).mode then (s, .trap ⟨0x08, v, false⟩)
      else (s, .ok [⟨w.va, n, p.place none⟩] n)

/-- The next page of a form. L2PF raises no fault and skips the page (R293). -/
def State.sweepPage (s : State) (id : Nat) (w : Sweep) : State × SweepPage :=
  match if w.global then s.sweepGlobal id w else s.sweepLocal id w with
  | (s, .trap t) => (s, if w.fn = 5 then .ok [] (min w.left (2 ^ 16 - w.va % 2 ^ 16)) else .trap t)
  | r => r

/-- Pages checked as far as they are at hand: the form with what it has checked, and the trap of a page, if any. -/
def State.sweepCheck (s : State) (id : Nat) (w : Sweep) : Nat → State × Sweep × Option Trap
  | 0 => (s, w, none)
  | n + 1 =>
    if w.left = 0 then (s, w, none)
    else
      match s.sweepPage id w with
      | (s, .ok l m) => s.sweepCheck id { w with va := w.va + m, left := w.left - m, spans := w.spans ++ l } n
      | (s, .trap t) => (s, w, some t)
      | (s, .wait) => (s, w, none)

/-- The effect on the line of an address in a slice, if the slice holds it. -/
def State.onLine (s : State) (core g : Nat) (f : Nat → Line → State → State) : State :=
  match s.l2Find core g with
  | some (w, l) => f w l s
  | none => s

/-- The effect of a local form on one line (R293): L2WB, L2INV, L2WBI, L2PF. A pinned line is written back and stays. -/
def State.sweepLine (s : State) (fn : Nat) (sp : Span) (core g : Nat) : State :=
  match fn with
  | 0 => s.onLine core g fun w _ s => s.l2WriteBack core w
  | 1 => s.onLine core g fun w l s => if l.pins = 0 then s.l2Drop core w else s.l2WriteBack core w
  | 2 =>
    s.onLine core g fun w l s =>
      let s := s.l2WriteBack core w
      if l.pins = 0 then s.l2Drop core w else s
  | _ => (List.range 8).foldl (fun s i => s.l2Ensure core (g + 128 * i) sp.place.hk sp.place.hm s.me.world.toNat) s

/-- The effect of a form on the lines of one page (R293). -/
def State.sweepSpan (s : State) (lin fn : Nat) (sp : Span) : State :=
  if fn = 3 ∨ fn = 6 then s.dropReaderLines lin [(sp.place.gpa, sp.n)]
  else (s.spanLines lin sp).foldl (fun s (c, g) => s.sweepLine fn sp c g) s

/-- The slot parks on a range form, which takes a number among the accesses. -/
def State.parkSweep (s : State) (w : Sweep) : State :=
  if w.since = 0 then
    let (id, s) := s.newId
    s.park (.sweep { w with since := id })
  else s.park (.sweep w)

/-- A form whose pages are all checked acts on the next page. The last ends it: WRANGE then binds its range (R236). -/
def State.sweepAct (s : State) (w : Sweep) : State :=
  match w.spans with
  | sp :: r :: l => (s.sweepSpan s.lin w.fn sp).parkSweep { w with spans := r :: l }
  | l =>
    let s := l.foldl (fun s sp => s.sweepSpan s.lin w.fn sp) s
    if w.fn = 6 then
      let (id, s) := s.newId
      (s.updMe fun sl =>
        { sl with watches := mapPut sl.watches w.k { sl.watch w.k with bind := id, start := w.start, len := w.len } }).retire 4
    else s.retire 4

/-- A range form goes on: checks, then lines. -/
def State.sweepGo (s : State) (w : Sweep) : State :=
  match s.sweepCheck s.cur w (pagesOf w.left) with
  | (s, _, some t) => s.trap t
  | (s, w, none) => if w.left = 0 then s.sweepAct w else s.parkSweep w

/-- A form whose pages are all checked acts at once on what is left of it whose homes mask k gives, as an L2HM returns it (R294 step 5, R324). It ends
when that was all. -/
def State.sweepReturned (s : State) (k id : Nat) (w : Sweep) : State :=
  let under := fun (sp : Span) => sp.place.hk && sp.place.hm % 4 == k
  let cur := s.cur
  let s := (w.spans.filter under).foldl (fun s sp => s.sweepSpan s.lin w.fn sp) { s with cur := id }
  let w := { w with spans := w.spans.filter (!under ·) }
  { (if w.spans.isEmpty then s.sweepAct w else s.waitOf id (.sweep w)) with cur := cur }

/-- A turn of a slot that a range form has parked. -/
def State.sweepTurn (s : State) (w : Sweep) : State :=
  if s.unitWaits s.lin (sweepReq s.cur) then s else s.sweepGo w

end Sys2Proof.Machine
end

