-- ==== Sys2Proof/Machine/Watch.lean ====
section
/-!
DEFINITION. Sequence words and watch registers (R229 to R237): PUB, PUBA, WATCH, WRANGE, WWAIT, WCANCEL, and the arms, answers,
refusals and withdrawals that travel between requester and owner (R232 to R234).
-/

namespace Sys2Proof.Machine

/-! ### Publication (R230) -/

/-- PUB and PUBA: a release (R100) that writes a larger value at its place. -/
def opPub (a b : BitVec 7) (new : Nat → Nat → Nat) (s : State) : Host.Outcome State Fault Refusal :=
  done (issue [a, b] [a, b] (fun s =>
    let va := (s.x a.toNat).toNat
    let v := BitVec.ofNat 64 va
    s.withLocal va 8 .both true fun p s =>
      if !(s.outstanding s.cur).isEmpty then s.wait .hold
      else if s.badBlock p.gpa then (s.dataRec s.cur (p.gpa / 16 * 16) 16 va).trapWith 0x09 v
      else
        let s := (s.noteRows [mkPart va 8 0 0 p]).correct (p.gpa / 16 * 16) 16 va 1
        let key := s.slotKey s.cur
        let old := s.readAs key p.gpa 8
        let n := new old (s.x b.toNat).toNat
        if n ≤ old ∨ 2 ^ 64 ≤ n then s.trapWith 0x0C v
        else (s.store key p.gpa (natBytes n 8)).retire 4) s)

def execPub (a b : BitVec 7) := opPub a b fun _ v => v
def execPuba (a b : BitVec 7) := opPub a b fun old v => old + v

/-! ### Watch registers -/

def Slot.setWatch (sl : Slot) (k : Nat) (w : Watch) : Slot := { sl with watches := mapPut sl.watches k w }

/-- K of a watch control word (R231). -/
def watchReg (c : Word) : Nat := c.toNat % 16

def State.setArm (s : State) (a : Arm) : State := { s with arms := s.arms.map fun b => if b.id == a.id then a else b }
def State.dropArm (s : State) (id : Nat) : State := { s with arms := s.arms.filter (·.id != id) }

/-- The cycle at which a message between a watch's requester and its owner arrives: within a module so early that R41's two budget periods hold,
each of at least 256 cycles, and else at a free cycle (log 5). -/
def State.armTravel (s : State) (lin owner : Nat) : Nat × State :=
  let (n, s) := s.draw
  (s.cycle + 1 + (if lin / 128 = owner / 128 then n % 64 else n), s)

/-- A pending arm is withdrawn from its owner (R232, R237). One that waits at the requester is dropped there, and an answer on its way is
discarded (R233). -/
def State.withdrawArm (s : State) (arm : Nat) : State :=
  match if arm = 0 then none else s.arms.find? (·.id == arm) with
  | none => s
  | some a =>
    match a.stage with
    | .sent | .held =>
      let (due, s) := s.armTravel (slotLin a.slot) (linOf a.gpa)
      s.setArm { a with stage := .withdrawn (a.stage == .held), due := due }
    | .withdrawn _ => s
    | _ => s.dropArm arm

/-- A waiting slot tests its register again (R235). -/
def State.wakeWatch (s : State) (id k : Nat) : State :=
  s.updSlot id fun sl => if sl.wait == .wwait k then { sl with wait := .none } else sl

/-- A register turns LOST, with its pending bit (R233, R361). -/
def State.loseWatch (s : State) (id k : Nat) : State :=
  let w := (s.slot id).watch k
  let s := s.updSlot id fun sl => sl.setWatch k { w with state := .lost, arm := 0 }
  let s := if w.int then s.pendUser id 2 else s
  s.wakeWatch id k

/-- R232 after its checks. -/
def State.armWatch (s : State) (k va gpa : Nat) (thr : Word) (int : Bool) : State :=
  let w := s.me.watch k
  let fresh := w.state != .free && w.addr != BitVec.ofNat 64 gpa
  let s := s.withdrawArm w.arm
  let w := if fresh then { w with bind := 0, ansv := 0 } else w
  let thr := if w.ansv < thr then thr else w.ansv
  let w := { w with addr := BitVec.ofNat 64 gpa, thr := thr, int := int, state := .pend }
  let lin := linOf gpa
  if s.isLost s.lin (lin / 128) then (s.updMe (·.setWatch k { w with arm := 0 })).loseWatch s.cur k
  else
    let (id, s) := s.newId
    let (due, s) := s.armTravel s.lin lin
    let away := lin != s.lin
    let sent := !away || s.budgetOpen s.lin 0
    let s := if away && sent then s.spend s.lin 0 else s
    let arm : Arm := ⟨id, s.cur, k, va, gpa, thr, if sent then .sent else .unsent, due, s.cycle⟩
    let s := { s with arms := s.arms ++ [arm] }
    s.updMe (·.setWatch k { w with arm := id })

def execWatch (a b c : BitVec 7) (s : State) : Host.Outcome State Fault Refusal :=
  done (issue [a, b, c] [a, b, c] (fun s =>
    let v := s.x a.toNat
    let ctl := s.x c.toNat
    if v.toNat % 8 ≠ 0 then s.trapWith 0x04 v
    else
      match s.xlate s.cur true v.toNat with
      | (s, none) => s.parkWalk s.cur true v.toNat
      | (s, some e) =>
        let g := (e.phys s.lin v.toNat).gpa
        let lpa := lpaOf g
        if !permitted e .read s.me.mode then s.trapWith 0x08 v
        else if !(isSram lpa || (isAgent lpa && hasAgent (linOf g))) then s.trapWith 0x08 v
        else (s.armWatch (watchReg ctl) v.toNat g (s.x b.toNat) (ctl.getLsbD 4)).retire 4) s)

/-- R235. -/
def execWwait (a c : BitVec 7) (s : State) : Host.Outcome State Fault Refusal :=
  done (issue [a, c] [c] (fun s =>
    let ctl := s.x c.toNat
    let k := watchReg ctl
    let w := s.me.watch k
    match w.state with
    | .free | .lost => s.trapWith 0x0B (BitVec.ofNat 64 k)
    | .ans => s.finish a w.ansv
    | .pend => if ctl.getLsbD 5 then s.finish a w.ansv else s.wait (.wwait k)) s)

/-- R237: the register is free; a pending bit stays. -/
def State.freeWatch (s : State) (id k : Nat) : State :=
  let s := s.withdrawArm ((s.slot id).watch k).arm
  s.updSlot id fun sl => { sl with watches := mapDel sl.watches k }

def execWcancel (c : BitVec 7) (s : State) : Host.Outcome State Fault Refusal :=
  done (issue [c] [c] (fun s => (s.freeWatch s.cur (watchReg (s.x c.toNat))).retire 4) s)

/-- Every watch register of a slot freed (R31). -/
def State.freeWatches (s : State) (id : Nat) : State := (List.range 16).foldl (fun s k => s.freeWatch id k) s

/-! ### Bound ranges (R236) -/

def execWrange (a b c : BitVec 7) (s : State) : Host.Outcome State Fault Refusal :=
  done (issue [a, b, c] [a, b, c] (fun s =>
    let k := watchReg (s.x c.toNat)
    let w := s.me.watch k
    let start := s.x a.toNat
    let len := s.x b.toNat
    if w.state = .free ∨ w.state = .lost then s.trapWith 0x0B (BitVec.ofNat 64 k)
    else if len = 0 then (s.updMe (·.setWatch k { w with bind := 0 })).retire 4
    else if start.toNat % 1024 ≠ 0 then s.trapWith 0x04 start
    else if len.toNat % 1024 ≠ 0 then s.trapWith 0x04 len
    else if 2 ^ 40 < len.toNat then s.trapWith 0x01 (wordOf (.wrange a b c))
    else s.sweepGo ⟨6, start.toNat, len.toNat, [], k, start, len, 0⟩) s)

/-! ### Arms, answers, refusals and withdrawals (R232 to R234) -/

/-- The entries of the owner's read port that arms of other creels occupy (R234). -/
def State.portArms (s : State) (lin : Nat) : Nat :=
  (s.arms.filter fun a => linOf a.gpa == lin && slotLin a.slot != lin && (a.stage == .held || a.stage == .withdrawn true)).length

/-- An arm that found the table of the owner full waits at its requester (R234). -/
def State.armsQueued (s : State) (lin : Nat) : List Arm := s.arms.filter fun b => b.stage == .queued && linOf b.gpa == lin

/-- The arm may be admitted: it is at the owner, or waits for room that there is now, with no earlier one before it (R234). -/
def State.armAdmits (s : State) (a : Arm) : Bool :=
  match a.stage with
  | .sent => decide (a.due ≤ s.cycle)
  | .queued => decide (s.portArms (linOf a.gpa) < 4096) && (s.armsQueued (linOf a.gpa)).all fun b => decide (a.id ≤ b.id)
  | _ => false

/-- R234: an arm of another creel that arrives finds the table full, or others that wait for it. -/
def State.armWaits (s : State) (a : Arm) : Bool :=
  linOf a.gpa != slotLin a.slot && a.stage == .sent &&
    (decide (4096 ≤ s.portArms (linOf a.gpa)) || !(s.armsQueued (linOf a.gpa)).isEmpty)

/-- R233, R234: an arm arrives at its owner, which leaves it waiting for room or admits it: the bank logic or the read port checks it (R86),
answers it if the word already passes the threshold, or holds it. An uncorrectable word answers nothing (R355). -/
def execWatchArmArrive (id : Nat) (s : State) : Host.Outcome State Fault Refusal :=
  done (match s.arms.find? (·.id == id) with
    | none => s
    | some a =>
      if !(s.armAdmits a && s.answers (slotLin a.slot) (linOf a.gpa)) then s
      else if s.armWaits a then s.setArm { a with stage := .queued }
      else
        let (due, s) := s.armTravel (slotLin a.slot) (linOf a.gpa)
        if s.partitionRefuses a.slot a.gpa 8 then s.setArm { a with stage := .refused, due := due }
        else if s.badIn a.gpa 8 then (s.foundBad a.gpa 8).setArm { a with stage := .held }
        else
          let s := s.correct a.gpa 8 0 1
          let v := BitVec.ofNat 64 (s.readAs (s.slotKey a.slot) a.gpa 8)
          if a.thr ≤ v then s.setArm { a with stage := .answered v, due := due } else s.setArm { a with stage := .held })

/-- R233: an answer reaches its register. -/
def execWatchAnswer (id : Nat) (s : State) : Host.Outcome State Fault Refusal :=
  done (match s.arms.find? (·.id == id) with
    | none => s
    | some a =>
      match a.stage with
      | .answered v =>
        if s.cycle < a.due then s
        else
          let w := (s.slot a.slot).watch a.reg
          let s := (s.dropArm id).updSlot a.slot fun sl => sl.setWatch a.reg { w with state := .ans, ansv := v, arm := 0 }
          let s := if w.int then s.pendUser a.slot 2 else s
          s.wakeWatch a.slot a.reg
      | _ => s)

/-- R233: a refusal reaches its register, which turns LOST; the requester's creel writes a record. -/
def execWatchRefusal (id : Nat) (s : State) : Host.Outcome State Fault Refusal :=
  done (match s.arms.find? (·.id == id) with
    | none => s
    | some a =>
      if a.stage != .refused || decide (s.cycle < a.due) then s
      else ((s.dropArm id).slotRec a.slot 0x05 0x2 0x07 a.va a.gpa 0 0 0).loseWatch a.slot a.reg)

/-- R232, R234: a withdrawal reaches the owner, whose entry is free again. -/
def execWatchWithdrawArrive (id : Nat) (s : State) : Host.Outcome State Fault Refusal :=
  done (match s.arms.find? (·.id == id) with
    | none => s
    | some a =>
      match a.stage with
      | .withdrawn _ => if a.due ≤ s.cycle then s.dropArm id else s
      | _ => s)

end Sys2Proof.Machine
end

