-- ==== Sys2Proof/Machine/Pull.lean ====
section
/-!
DEFINITION. The pull engine (R238 to R251): PULL, PULLX, PULLR, PULLM, CPULL, PSYNC, the requests of its channels, and pull trees.

A request stands for the source bytes of one sector. It issues (`PULL_REQUEST_ISSUE`), is served by the owner's read port (`READ_PORT_READ`,
`TREE_PULL_SERVE`), and brings its data back (`PULL_SECTOR_DATA`), each at a free later cycle (log 5). A command that stops keeps the requests
before the failing word, so its prefix ends there.
-/

namespace Sys2Proof.Machine

/-! ### The control word (R238) -/

def pullLen (c : Nat) : Nat := nbits c 23 0
def pullTy (c : Nat) : Nat := nbits c 29 27
def pullOp (c : Nat) : Nat := nbits c 35 32
/-- E of R243 in bytes. -/
def pullElem (c : Nat) : Nat := 8 * (nbits c 41 36 + 1)
def pullFe (c : Nat) : Bool := c.testBit 31
def pullInt (c : Nat) : Bool := c.testBit 30

/-- OP fits TY (R238). -/
def opFits (op ty : Nat) : Bool :=
  decide (op ≤ 5 ∧ ty ≤ 4) && (op ≤ 2 || (decide (op ≤ 4) && decide (3 ≤ ty)) || (op == 5 && ty == 0))

/-- The control word that a form accepts (R238). -/
def pullCtlOk (fn c : Nat) : Bool :=
  nbits c 63 42 == 0 && nbits c 26 24 == 0 &&
  match fn with
  | 1 => pullLen c != 0 && pullOp c == 0 && pullTy c == 0
  | 3 => pullLen c == 0 && nbits c 41 36 == 0 && pullOp c == 0 && pullTy c == 0
  | 2 => pullLen c != 0 && pullLen c % 8 == 0 && nbits c 41 36 == 0 && opFits (pullOp c) (pullTy c)
  | _ => pullLen c != 0 && pullLen c % 8 == 0 && nbits c 41 36 == 0 && pullOp c == 0 && pullTy c == 0

/-- The destination's length in bytes: for PULLM the header (R245). -/
def pullBytes (fn c : Nat) : Nat :=
  match fn with
  | 1 => pullLen c * pullElem c
  | 3 => 16
  | _ => pullLen c

/-! ### Elements (R244) -/

/-- The width of an element of TY. -/
def pullWidth (ty : Nat) : Nat :=
  match ty with
  | 1 | 2 => 16
  | 4 => 64
  | _ => 32

/-- op(d, r) on one element (R127, R244). -/
def pullElemOp (op ty d r : Nat) : Nat :=
  let w := pullWidth ty
  let f := match ty with
    | 1 => bf16
    | 2 => fp16
    | _ => fp32
  let sd := (BitVec.ofNat w d).toInt
  let sr := (BitVec.ofNat w r).toInt
  match op with
  | 0 => if ty ≤ 2 then f.add 0 d r else (d + r) % 2 ^ w
  | 1 => if ty ≤ 2 then f.minMax false d r else if sr < sd then r else d
  | 2 => if ty ≤ 2 then f.minMax true d r else if sd < sr then r else d
  | 3 => d ||| r
  | _ => d ^^^ r

/-- op on the elements of an aligned word. -/
def pullWordOp (op ty d r : Nat) : Nat :=
  let w := pullWidth ty
  (List.range (64 / w)).foldr (fun i acc =>
    pullElemOp op ty (d / 2 ^ (w * i) % 2 ^ w) (r / 2 ^ (w * i) % 2 ^ w) + 2 ^ w * acc) 0

/-- SGNACC on the two elements of a word: bits b of R244, α in FP32. -/
def sgnWord (alpha d bits : Nat) : Nat :=
  let e := fun i =>
    let a := fp32.decode alpha
    fp32.round 0 (Fv.add false (fp32.decode (d / 2 ^ (32 * i) % 2 ^ 32)) (if bits.testBit i then a.neg else a))
  e 0 + 2 ^ 32 * e 1

/-! ### Acceptance (R239, R240) -/

/-- The commands of a slot that have not completed. -/
def State.pullsOut (s : State) (id : Nat) : List PullCmd := (s.creel (slotLin id)).pulls.filter (·.slot == id)

/-- The channel with the fewest queued commands, the lowest on a tie; none when all 8 hold 32. -/
def pickChannel (l : List PullCmd) : Option Nat :=
  let n := fun ch => (l.filter (·.ch == ch)).length
  let best := (List.range 8).foldl (fun b ch => if n ch < n b then ch else b) 0
  if n best < 32 then some best else none

/-- Some byte of the spans lies in the DRAM slice: the address of the first (R239). -/
def firstDram (l : List Span) : Option Nat := (l.find? fun sp => isDram (lpaOf sp.place.gpa)).map (·.va)

/-- The completion word's checks (R239). -/
def State.checkComp (s : State) (va : Nat) : State × Except Stop (List Span) :=
  match s.checkLocal s.cur va 8 8 .both true with
  | (s, .ok p) => (s, .ok [⟨va, 8, p⟩])
  | (s, .trap t) => (s, .error (.trap t))
  | (s, .miss) => (s, .error (.miss false va))

/-- A command enters its channel, with its ticket (R240, R332). -/
def State.acceptPull (s : State) (ch fn a b ctl : Nat) (dst src comp iseq : List Span) (group inst : Nat) : State :=
  let (id, s) := s.newId
  let sl := s.me
  let cmd : PullCmd := {
    id := id, slot := s.cur, ch := ch, fn := fn, a := a, b := b, ctl := ctl, dst := dst, src := src, comp := comp,
    ticket := sl.ticket 3 fn, pc := sl.pc, world := sl.world, asid := sl.asid, mode := sl.mode, cur := 0, issued := false,
    head := none, merge := none, idx := none, buf := [], fail := none, wrote := [], group := group, inst := inst, iseq := iseq, phase := 0, since := s.cycle }
  ((s.updMe Slot.takeTicket).updCreel s.lin fun c => { c with pulls := c.pulls ++ [cmd] }).retire 4

/-- Room for a command: 16 of the slot, and a channel that is not full; otherwise the slot parks at issue (R239, R240). -/
def State.withChannel (s : State) (go : Nat → State → State) : State :=
  if 16 ≤ (s.pullsOut s.cur).length then s.wait .none
  else
    match pickChannel (s.creel s.lin).pulls with
    | some ch => go ch s
    | none => s.wait .none

/-- Items 2 to 5 of R239: alignments, the destination and the local list, the completion word, FE. -/
def State.checkPull (s : State) (aligned : List Word) (a n : Nat) (need : Need) (list : Option (Nat × Nat)) (comp : Nat)
    (fe : Bool) : State × Except Stop (List Span × List Span × List Span) :=
  match aligned.find? fun v => v.toNat % 8 != 0 with
  | some v => (s, .error (.trap ⟨0x04, v, false⟩))
  | none =>
    match s.checkRange s.cur a n need false (pagesOf n) with
    | (s, .error t) => (s, .error t)
    | (s, .ok dst) =>
      match (match list with
        | some (b, m) => s.checkRange s.cur b m .read false (pagesOf m)
        | none => (s, .ok [])) with
      | (s, .error t) => (s, .error t)
      | (s, .ok src) =>
        match s.checkComp comp with
        | (s, .error t) => (s, .error t)
        | (s, .ok cw) =>
          match (if fe then firstDram dst else none) with
          | some va => (s, .error (.trap ⟨0x08, BitVec.ofNat 64 va, false⟩))
          | none => (s, .ok (dst, src, cw))

/-- PULL, PULLX, PULLR and PULLM (R239). Field c names the pair c, c + 1. Of the destinations PULLR's alone needs RD at issue (log 32). -/
def opPull (fn : Nat) (w : Word) (a b c : BitVec 7) (s : State) : Host.Outcome State Fault Refusal :=
  done (issue [a, b, c, c + 1] [a, b, c, c + 1] (fun s =>
    let va := s.x a.toNat
    let vb := s.x b.toNat
    let ctl := (s.x c.toNat).toNat
    let comp := (s.x (c + 1).toNat).toNat
    if !pullCtlOk fn ctl then s.trapWith 0x01 w
    else
      let list := if fn = 1 then some (vb.toNat, 8 + 4 * pullLen ctl) else none
      match s.checkPull (if fn = 3 then [va] else [va, vb]) va.toNat (pullBytes fn ctl) (if fn = 2 then .both else .write) list comp
        (pullFe ctl) with
      | (s, .error t) => s.stopped t
      | (s, .ok (dst, src, cw)) =>
        s.withChannel fun ch s => s.acceptPull ch fn va.toNat vb.toNat ctl dst src cw [] 0 0) s)

def execPull (a b c : BitVec 7) := opPull 0 (wordOf (.pull a b c)) a b c
def execPullx (a b c : BitVec 7) := opPull 1 (wordOf (.pullx a b c)) a b c
def execPullr (a b c : BitVec 7) := opPull 2 (wordOf (.pullr a b c)) a b c
def execPullm (a b c : BitVec 7) := opPull 3 (wordOf (.pullm a b c)) a b c

/-- R246. -/
def execPsync (s : State) : Host.Outcome State Fault Refusal :=
  done (issue [] [] (fun s => if (s.pullsOut s.cur).isEmpty then s.retire 4 else s.wait .none) s)

/-! ### Local memory of a command -/

/-- The place of a byte of spans. -/
def spanPlace (l : List Span) (va : Nat) : Option Place :=
  (l.find? fun sp => decide (sp.va ≤ va ∧ va < sp.va + sp.n)).map fun sp =>
    { sp.place with gpa := sp.place.gpa + (va - sp.va) }

/-- The home of a place within a page (R79). -/
def State.placeHome (s : State) (lin : Nat) (p : Place) : Option Nat :=
  if isDram (lpaOf p.gpa) then s.homeAt lin p p.gpa else none

/-- The block or sector at `va` lies wholly within the spans, so that the command rewrites it (R354). -/
def coveredUnit (l : List Span) (va : Nat) (gpa n : Nat) : Bool :=
  let first := va - gpa % n
  decide (gpa % n ≤ va) && (spanPlace l first).isSome && (spanPlace l (first + n - 1)).isSome

/-- A place in the DRAM slice whose home mask has become empty since the command was accepted (R79). -/
def State.homeless (s : State) (lin : Nat) (p : Place) : Bool := isDram (lpaOf p.gpa) && (s.placeHome lin p).isNone

/-- An aligned word of spans read under the command's key, or the status that stops the command: 0x01 for an empty home mask (R79), 0x05 when the word
is uncorrectable. -/
def State.getWord (s : State) (cmd : PullCmd) (l : List Span) (va n : Nat) : State × Except Nat Nat :=
  match spanPlace l va with
  | none => (s, .error 0x05)
  | some p =>
    let lin := slotLin cmd.slot
    if s.homeless lin p then (s, .error 0x01)
    else
      let home := s.placeHome lin p
      let s := s.ensure p.gpa p.hk p.hm home cmd.world.toNat
      let loc := s.dataLoc p.gpa home
      if s.badIn loc n then (s.foundBad loc n, .error 0x05)
      else (s.correct loc n va 1, .ok (s.readAs (s.key lin cmd.world.toNat) loc n))

/-- The global physical address of a byte of spans, 0 for none. -/
def spanGpa (l : List Span) (va : Nat) : Nat := match spanPlace l va with | some p => p.gpa | none => 0

def State.findPull (s : State) (lin id : Nat) : Option PullCmd := (s.creel lin).pulls.find? (·.id == id)
/-- A command changed in its queue. The words that wait for their block stand in the queue alone. -/
def State.setPull (s : State) (cmd : PullCmd) : State :=
  s.updCreel (slotLin cmd.slot) fun c =>
    { c with pulls := c.pulls.map fun p => if p.id == cmd.id then { cmd with wrote := p.wrote } else p }
def State.setWrote (s : State) (cmd : PullCmd) (w : SMap Nat) : State :=
  s.updCreel (slotLin cmd.slot) fun c => { c with pulls := c.pulls.map fun p => if p.id == cmd.id then { p with wrote := w } else p }
/-- The words of a command that wait for their block. -/
def State.wroteOf (s : State) (cmd : PullCmd) : SMap Nat :=
  match s.findPull (slotLin cmd.slot) cmd.id with
  | some p => p.wrote
  | none => []

/-- A destination word stored, with fe when the command sets it (R94). -/
def State.landWord (s : State) (cmd : PullCmd) (p : Place) (bs : List Byte) : State :=
  let lin := slotLin cmd.slot
  let key := s.key lin cmd.world.toNat
  if isDram (lpaOf p.gpa) then
    let home := s.placeHome lin p
    let s := s.ensure p.gpa p.hk p.hm home cmd.world.toNat
    (s.store key (s.dataLoc p.gpa home) bs).l2Dirty p.gpa home
  else if pullFe cmd.ctl then s.storeFull key p.gpa bs
  else s.store key p.gpa bs

/-- A word of an uncorrectable block or sector of `n` bytes waits until the command has all of it; then the whole is rewritten (R354). -/
def State.putBad (s : State) (cmd : PullCmd) (l : List Span) (va n u : Nat) (gpa v : Nat) : State :=
  let w := mapPut (s.wroteOf cmd) va v
  let first := va - gpa % n
  let words := (List.range (n / 8)).map fun k => first + 8 * k
  if words.all fun a => (mapFind w a).isSome then
    let s := s.setWrote cmd (words.foldl (fun w a => mapDel w a) w)
    let s := (List.range (n / 8)).foldl (fun s k => s.cleanUnit (unitOf (u + 8 * k))) s
    words.foldl (fun s a =>
      match spanPlace l a with
      | some p => s.landWord cmd p (natBytes (mapGet w 0 a) 8)
      | none => s) s
  else s.setWrote cmd w

/-- An aligned word of the destination written: the status that stops the command, 0 for none. A partition of another slot refuses (R86), and so does an
empty home mask (R79); an uncorrectable block or sector that the command cannot write whole stops it (R354). -/
def State.putWord (s : State) (cmd : PullCmd) (l : List Span) (va : Nat) (v : Nat) : State × Nat :=
  match spanPlace l va with
  | none => (s, 0x03)
  | some p =>
    if s.partitionRefuses cmd.slot p.gpa 8 then (s, 0x03)
    else if s.homeless (slotLin cmd.slot) p then (s, 0x01)
    else if isDram (lpaOf p.gpa) then
      let home := s.placeHome (slotLin cmd.slot) p
      let s := s.ensure p.gpa p.hk p.hm home cmd.world.toNat
      let loc := s.dataLoc p.gpa home
      if setHas s.bad (unitOf loc) then
        if coveredUnit l va p.gpa 128 then (s.putBad cmd l va 128 (unitOf loc) p.gpa v, 0) else (s, 0x05)
      else ((if coveredUnit l va p.gpa 128 then s else s.correct loc 8 va 1).landWord cmd p (natBytes v 8), 0)
    else
      let b := p.gpa / 16 * 16
      if s.badBlock p.gpa then
        if coveredUnit l va p.gpa 16 then (s.putBad cmd l va 16 b p.gpa v, 0) else (s.foundBad b 16, 0x05)
      else ((if coveredUnit l va p.gpa 16 then s else s.correct b 16 va 1).landWord cmd p (natBytes v 8), 0)

/-! ### Completion (R241) -/

/-- The class of a pull's record (R337, R355). -/
def pullClass (status : Nat) : Nat := if status = 5 then 0x4 else if status = 6 then 0x5 else 0x2

/-- The word or sector that a stop with STATUS 0x05 at an address names: the word of the block that is uncorrectable (R354, R355). -/
def State.badWordAt (s : State) (gpa : Nat) : Nat :=
  if isDram (lpaOf gpa) || setHas s.bad (unitOf gpa) then unitOf gpa else s.badUnitIn (gpa / 16 * 16) 16

/-- The record of a nonzero status (R241); PADDR of uncorrectable data is its word or sector (R355). -/
def State.pullRec (s : State) (cmd : PullCmd) (status va gpa : Nat) : State :=
  if status = 0 then s
  else
    (s.acting cmd.slot cmd.world cmd.asid cmd.mode fun s =>
      (s.slotRec cmd.slot 0x04 (pullClass status) status va (if status = 5 then s.badWordAt gpa else gpa) cmd.ticket cmd.pc 0, ())).1

/-- The internal watch of a CPULL: an arm of a register number above the slot's own (R249). -/
def treeReg (g : Nat) : Nat := 16 + g
def State.treeArm (s : State) (cmd : PullCmd) : Option Arm :=
  s.arms.find? fun a => a.reg == treeReg cmd.group && slotLin a.slot == slotLin cmd.slot && a.stage != .withdrawn true && a.stage != .withdrawn false
def State.withdrawTree (s : State) (cmd : PullCmd) : State :=
  if cmd.fn = 4 then
    match s.treeArm cmd with
    | some a => s.withdrawArm a.id
    | none => s
  else s

/-- The completion word, the record of a nonzero status, and the engine pending bit (R241). A completion word whose block is uncorrectable, which the
write covers in part, is not written, and the command's record has STATUS 0x05 (R354; log 32). -/
def State.finishPull (s : State) (cmd : PullCmd) (status count va gpa : Nat) : State :=
  let lin := slotLin cmd.slot
  let s := (s.withdrawTree cmd).updCreel lin fun c =>
    { c with pulls := c.pulls.filter (·.id != cmd.id), wfaults := c.wfaults.filter (·.req != unitReq cmd.id) }
  let s := { s with preqs := s.preqs.filter (·.cmd != cmd.id) }
  let key := s.key lin cmd.world.toNat
  let s := match cmd.comp with
    | sp :: _ =>
      if s.badBlock sp.place.gpa then (s.pullRec cmd 0x05 sp.va sp.place.gpa).foundBad (sp.place.gpa / 16 * 16) 16
      else
        ((s.readHalf sp.place.gpa 8 sp.va).storeFull key sp.place.gpa (natBytes (status * 2 ^ 32 + count % 2 ^ 32) 8)).pullRec cmd
          status va gpa
    | [] => s.pullRec cmd status va gpa
  if pullInt cmd.ctl then s.pendUser cmd.slot 3 else s

/-- A command stops at an offset: requests from there on are dropped, and those before it run to their end. -/
def State.failPull (s : State) (cmd : PullCmd) (f : PullFail) : State × PullCmd :=
  let earlier := match cmd.fail with
    | some g => decide (f.at_ < g.at_)
    | none => true
  let cmd := if earlier then { cmd with fail := some f, issued := true } else cmd
  ({ (s.setPull cmd) with preqs := s.preqs.filter fun r => r.cmd != cmd.id || decide (r.start < f.at_) }, cmd)

/-! ### PULLM's merge (R245) -/

/-- Entries strictly ascending in index. -/
def ascending : List (Nat × Nat) → Bool
  | (i, _) :: (j, v) :: l => decide (i < j) && ascending ((j, v) :: l)
  | _ => true

/-- Both lists by ascending index, equal indices as one entry (R245). -/
def mergeLists (l r : List (Nat × Nat)) : Nat → List (Nat × Nat)
  | 0 => []
  | n + 1 =>
    match l, r with
    | [], r => r
    | l, [] => l
    | (i, v) :: l, (j, w) :: r =>
      if i < j then (i, v) :: mergeLists l ((j, w) :: r) n
      else if j < i then (j, w) :: mergeLists ((i, v) :: l) r n
      else (i, fp32.add 0 v w) :: mergeLists l r n

/-- Entries read from local memory at `va`, or the status and the address of the word that stops the command. -/
def State.getEntries (s : State) (cmd : PullCmd) (l : List Span) (va : Nat) : Nat → State × Except (Nat × Nat) (List (Nat × Nat))
  | 0 => (s, .ok [])
  | n + 1 =>
    match s.getWord cmd l va 8 with
    | (s, .error st) => (s, .error (st, va))
    | (s, .ok v) =>
      match s.getEntries cmd l (va + 8) n with
      | (s, .ok r) => (s, .ok ((v % 2 ^ 32, v / 2 ^ 32) :: r))
      | (s, .error e) => (s, .error e)

/-- Entries written from `va` up: the status, 0 for none, and the address of the word that stops the command. -/
def State.putEntries (s : State) (cmd : PullCmd) (l : List Span) (va : Nat) : List (Nat × Nat) → State × Nat × Nat
  | [] => (s, 0, 0)
  | (i, v) :: es =>
    match s.putWord cmd l va (i + 2 ^ 32 * v) with
    | (s, 0) => s.putEntries cmd l (va + 8) es
    | (s, st) => (s, st, va)

/-- What reading PULLM's local headers comes to. -/
inductive MergeRes where
  | ok (h : MergeHead)
  | stop (status va : Nat)
  | walk

/-- The global physical address of a local address that a command has just read, through its core's translation; 0 for none. -/
def State.localGpa (s : State) (cmd : PullCmd) (va : Nat) : Nat :=
  match (s.tlbFind (slotCore cmd.slot) cmd.asid.toNat false cmd.world.toNat va).1 with
  | some e => (e.phys (slotLin cmd.slot) va).gpa
  | none => 0

/-- A list's range, checked as a destination (R239), or as a source of entries: STATUS 0x09 when it fails. -/
def State.listRange (s : State) (cmd : PullCmd) (va n : Nat) (need : Need) : State × Except MergeRes (List Span) :=
  if va % 8 ≠ 0 then (s, .error (.stop 0x09 va))
  else
    match s.acting cmd.slot cmd.world cmd.asid cmd.mode fun s =>
      s.engineSpans (unitReq cmd.id) cmd.slot va n need false (pagesOf n) with
    | (s, .ok l) => (s, if need == .both && pullFe cmd.ctl && (firstDram l).isSome then .error (.stop 0x09 va) else .ok l)
    | (s, .error .walk) => (s, .error .walk)
    | (s, .error (.fault e)) => (s, .error (.stop 0x09 e.va))

/-- A word of a list's header, or the status that stops the command. -/
def State.headWord (s : State) (cmd : PullCmd) (l : List Span) (va : Nat) : State × Except MergeRes Nat :=
  match s.getWord cmd l va 8 with
  | (s, .ok w) => (s, .ok w)
  | (s, .error st) => (s, .error (.stop st va))

/-- Two reads in turn. -/
def mThen {α : Type} (r : State × Except MergeRes α) (k : State → α → State × MergeRes) : State × MergeRes :=
  match r with
  | (s, .ok a) => k s a
  | (s, .error e) => (s, e)

/-- R245: both local headers, each word read once (R322), the two destination ranges, and the limit of the merged count; then the entries that COUNT
names, past CAP too. -/
def State.mergeHead (s : State) (cmd : PullCmd) : State × MergeRes :=
  mThen (s.headWord cmd cmd.dst cmd.a) fun s w0 =>
    mThen (s.headWord cmd cmd.dst (cmd.a + 8)) fun s ov =>
      mThen (s.listRange cmd cmd.a (16 + 8 * (w0 / 2 ^ 32)) .both) fun s dst =>
        mThen (s.listRange cmd ov 16 .both) fun s oh =>
          mThen (s.headWord cmd oh ov) fun s o0 =>
            mThen (s.listRange cmd ov (16 + 8 * (o0 / 2 ^ 32)) .both) fun s spill =>
              if 2 ^ 20 < w0 % 2 ^ 32 + cmd.head.getD 0 then (s, .stop 0x07 cmd.a)
              else
                mThen (s.listRange cmd cmd.a (16 + 8 * (w0 % 2 ^ 32)) .read) fun s src =>
                  (s, .ok ⟨w0 % 2 ^ 32, w0 / 2 ^ 32, ov, o0 % 2 ^ 32, o0 / 2 ^ 32, src, dst, spill⟩)

/-- The address of a word that waits for the rest of its uncorrectable block, which a command that has no more to write never had whole (R354). -/
def State.unwritten (s : State) (cmd : PullCmd) : Option Nat := ((s.wroteOf cmd).head?).map (·.1)

/-- R245 once every remote entry is here: the status, COUNT, and the address that a record names. -/
def State.mergePull (s : State) (cmd : PullCmd) (h : MergeHead) : State × Nat × Nat × Nat :=
  match s.getEntries cmd h.src (cmd.a + 16) h.count with
  | (s, .error (st, va)) => (s, st, 0, va)
  | (s, .ok loc) =>
    let rc := cmd.head.getD 0
    let rem := (List.range rc).map fun i =>
      let v := ((cmd.buf.find? fun (o, _) => o == 16 + 8 * i).map (·.2)).getD 0
      (v % 2 ^ 32, v / 2 ^ 32)
    if !(ascending loc && ascending rem) then (s, 0x07, 0, cmd.a)
    else
      let m := mergeLists loc rem (loc.length + rem.length + 1)
      let first := m.take h.cap
      let rest := m.drop h.cap
      let extra := rest.take (h.ovCap - h.ovCount)
      match s.putEntries cmd h.dst (cmd.a + 16) first with
      | (s, st + 1, va) => (s, st + 1, 0, va)
      | (s, 0, _) =>
        match s.putEntries cmd h.spill (h.ov + 16 + 8 * h.ovCount) extra with
        | (s, st + 1, va) => (s, st + 1, 0, va)
        | (s, 0, _) =>
          match s.unwritten cmd with
          | some va => (s, 0x05, 0, va)
          | none =>
            match s.putWord cmd h.dst cmd.a (first.length + 2 ^ 32 * h.cap) with
            | (s, st + 1) => (s, st + 1, 0, cmd.a)
            | (s, 0) =>
              match (if extra.isEmpty then (s, 0)
                else s.putWord cmd h.spill h.ov (h.ovCount + extra.length + 2 ^ 32 * h.ovCap)) with
              | (s, st + 1) => (s, st + 1, 0, h.ov)
              | (s, 0) =>
                match s.unwritten cmd with
                | some va => (s, 0x05, 0, va)
                | none => (s, if extra.length < rest.length then 0x08 else 0, m.length, cmd.a)

/-! ### Pull trees (R247 to R250) -/

def Creel.treeWord (c : Creel) (g w : Nat) : Nat := (mapGet c.tree 0 (8 * g + w)).toNat
def treeParent (c : Creel) (g : Nat) : Nat := nbits (c.treeWord g 0) 43 24
def treeKey (c : Creel) (g : Nat) : Nat := nbits (c.treeWord g 0) 23 15
def treeNch (c : Creel) (g : Nat) : Nat := nbits (c.treeWord g 0) 14 11
def treeTy (c : Creel) (g : Nat) : Nat := nbits (c.treeWord g 0) 10 8
def treeOp (c : Creel) (g : Nat) : Nat := nbits (c.treeWord g 0) 7 4
def treeValid (c : Creel) (g : Nat) : Bool := (c.treeWord g 0).testBit 0
def treeChild (c : Creel) (g ch : Nat) : Nat :=
  let w := c.treeWord g (4 + ch / 2)
  if ch % 2 = 0 then nbits w 19 0 else nbits w 51 32
def treeIseq (c : Creel) (g : Nat) : Nat := nbits (c.treeWord g 3) 46 3 * 8
/-- The rank that a root's PARENT holds. -/
def noParent : Nat := 0xFFFFF

/-- The creel of a rank (R247). -/
def treeLin (c : Creel) (g rank : Nat) : Nat :=
  let w1 := c.treeWord g 1
  let w2 := c.treeWord g 2
  let n0 := nbits w1 31 20 + 1
  let n1 := nbits w1 43 32 + 1
  (nbits w1 18 0 + rank % n0 * nbits w2 18 0 + rank / n0 % n1 * nbits w2 37 19 + rank / (n0 * n1) * nbits w2 56 38) % 2 ^ 19

/-- The window address of a local address in the creel of a rank (R64, R249). -/
def treeAddr (c : Creel) (g rank va : Nat) : Nat := treeLin c g rank * 2 ^ 45 + va

/-- Bytes of two commands' buffers overlap (R248). -/
def spansOverlap (a b : List Span) : Bool :=
  a.any fun x => b.any fun y => decide (x.place.gpa < y.place.gpa + y.n ∧ y.place.gpa < x.place.gpa + x.n)

/-- R248. An uncorrectable ISEQ completes the command with STATUS 0x05, as R355 says of data that CPULL reads. -/
def execCpull (a b c : BitVec 7) (s : State) : Host.Outcome State Fault Refusal :=
  done (issue [a, b, c, c + 1] [a, b, c, c + 1] (fun s =>
    let va := s.x a.toNat
    let vb := s.x b.toNat
    let ctl := (s.x c.toNat).toNat
    let comp := (s.x (c + 1).toNat).toNat
    let g := nbits ctl 29 24
    let len := pullLen ctl
    if len = 0 ∨ len % 8 ≠ 0 then s.trapWith 0x01 (wordOf (.cpull a b c))
    else
      match s.checkPull [va, vb] va.toNat len .write (some (vb.toNat, len)) comp (pullFe ctl) with
      | (s, .error t) => s.stopped t
      | (s, .ok (dst, src, cw)) =>
        let cr := s.creel s.lin
        let gw := BitVec.ofNat 64 g
        if !treeValid cr g || treeKey cr g != s.me.asid.toNat then s.trapWith 0x17 gw
        else if cr.pulls.any fun p => p.fn == 4 && p.group == g then s.wait .none
        else
          let va' := treeIseq cr g
          match s.checkLocal s.cur va' 8 8 .both true with
          | (s, .trap t) => s.trap t
          | (s, .miss) => s.parkWalk s.cur false va'
          | (s, .ok p) =>
            let bad := s.badIn p.gpa 8
            let s := if bad then s else s.correct p.gpa 8 va' 1
            let n := s.readAs (s.slotKey s.cur) p.gpa 8 + 1
            if s.spansClash [⟨va', 8, p⟩] then s.wait .hold
            else if !bad && nbits ctl 63 32 != n % 2 ^ 32 then s.trapWith 0x18 gw
            else if cr.pulls.any fun q => q.fn == 4 && spansOverlap (dst ++ src) (q.dst ++ q.src) then s.trapWith 0x18 gw
            else
              s.withChannel fun ch s =>
                let id := s.nextId
                let s := s.acceptPull ch 4 va.toNat vb.toNat ctl dst src cw [⟨va', 8, p⟩] g n
                if bad then
                  match s.findPull s.lin id with
                  | some cmd => (s.foundBad p.gpa 8).finishPull cmd 0x05 0 va' p.gpa
                  | none => s
                else s) s)

/-- The peer whose sequence word a node waits for, with the value that it must reach (R249); none while it combines a child. -/
def PullCmd.awaited (cmd : PullCmd) (c : Creel) : Option (Nat × Nat) :=
  if cmd.phase = 0 then some (treeParent c cmd.group, cmd.inst - 1)
  else if cmd.phase % 2 = 1 then some (treeChild c cmd.group (cmd.phase / 2), cmd.inst)
  else none

/-- The node's own contribution copied into its result (R249): the offset at which it stopped, and the status. -/
def State.copyOwn (s : State) (cmd : PullCmd) (off : Nat) : Nat → State × Nat × Nat
  | 0 => (s, off, 0)
  | n + 1 =>
    match s.getWord cmd cmd.src (cmd.b + off) 8 with
    | (s, .error st) => (s, off, st)
    | (s, .ok v) =>
      match s.putWord cmd cmd.dst (cmd.a + off) v with
      | (s, 0) => s.copyOwn cmd (off + 8) n
      | (s, st) => (s, off, st)

/-- A command ends. Words that still wait for the rest of an uncorrectable block or sector were never written: the block stops it there (R354). -/
def State.endPull (s : State) (cmd : PullCmd) (status count va gpa : Nat) : State :=
  match s.wroteOf cmd with
  | (a, _) :: _ =>
    if status = 0 then s.finishPull cmd 0x05 (a - cmd.a) a (spanGpa cmd.dst a)
    else s.finishPull cmd status (min count (a - cmd.a)) va gpa
  | [] => s.finishPull cmd status count va gpa

/-- The node publishes its instance at ISEQ and completes (R249); a word that it cannot write for uncorrectable data stops it (R354). An instance
that PUB would refuse, one not above ISEQ or at 2^64 (R230), is not written (log 32). -/
def State.publishTree (s : State) (cmd : PullCmd) : State :=
  let lin := slotLin cmd.slot
  let len := pullLen cmd.ctl
  match cmd.iseq with
  | sp :: _ =>
    let g := sp.place.gpa
    if !(s.wroteOf cmd).isEmpty then s.endPull cmd 0 len 0 0
    else if s.badBlock g then (s.foundBad (g / 16 * 16) 16).finishPull cmd 0x05 len sp.va g
    else
      let s := s.correct (g / 16 * 16) 16 sp.va 1
      let key := s.key lin cmd.world.toNat
      let s := if s.readAs key g 8 < cmd.inst ∧ cmd.inst < 2 ^ 64 then s.store key g (natBytes cmd.inst 8) else s
      s.finishPull cmd 0 len 0 0
  | [] => s.finishPull cmd 0 len 0 0

/-- After the parent's wait, or after a child: the next child's wait, or the publication. -/
def State.treeNext (s : State) (cmd : PullCmd) (ch : Nat) : State :=
  if ch < treeNch (s.creel (slotLin cmd.slot)) cmd.group then
    s.setPull { cmd with phase := 1 + 2 * ch, cur := 0, since := s.cycle }
  else s.publishTree { cmd with issued := true }

/-- The parent's wait is over: the copy, then the first child. -/
def State.treeBegin (s : State) (cmd : PullCmd) : State :=
  let (s, n, st) := if cmd.a = cmd.b then (s, 0, 0) else s.copyOwn cmd 0 (pullLen cmd.ctl / 8)
  if st = 0 then s.treeNext cmd 0
  else
    let src := (spanPlace cmd.src (cmd.b + n)).isSome && st == 5 && s.badIn (spanGpa cmd.src (cmd.b + n)) 8
    s.endPull cmd st n (if src then cmd.b + n else cmd.a + n) (if src then spanGpa cmd.src (cmd.b + n) else spanGpa cmd.dst (cmd.a + n))

/-- Where a source address of a command lies, or the status that stops it with the global physical address it names, 0 for none (R241), or a walk
that the command waits for (R76). -/
inductive PullSrc where
  | ok (p : Phys)
  | stop (status gpa : Nat)
  | wait

def State.pullSource (s : State) (cmd : PullCmd) (va : Nat) : State × PullSrc :=
  s.acting cmd.slot cmd.world cmd.asid cmd.mode fun s =>
    match s.unitXlate (unitReq cmd.id) cmd.slot true va with
    | (s, .wait) => (s, .wait)
    | (s, .fault (.cause _)) => (s, .stop 0x01 0)
    | (s, .fault (.bad g _)) => (s, .stop 0x05 g)
    | (s, .ok e) =>
      let p := e.phys (slotLin cmd.slot) va
      if !permitted e .read cmd.mode then (s, .stop 0x02 p.gpa)
      else if s.isLost (slotLin cmd.slot) (linOf p.gpa / 128) then (s, .stop 0x06 p.gpa)
      else (s, .ok p)

/-- The status of a read port's refusal (R241). -/
def portStatus (cause : Nat) : Nat :=
  match cause with
  | 0x06 => 0x01
  | 0x07 => 0x03
  | _ => 0x05

/-- COUNT of a CPULL that stops (R241): how much of its result the command has written. Before its copy it is nothing, and after it, or after a whole child
where the result is its own contribution, all of it; `off` is how far it has come with the child that it combines (log 32). -/
def PullCmd.landed (cmd : PullCmd) (off : Nat) : Nat :=
  if cmd.phase = 0 then 0
  else if cmd.a ≠ cmd.b ∨ 2 < cmd.phase then pullLen cmd.ctl
  else if cmd.phase = 1 then 0
  else off

/-- R249, R251: a node sends the internal watch that it waits for, of class 2, as an arm of the peer's sequence word; once that is answered the node
goes on. A refused one stops it (R86, R241). The waits and the node's own copy do not wait for the command ahead in its channel: R240 has a channel issue
sector requests in turn (log 32). -/
def execCpullPeerReady (lin g : Nat) (s : State) : Host.Outcome State Fault Refusal :=
  done (match (s.creel lin).pulls.find? fun p => p.fn == 4 && p.group == g with
    | none => s
    | some cmd =>
      match cmd.awaited (s.creel lin) with
      | none => s
      | some (rank, target) =>
        if cmd.phase = 0 ∧ rank = noParent then s.treeBegin cmd
        else
          match s.treeArm cmd with
          | some a =>
            if s.cycle < a.due then s
            else
              match a.stage with
              | .answered _ =>
                let s := s.dropArm a.id
                if cmd.phase = 0 then s.treeBegin cmd else s.setPull { cmd with phase := cmd.phase + 1, cur := 0 }
              | .refused => (s.dropArm a.id).endPull cmd 0x03 (cmd.landed 0) a.va a.gpa
              | _ => s
          | none =>
            -- No sequence word reaches 2^64: the node waits until its watchdog ends it.
            if 2 ^ 64 ≤ target then s else
            let va := treeAddr (s.creel lin) g rank (treeIseq (s.creel lin) g)
            match s.pullSource cmd va with
            | (s, .wait) => s
            | (s, .stop st g) => s.endPull cmd st (cmd.landed 0) va g
            | (s, .ok p) =>
              let away := linOf p.gpa != lin
              if away && !s.budgetOpen lin 2 then s
              else
                let s := if away then s.spend lin 2 else s
                let (id, s) := s.newId
                let (due, s) := s.armTravel lin (linOf p.gpa)
                { s with arms := s.arms ++ [⟨id, cmd.slot, treeReg g, va, p.gpa, BitVec.ofNat 64 target, .sent, due, s.cycle⟩] })

/-- R376: a node that has waited longer than the join watchdog limit of now completes with STATUS 0x0A (log 32, log 59). -/
def execCpullWatchdog (lin g : Nat) (s : State) : Host.Outcome State Fault Refusal :=
  done (match (s.creel lin).pulls.find? fun p => p.fn == 4 && p.group == g with
    | none => s
    | some cmd =>
      match cmd.awaited (s.creel lin) with
      | none => s
      | some _ =>
        if s.cycle ≤ cmd.since + 2 ^ (s.creel lin).params.jwd then s else s.endPull cmd 0x0A (cmd.landed 0) 0 0)

/-! ### Requests (R240) -/

/-- What a command does next: nothing can issue now; it needs a walk, or has read what its requests need; all have issued; bytes [start, start + len) of
the destination from `n` bytes at a source address; or a status stops the command, at an address. -/
inductive PullNext where
  | wait
  | walk
  | prep (cmd : PullCmd)
  | last
  | chunk (start len va n : Nat) (cmd : PullCmd)
  | stop (cmd : PullCmd) (status va gpa : Nat)

/-- Bytes from `va` to the end of its sector, at most `n`. -/
def inSector (va n : Nat) : Nat := min n (128 - va % 128)

/-- PULLX: the next element's chunk, skipping elements whose index is all ones (R243, R323). The indices of two elements that share an aligned word are
read at one place, once (R322). -/
def State.nextGather (s : State) (cmd : PullCmd) (g : Nat) : Nat → State × PullNext
  | 0 => (s, .last)
  | n + 1 =>
    let e := pullElem cmd.ctl
    let i := cmd.cur / e
    let off := cmd.cur % e
    if pullLen cmd.ctl ≤ i then (s, .last)
    else
      match cmd.idx with
      | some w =>
        let idx := w / 2 ^ (32 * (i % 2)) % 2 ^ 32
        let after := if i % 2 = 1 then none else some w
        if idx = 2 ^ 32 - 1 then s.nextGather { cmd with cur := (i + 1) * e, idx := after } g n
        else
          let va := (g + idx * e + off) % 2 ^ 64
          let m := inSector va (e - off)
          (s, .chunk cmd.cur m va m { cmd with cur := cmd.cur + m, idx := if off + m = e then after else some w })
      | none =>
        let va := cmd.b + 8 + 8 * (i / 2)
        match s.getWord cmd cmd.src va (if i / 2 * 2 + 1 < pullLen cmd.ctl then 8 else 4) with
        | (s, .error st) => (s, .stop cmd st va (spanGpa cmd.src va))
        | (s, .ok w) => (s, .prep { cmd with idx := some w })

/-- The next request of a command. A PULLM's x(b) that is no multiple of 8, which R239 does not check, ends it as a malformed list (log 51). -/
def State.nextPull (s : State) (cmd : PullCmd) : State × PullNext :=
  let len := pullLen cmd.ctl
  let plain := fun (base : Nat) =>
    if len ≤ cmd.cur then PullNext.last
    else
      let va := (base + cmd.cur) % 2 ^ 64
      let n := inSector va (len - cmd.cur)
      .chunk cmd.cur n va n { cmd with cur := cmd.cur + n }
  match cmd.fn with
  | 1 =>
    match cmd.head with
    | some g => s.nextGather cmd g (len + 1)
    | none =>
      match s.getWord cmd cmd.src cmd.b 8 with
      | (s, .error st) => (s, .stop cmd st cmd.b (spanGpa cmd.src cmd.b))
      | (s, .ok g) => if g % 8 ≠ 0 then (s, .stop cmd 0x07 0 0) else (s, .prep { cmd with head := some g })
  | 2 =>
    if pullOp cmd.ctl = 5 then
      -- the header, then the bit words: cur counts source bytes
      if cmd.cur = 0 then (s, .chunk 0 0 cmd.b 8 { cmd with cur := 8 })
      else if cmd.head.isNone then (s, .wait)
      else
        let stop := 8 + (len + 255) / 256 * 8
        if stop ≤ cmd.cur then (s, .last)
        else
          let va := (cmd.b + cmd.cur) % 2 ^ 64
          let n := inSector va (stop - cmd.cur)
          let first := 32 * (cmd.cur - 8)
          (s, .chunk first (min (32 * n) (len - first)) va n { cmd with cur := cmd.cur + n })
    else (s, plain cmd.b)
  | 3 =>
    -- the header, then the entries: cur counts source bytes
    if cmd.b % 8 ≠ 0 then (s, .stop cmd 0x07 0 0)
    else if cmd.cur = 0 then (s, .chunk 0 8 cmd.b 8 { cmd with cur := 16 })
    else
      match cmd.head, cmd.merge with
      | none, _ => (s, .wait)
      | some _, none =>
        match s.mergeHead cmd with
        | (s, .walk) => (s, .walk)
        | (s, .stop st va) => (s, .stop { cmd with cur := 0 } st (if st = 5 then va else 0) (if st = 5 then s.localGpa cmd va else 0))
        | (s, .ok h) => (s, .prep { cmd with merge := some h })
      | some rc, some _ =>
        let stop := 16 + 8 * rc
        if stop ≤ cmd.cur then (s, .last)
        else
          let va := (cmd.b + cmd.cur) % 2 ^ 64
          let n := inSector va (stop - cmd.cur)
          (s, .chunk cmd.cur n va n { cmd with cur := cmd.cur + n })
  | 4 =>
    if cmd.phase % 2 = 1 ∨ cmd.phase = 0 then (s, .wait)
    else
      let c := s.creel (slotLin cmd.slot)
      if len ≤ cmd.cur ∧ cmd.phase / 2 < treeNch c cmd.group then (s, .wait)
      else (s, plain (treeAddr c cmd.group (treeChild c cmd.group (cmd.phase / 2 - 1)) cmd.a))
  | _ => (s, plain cmd.b)

/-- COUNT of a command that stops at an offset. -/
def PullCmd.stopCount (cmd : PullCmd) (off : Nat) : Nat :=
  match cmd.fn with
  | 3 => 0
  | 4 => cmd.landed off
  | _ => off

/-- A command whose last request has issued and whose requests are all in: it completes, or a CPULL goes on to its next child (R241,
R249). -/
def State.settlePull (s : State) (cmd : PullCmd) : State :=
  let all := cmd.issued || (cmd.fn == 4 && cmd.phase != 0 && cmd.phase % 2 == 0 && decide (pullLen cmd.ctl ≤ cmd.cur))
  if !all || s.preqs.any (·.cmd == cmd.id) then s
  else
    match cmd.fail with
    | some f => s.endPull cmd f.status (cmd.stopCount f.at_) f.va f.gpa
    | none =>
      match cmd.fn with
      | 3 =>
        match cmd.merge with
        | none => s
        | some h =>
          match s.mergePull cmd h with
          | (s, st, n, va) => s.finishPull cmd st n (if st = 0 then 0 else va) (if st = 0 then 0 else spanGpa (h.src ++ h.dst ++ h.spill) va)
      | 4 => s.treeNext cmd (cmd.phase / 2)
      | _ => s.endPull cmd 0 (pullBytes cmd.fn cmd.ctl) 0 0

/-- A command stops, and completes if nothing is in flight. -/
def State.stopPull (s : State) (cmd : PullCmd) (f : PullFail) : State :=
  let (s, cmd) := s.failPull cmd f
  s.settlePull cmd

/-- R240: a channel issues the next request of its first command that has not issued its last one. -/
def execPullRequestIssue (lin ch : Nat) (s : State) : Host.Outcome State Fault Refusal :=
  done (
    let cmds := (s.creel lin).pulls
    match cmds.find? fun p => p.ch == ch && !p.issued with
    | none => s
    | some cmd =>
      let out := (s.preqs.filter fun r => r.lin == lin && cmds.any fun p => p.id == r.cmd && p.ch == ch).length
      if 64 ≤ out then s
      else
        match s.nextPull cmd with
        | (s, .wait) | (s, .walk) => s
        | (s, .prep cmd) => s.setPull cmd
        | (s, .last) => (s.setPull { cmd with issued := true }).settlePull { cmd with issued := true }
        | (s, .stop cmd st va g) => s.stopPull cmd ⟨cmd.cur, st, va, g⟩
        | (s, .chunk start len va n cmd') =>
          match s.pullSource cmd va with
          | (s, .wait) => s
          | (s, .stop st g) => s.stopPull cmd' ⟨start, st, va, g⟩
          | (s, .ok p) =>
            let cls := if cmd.fn = 4 then 2 else 1
            let away := linOf p.gpa != lin
            if away && !s.budgetOpen lin cls then s
            else
              let s := if away then s.spend lin cls else s
              let (id, s) := s.newId
              let (due, s) := s.laterCycle
              let r : PullReq := ⟨id, lin, cmd.id, start, len, va, p.gpa, p.bits, n, p.hk, p.home, false, due, 0, 0, 0, s.cycle⟩
              let s := { s with preqs := s.preqs ++ [r] }
              s.setPull cmd')

/-! ### At the owner (R99, R250) -/

def State.setReq (s : State) (r : PullReq) : State := { s with preqs := s.preqs.map fun q => if q.id == r.id then r else q }

/-- The request is at its owner, which answers its module and has not discarded it (R361). -/
def State.reqServes (s : State) (r : PullReq) : Bool :=
  !r.answered && decide (r.due ≤ s.cycle) && s.answers r.lin (linOf r.gpa) && !s.discarded.contains r.id

/-- A GLD is at its owner, which answers its module. -/
def State.gldServes (s : State) (a : Access) (p : Part) : Bool :=
  decide (a.due ≤ s.cycle) && s.answers (slotLin a.slot) (linOf p.gpa) && !s.discarded.contains a.id

/-- The read of a request: data up to the first uncorrectable word, or a refusal. -/
def State.servePull (s : State) (cmd : PullCmd) (r : PullReq) : State :=
  let (due, s) := s.laterCycle
  match s.portFind cmd.slot r.gpa r.n r.hk r.home with
  | (s, .error c) => s.setReq { r with answered := true, due := due, status := portStatus c }
  | (s, .ok loc) =>
    let key := s.key (slotLin cmd.slot) cmd.world.toNat
    let good := match s.firstBad loc r.n with
      | some k => k / 8 * 8
      | none => r.n
    let s := (if good < r.n then s.foundBad loc r.n else s).correct loc good r.va 1
    s.setReq { r with answered := true, due := due, data := s.readAs key loc r.n, good := good,
                      status := if good < r.n then 0x05 else 0 }

/-- R99: a read at the owner's read port, of a pull or of a GLD. -/
def execReadPortRead (id : Nat) (s : State) : Host.Outcome State Fault Refusal :=
  done (match s.preqs.find? (·.id == id) with
    | some r =>
      match s.findPull r.lin r.cmd with
      | some cmd => if cmd.fn != 4 && s.reqServes r then s.servePull cmd r else s
      | none => s
    | none =>
      match s.accesses.find? (·.id == id) with
      | some a =>
        match a.kind, a.parts with
        | .gld z ord, p :: _ =>
          if s.gldServes a p then s.serveGld a p z ord else s
        | _, _ => s
      | none => s)

/-- R250: the child's read port serves a tree pull only for the requester that its entry names as parent. -/
def execTreePullServe (id : Nat) (s : State) : Host.Outcome State Fault Refusal :=
  done (match s.preqs.find? (·.id == id) with
    | none => s
    | some r =>
      match s.findPull r.lin r.cmd with
      | none => s
      | some cmd =>
        if cmd.fn != 4 || !s.reqServes r then s
        else
          let c := s.creel (linOf r.gpa)
          let g := cmd.group
          if treeValid c g && treeKey c g == cmd.asid.toNat && treeParent c g != noParent &&
              treeLin c g (treeParent c g) == r.lin then s.servePull cmd r
          else
            let (due, s) := s.laterCycle
            s.setReq { r with answered := true, due := due, status := 0x04 })

/-! ### At the requester -/

/-- What a source word leaves in the destination: itself, or its combination with what the destination holds (R242, R244). -/
def State.combineWord (s : State) (cmd : PullCmd) (op ty : Nat) (combine : Bool) (va v : Nat) : State × Except Nat Nat :=
  if combine then
    match s.getWord cmd cmd.dst va 8 with
    | (s, .ok d) => (s, .ok (pullWordOp op ty d v))
    | r => r
  else (s, .ok v)

/-- The words of an answer written or combined from offset `off` of the request on (R242 to R244): the offset at which it stopped, and
the status. -/
def State.landWords (s : State) (cmd : PullCmd) (r : PullReq) (op ty : Nat) (combine : Bool) (off : Nat) : Nat → State × Nat × Nat
  | 0 => (s, off, 0)
  | n + 1 =>
    let va := cmd.a + r.start + off
    let v := r.data / 2 ^ (8 * off) % 2 ^ 64
    match s.combineWord cmd op ty combine va v with
    | (s, .error st) => (s, off, st)
    | (s, .ok v) =>
      match s.putWord cmd cmd.dst va v with
      | (s, 0) => s.landWords cmd r op ty combine (off + 8) n
      | (s, st) => (s, off, st)

/-- The bits of an SGNACC answer applied to the destination's words: 32 words of two elements for each source word. -/
def State.landBits (s : State) (cmd : PullCmd) (r : PullReq) (off : Nat) : Nat → State × Nat × Nat
  | 0 => (s, off, 0)
  | n + 1 =>
    let va := cmd.a + r.start + off
    match s.getWord cmd cmd.dst va 8 with
    | (s, .error st) => (s, off, st)
    | (s, .ok d) =>
      match s.putWord cmd cmd.dst va (sgnWord (cmd.head.getD 0) d (r.data / 2 ^ (off / 4) % 4)) with
      | (s, 0) => s.landBits cmd r (off + 8) n
      | (s, st) => (s, off, st)

/-- The good part of an answer takes effect: the offset in the request's destination up to which it did, and the status. -/
def State.landPull (s : State) (cmd : PullCmd) (r : PullReq) : State × PullCmd × Nat × Nat :=
  match cmd.fn with
  | 3 =>
    if r.start = 0 then
      (s, if r.good = 8 then { cmd with head := some (r.data % 2 ^ 32) } else cmd, 0, 0)
    else
      let ws := (List.range (r.good / 8)).map fun i => (r.start + 8 * i, r.data / 2 ^ (64 * i) % 2 ^ 64)
      (s, { cmd with buf := cmd.buf ++ ws }, r.good, 0)
  | 2 =>
    if pullOp cmd.ctl = 5 then
      if r.len = 0 then (s, if r.good = 8 then { cmd with head := some (r.data % 2 ^ 32) } else cmd, 0, 0)
      else
        let (s, o, st) := s.landBits cmd r 0 (min r.len (32 * r.good) / 8)
        (s, cmd, o, st)
    else
      let (s, o, st) := s.landWords cmd r (pullOp cmd.ctl) (pullTy cmd.ctl) true 0 (r.good / 8)
      (s, cmd, o, st)
  | 4 =>
    let c := s.creel r.lin
    let (s, o, st) := s.landWords cmd r (treeOp c cmd.group) (treeTy c cmd.group) true 0 (r.good / 8)
    (s, cmd, o, st)
  | _ =>
    let (s, o, st) := s.landWords cmd r 0 0 false 0 (r.good / 8)
    (s, cmd, o, st)

/-- R240, R241: source data arrives and is written or combined; the command may stop or complete. -/
def execPullSectorData (id : Nat) (s : State) : Host.Outcome State Fault Refusal :=
  done (match s.preqs.find? (·.id == id) with
    | none => s
    | some r =>
      match s.findPull r.lin r.cmd with
      | none => s
      | some cmd =>
        if !r.answered || decide (s.cycle < r.due) then s
        else
          let s := { s with preqs := s.preqs.filter (·.id != id) }
          let (s, cmd, o, st) := s.landPull cmd r
          let s := s.setPull cmd
          let d := if r.len = r.n then o else 0
          if st ≠ 0 then s.stopPull cmd ⟨r.start + o, st, cmd.a + r.start + o, spanGpa cmd.dst (cmd.a + r.start + o)⟩
          else if r.status ≠ 0 then
            let d := if r.status = 5 then max d r.good else d
            s.stopPull cmd ⟨r.start + o, r.status, r.va + d, r.gpa + d⟩
          else s.settlePull cmd)

/-- R251: the next period begins; what the creel held back goes out as far as its budget allows. -/
def execBudgetPeriod (lin : Nat) (s : State) : Host.Outcome State Fault Refusal :=
  done (
    if s.cycle < (s.creel lin).periodEnd then s
    else
      let s := s.updCreel lin fun c =>
        let n := max 1 (nbits (mapGet c.tree 0 0x204).toNat 15 0)
        { c with spent := [], periodEnd := c.periodEnd + ((s.cycle - c.periodEnd) / n + 1) * n }
      (s.arms.filter fun a => a.stage == .unsent && slotLin a.slot == lin).foldl (fun s a =>
        if s.budgetOpen lin 0 then
          let (due, s) := (s.spend lin 0).armTravel lin (linOf a.gpa)
          s.setArm { a with stage := .sent, due := due, since := s.cycle }
        else s) s)

end Sys2Proof.Machine
end

