-- ==== Sys2Proof/Machine/Slots.lean ====
section
/-!
DEFINITION. The life of a slot: the slot tables (R272), the search for a window (R27), how a slot starts (R29, R186), FENCE.E (R93), and
how it ends (R31, R328), with the update of the completion word (R32 to R34).
-/

namespace Sys2Proof.Machine

/-! ### Slot tables and windows -/

/-- The slot table entry of a position of a core: AA and V at reset (R272). -/
def Core.slotEntry (c : Core) (p : Nat) : Nat := (mapGet c.slotTable 0x18000 p).toNat

/-- R272: the entry admits a tenant. -/
def entryAdmits (e world asid : Nat) : Bool :=
  e.testBit 15 && nbits e 14 9 == world && (e.testBit 16 || nbits e 8 0 == asid)

/-- The windows of the busy slots of a core. -/
def State.windows (s : State) (core : Nat) : List (Nat × Nat) :=
  (List.range 16).filterMap fun k =>
    let sl := s.slot (16 * core + k)
    if sl.busy then some (sl.base, sl.limit) else none

/-- R27: the first free run of `size` registers, in steps of 8. -/
def State.freeRun (s : State) (core size : Nat) : Option Nat :=
  let ws := s.windows core
  ((List.range 256).map (8 * ·)).find? fun b =>
    decide (b + size ≤ 2048) && ws.all fun (l, h) => decide (b + size ≤ l ∨ h ≤ b)

/-! ### Starting a slot (R29) -/

/-- A format descriptor as MFS reads it and MTS writes it: without the reserved bits [15:9] (R6, R115, R138, R346). A packet word gives a register all its
bits, and the instruction that uses the descriptor checks them (R29, R116; log 20). -/
def descKeep (v : Word) : Word := v &&& ~~~0xFE00#64

/-- What a starting member is given. -/
structure Start where
  base : Nat
  size : Nat
  entry : Nat
  memb : Nat
  width : Nat
  weave : Nat
  world : Nat
  asid : Nat
  attached : Bool
  args : List Word
  fa : Word
  fb : Word
  fc : Word
  sa : Word
  sb : Word
  deriving DecidableEq, Repr

/-- A slot as R29 starts it. What R29 does not name is unchanged: the partition, the timer event, the trap registers but for STATUS, UEPC and
the shadow registers. -/
def Slot.started (sl : Slot) (p : Start) : Slot :=
  { Slot.idle with
    busy := true, base := p.base, limit := p.base + p.size, pc := p.entry, xfer := true
    member := if p.attached then .attached else .strand
    memb := p.memb, width := p.width, weave := p.weave
    shadow := sl.shadow, uepc := sl.uepc
    fa := p.fa, fb := p.fb, fc := p.fc, sa := p.sa.setWidth 47, sb := p.sb.setWidth 47
    sepc := sl.sepc, scause := sl.scause, stval := sl.stval
    world := BitVec.ofNat 6 p.world, asid := BitVec.ofNat 9 p.asid
    sbase := sl.sbase, sbound := sl.sbound, slock := sl.slock
    stimer := sl.stimer, stimerPend := sl.stimerPend, ttidx := sl.ttidx }

/-- R29: a member starts: its window's registers present, x3 to x8 from the arguments and every other 0. -/
def State.startSlot (s : State) (id : Nat) (p : Start) : State :=
  let s := (s.updSlot id (·.started p))
  let s := (List.range p.size).foldl (fun s n =>
    let v := if n < 3 then 0 else (nth p.args (n - 3)).getD 0
    s.setEntry (slotCore id * 2048 + p.base + n) ⟨v, true, false, 0⟩) s
  { s with running := setAdd s.running id }

/-- A new weave of members that start now, and whether it takes the context of its slot index (R396). -/
def State.newWeave (s : State) (w : Weave) : Nat × State :=
  let (id, s) := s.newId
  let ctx := !s.ctxTaken w.lin w.idx id
  (id, { s with weaves := mapPut s.weaves id { w with ctx := ctx, cstate := if ctx then .run else .empty } })

/-! ### SPAWN (R186) -/

/-- R186: SPAWN starts a slot of the executing core as a weave of width 1 with the sender's tenant. It waits before it issues for the
sender's outstanding accesses. It copies x3 to x8 as their entries hold them: it does not wait for their presence bits and raises no relaxed-load
fault that is pending on them (log 52). -/
def execSpawn (d a b : BitVec 7) (s : State) : Host.Outcome State Fault Refusal :=
  done (issue [d, a, b] [a, b] (fun s =>
    if !(s.outstanding s.cur).isEmpty then s
    else
      let x := (s.x a.toNat).toNat
      let ent := s.x b.toNat
      let me := s.me
      let core := slotCore s.cur
      let no := x % 16
      let ws := nbits x 8 4
      let t := 16 * core + no
      let tg := s.slot t
      if ws = 0 ∨ 16 < ws then s.trapWith 0x01 (wordOf (.spawn d a b))
      else if ent.toNat % 4 ≠ 0 ∨ 2 ^ 47 ≤ ent.toNat then s.trapWith 0x05 ent
      else if tg.busy || tg.idleAt == s.cycle + 1 then s.finish d 1
      else if !entryAdmits ((s.core core).slotEntry no) me.world.toNat me.asid.toNat then s.finish d 3
      else
        match s.freeRun core (8 * ws) with
        | none => s.finish d 2
        | some base =>
          let args := (List.range 6).map fun i => if me.base + i + 3 < me.limit then s.x (i + 3) else 0
          let w : Weave := ⟨s.lin, no, 1, [slotCoreNo s.cur], false, .run, ent.toNat, true, s.cycle, me.world.toNat,
            me.asid.toNat, 0, 0, 0, 0, 0, 0, s.lin, none⟩
          let (wv, s) := s.newWeave w
          let att := match mapFind s.weaves wv with | some w => w.ctx | none => false
          let s := s.startSlot t ⟨base, 8 * ws, ent.toNat, 0, 1, wv, me.world.toNat, me.asid.toNat, att, args, me.fa, me.fb,
            me.fc, me.sa.setWidth 64, me.sb.setWidth 64⟩
          let s := s.updSlot t fun sl =>
            { sl with gtau := me.gtau, gquiet := me.gquiet, gnf := me.gnf, gsb := me.gsb }
          s.finish d 0) s)

/-! ### Task-unit words and records -/

/-- A word of the system area of a creel, written and read under world 0 (R280, R310). -/
def State.sysRead (s : State) (lin lpa : Nat) : Nat := s.readAs (s.key lin 0) (gpaOf lin lpa) 8
def State.sysWrite (s : State) (lin lpa v : Nat) : State :=
  (s.readHalf (gpaOf lin lpa) 8 0).store (s.key lin 0) (gpaOf lin lpa) (natBytes v 8)

/-- A record of the task unit (R397): source 0x06, class 0x3. -/
def State.taskRec (s : State) (lin : Nat) (r : TaskRec) : State :=
  s.pushRec lin 0x06 r.core r.slot 0
    (recWords (worldOf (s.module (lin / 128)) r.world).prot 0x3 0x06 r.code r.world r.asid r.core r.slot r.lnum r.vaddr r.paddr 0
      r.pc r.detail r.word0 r.word12)

/-! ### The completion word (R32, R34) -/

/-- What the place of a completion word comes to: a place, the code of R397 for none, or a walk to wait for (R76). -/
inductive DonePlace where
  | ok (p : Place)
  | none (code : Nat)
  | wait

def State.donePlace (s : State) (req lin world asid va : Nat) : State × DonePlace :=
  if 2 ^ 47 ≤ va then (s, .none 0x05)
  else
    match s.creelXlate req lin asid world va with
    | (s, .wait) => (s, .wait)
    | (s, .fault _) => (s, .none 0x05)
    | (s, .ok e) =>
      let p := e.phys lin va
      let lpa := lpaOf p.gpa
      let home := if isDram lpa then s.homeOf lin p.hk p.home lpa else .none
      if isDram lpa && home.isNone then (s, .none 0x05)
      else if !(e.w && e.u) then (s, .none 0x08)
      else if isSystemArea lpa then (s, .none 0x07)
      else (s, .ok (p.place home))

/-- One more completed packet in bits [31:0], or one more rejected packet in bits [63:32] (R32, R34). -/
def doneValue (v : Nat) (reject : Bool) : Nat :=
  let lo := v % 2 ^ 32
  let hi := v / 2 ^ 32
  if reject then (hi + 1) % 2 ^ 32 * 2 ^ 32 + lo else hi * 2 ^ 32 + (lo + 1) % 2 ^ 32

/-- The update of a completion word at its home creel (R32, R34), or the record that says why there is none (R397); none when it waits for a
walk. -/
def State.tryDone (s : State) (lin : Nat) (u : DoneUpd) : State × Bool :=
  let r := u.entry
  match s.donePlace (unitReq u.id) lin r.world r.asid u.va with
  | (s, .wait) => (s, false)
  | (s, .none c) =>
    (s.taskRec lin { r with code := 0x03, vaddr := u.va, paddr := 0, detail := c + (if u.reject then 256 else 0) }, true)
  | (s, .ok p) =>
    let key := s.key lin r.world
    let s := s.ensure p.gpa p.hk p.hm p.home r.world
    let loc := s.dataLoc p.gpa p.home
    if (p.home.isNone && s.badBlock loc) || (p.home.isSome && setHas s.bad (unitOf loc)) then (s.foundBad (loc / 16 * 16) 16, true)
    else
      let s := s.readHalf loc 8 u.va
      let s := (s.store key loc (natBytes (doneValue (s.readAs key loc 8) u.reject) 8)).l2Dirty p.gpa p.home
      (if isSram (lpaOf p.gpa) then (s.setFe p.gpa true).wake p.gpa else s, true)

/-- An update of a completion word, which may have to wait for a walk. -/
def State.updateDone (s : State) (lin : Nat) (reject : Bool) (va : Nat) (r : TaskRec) : State :=
  if va = 0 ∨ (reject ∧ va % 8 ≠ 0) then s
  else
    let u : DoneUpd := ⟨s.nextId, reject, va, r⟩
    match s.tryDone lin u with
    | (s, true) => s
    | (s, false) => { s with nextId := s.nextId + 1 }.updCreel lin fun c => { c with updates := c.updates ++ [u] }

/-- The updates that have waited for a walk that is over, by its requesters, go on. -/
def State.runUpdates (s : State) (lin : Nat) (reqs : List Nat) : State :=
  ((s.creel lin).updates.filter fun u => reqs.contains (unitReq u.id)).foldl (fun s u =>
    match s.tryDone lin u with
    | (s, true) => s.updCreel lin fun c => { c with updates := c.updates.filter (·.id != u.id) }
    | (s, false) => s) s

/-! ### Directions of the mesh (R12, R273) -/

/-- The neighbour of a creel in direction 0 north, 1 east, 2 south, 3 west, and the opposite direction. -/
def neighbour (lin d : Nat) : Option Nat :=
  let row := lin % 128 / 16
  let col := lin % 16
  match d with
  | 0 => if row = 0 then none else some (lin - 16)
  | 1 => if col = 15 then none else some (lin + 1)
  | 2 => if row = 7 then none else some (lin + 16)
  | _ => if col = 0 then none else some (lin - 1)
def opposite (d : Nat) : Nat := (d + 2) % 4

/-- R284, R379: the end of a levelled packet is published for its home in direction `d`: the ring word, then DSEQ. -/
def State.publishLevelled (s : State) (lin d word : Nat) : State :=
  let base := 0xBF8400 + 0x200 * d
  let n := s.sysRead lin base
  (s.sysWrite lin (base + 0x10 + 8 * (n % 32)) word).sysWrite lin base (n + 1)

/-! ### The end of a weave (R32, R33) -/

/-- What the records of a weave's packet say (R397). -/
def Weave.packetRec (w : Weave) : TaskRec :=
  ⟨w.world, w.asid, w.byCore, w.bySlot, w.lnum, 0, 0, 0, w.word0.toNat % 2 ^ 48, 0, w.word0.toNat, w.word12.toNat⟩

/-- R32, R33: when every member has exited, the context is free and the packet is complete. -/
def State.endWeave (s : State) (wv : Nat) : State :=
  match mapFind s.weaves wv with
  | none => s
  | some w =>
    if (s.liveMembers wv).isEmpty then
      let s := { s with weaves := mapDel s.weaves wv }
      match w.levelled with
      | some (serial, d) => s.publishLevelled w.lin d serial
      | none => s.updateDone w.home false w.done w.packetRec
    else s

/-- R31: a member ends: watch registers, pins and claims are freed, latched interrupts discarded, and the slot is idle (R28, R209). -/
def State.exitSlot (s : State) (id : Nat) : State :=
  let wv := (s.slot id).weave
  let s := (s.unlist id).freeWatches id
  let s := s.unpinAll id
  let s := (s.updSlot id fun sl => { sl with member := .exited, queue := [] }).settle wv
  let s := s.updSlot id fun sl =>
    { sl with
      busy := false, wait := .none, upend := 0, mcfg := BitVec.ofNat 64 cfgReset, coil := none
      failures := [], rfaults := [], terminating := false, idleAt := s.cycle + 1 }
  State.endWeave { s with running := setDel s.running id } wv

/-- Everything that the slot has issued is complete (R31, R93). -/
def State.enginesOut (s : State) (id : Nat) : Bool :=
  !(s.matrixOut id).isEmpty || !(s.gaussOut id).isEmpty || !(s.pullsOut id).isEmpty
def State.drained (s : State) (id : Nat) : Bool := (s.outstanding id).isEmpty && !s.enginesOut id

/-- The wait of FENCE.E, which events end unless it is part of CSAVE or CREST (R93, R373), and the pending failure of the lowest ticket after it
(R175, R333). -/
def State.afterEngines (s : State) (held : Bool) (go : State → State) : State :=
  if !(s.outstanding s.cur).isEmpty || s.enginesOut s.cur then s.wait (if held then .hold else .none)
  else s.raiseFailure (fun _ => true) go

/-- R93, R175: FENCE.E. -/
def execFenceE (s : State) : Host.Outcome State Fault Refusal :=
  done (issueFence (fun s => s.afterEngines false (·.retire 4)) s)

/-- R31, R328, R339: EXIT. A relaxed-load fault that is pending is raised first. In supervisor mode it then terminates the slot: nothing that is found
during its wait is raised. In user mode its wait takes user interrupts and the supervisor timer event as FENCE.E's does, and EXIT reissues (log 28). -/
def execExit (s : State) : Host.Outcome State Fault Refusal :=
  done (issueFence (fun s =>
    if s.me.mode then (s.park .hold).updMe fun sl => { sl with terminating := true }
    else s.afterEngines false fun s => (s.updMe (·.popQueue)).exitSlot s.cur) s)

/-! ### Termination (R328) -/

/-- R373: the Gaussian commands of a slot that its termination discards: one whose WF wait has not ended and those after it. -/
def State.stuckGauss (s : State) (id : Nat) : List GCmd :=
  match (s.gaussOut id).filter fun c => !c.started with
  | [] => []
  | c :: r => if s.gReady c then [] else c :: r

/-- The commands are discarded, each with a record of DETAIL 8 (R373). -/
def State.dropGauss (s : State) (id : Nat) (cs : List GCmd) : State :=
  let s := cs.foldl (fun s c => s.engineRec id 0x03 c.ticket c.pc ⟨8, 0, 0⟩) s
  s.updCore (slotCore id) fun k => { k with gq := k.gq.filter fun c => !(cs.any fun d => d.id == c.id) }

/-- Whether a terminating slot has something to discard, or can end. -/
def State.terminates (s : State) (id : Nat) : Bool :=
  (s.slot id).terminating &&
    (s.drained id || !(s.slot id).failures.isEmpty || !(s.slot id).rfaults.isEmpty || !(s.stuckGauss id).isEmpty)

/-- R328: a terminating slot discards its pending faults and waiting commands, and ends when its work has drained. -/
def execSlotTerminate (sl : Nat) (s : State) : Host.Outcome State Fault Refusal :=
  done (if (s.slot sl).terminating then
      let s := s.dropGauss sl (s.stuckGauss sl)
      let s := (s.slot sl).failures.foldl (fun s f => s.discardRec sl f) s
      let s := s.updSlot sl fun t => { t with failures := [], rfaults := [] }
      if s.drained sl then s.exitSlot sl else s
    else s)

/-- The end of a slot from outside: it stops where it is and its waits are given up (R328, R389). A trap that it has met and not yet entered is
recorded. -/
def State.stopSlot (s : State) (id : Nat) : State :=
  if (s.slot id).busy then
    let s := match (s.slot id).wait with
      | .trapping t | .entry _ t _ => s.lateFault id t
      | _ => s
    s.terminateSlot id
  else s

end Sys2Proof.Machine
end

