-- ==== Sys2Proof/Machine/Context.lean ====
section
/-!
DEFINITION. Scrubbing (R292, R312), and context save and restore (R289 to R291).
-/

namespace Sys2Proof.Machine

/-! ### Scrubbing -/

/-- Memory in a range of locations wiped: zero, full, readable (R311, R354). -/
def State.wipeRange (s : State) (lo n : Nat) : State :=
  let out := fun (u : Nat) (a : Nat) => decide (u * a + u ≤ lo ∨ lo + n ≤ u * a)
  { s with
    mem := s.mem.filter fun c => out 1 c.1
    tags := s.tags.filter fun t => out 16 t.1
    empties := s.empties.filter (out 8)
    soft := s.soft.filter (out 1)
    bad := s.bad.filter (out 1) }

/-- The first location and the length of a slot's locked partition (R84). -/
def State.partition (s : State) (id : Nat) : Nat × Nat :=
  let sl := s.slot id
  (gpaOf (slotLin id) (sl.sbase.toNat * 4096), if sl.slock then (sl.sbound.toNat - sl.sbase.toNat) * 4096 else 0)

/-- SCRUB part REG. -/
def State.scrubRegs (s : State) (id : Nat) : State :=
  let sl := s.slot id
  let s := (List.range (sl.limit - sl.base)).foldl (fun s n => s.setEntry (s.entryOf id n) Reg.initial) s
  s.updSlot id fun sl => { sl with shadow := [] }

/-- SCRUB part MTX: the claimed tiles and tables are cleared and released. -/
def State.scrubMatrix (s : State) (id : Nat) : State :=
  let g := (s.slot id).mcfg.toNat
  let s := s.unpinAll id
  let s := s.updCore (slotCore id) fun c => (List.range 6).foldl (fun c r => if cfgClaim g r then c.clearResource r else c) c
  s.updSlot id fun sl => { sl with mcfg := BitVec.ofNat 64 cfgReset }

/-- SCRUB part PART. -/
def State.scrubPart (s : State) (id : Nat) : State :=
  let (lo, n) := s.partition id
  if n = 0 then s else s.wipeRange lo n

/-- SCRUB part CTX. -/
def State.scrubCtx (s : State) (id : Nat) : State :=
  (s.freeWatches id).updSlot id fun sl =>
    { sl with
      coil := none, uvec := 0, uepc := 0, upend := 0, uih := false, ucode := 0, utimer := 0, umask := 0
      fa := 0, fb := 0, fc := 0, sa := 0, sb := 0, gtau := 0, gquiet := false, gnf := false, gsb := false
      stimerPend := false }

/-- SCRUB part ENG. -/
def State.scrubEngines (s : State) (id : Nat) : State :=
  s.updSlot id fun sl => { sl with failures := sl.failures.filter fun f => ticketEngine f.ticket == 1 }

/-- What SCRUB still waits for (R292). A Gaussian command that waits for a header is discarded (R373). -/
def State.scrubStart (s : State) (id m : Nat) : State :=
  if m.testBit 5 then s.dropGauss id (s.stuckGauss id) else s
def State.scrubWaits (s : State) (id m : Nat) : Bool :=
  (m.testBit 2 && !(s.matrixOut id).isEmpty) ||
    (m.testBit 5 && (!(s.gaussOut id).isEmpty || !(s.pullsOut id).isEmpty))

/-- The selected parts cleared (R292). -/
def State.scrub (s : State) (id m : Nat) : State :=
  let s := if m.testBit 0 then s.scrubRegs id else s
  let s := if m.testBit 1 then s.updSlot id fun sl => { sl with vec := [], masks := [] } else s
  let s := if m.testBit 2 then s.scrubMatrix id else s
  let s := if m.testBit 3 then s.scrubPart id else s
  let s := if m.testBit 4 then s.scrubCtx id else s
  if m.testBit 5 then s.scrubEngines id else s

/-- R292: SCRUB, in supervisor mode. -/
def execScrub (a : BitVec 7) (s : State) : Host.Outcome State Fault Refusal :=
  done (supervisor (.scrub a) (issue [a] [a] (fun s =>
    let m := (s.x a.toNat).toNat
    if 64 ≤ m then s.trapWith 0x01 (wordOf (.scrub a))
    else
      let s := s.scrubStart s.cur m
      if s.scrubWaits s.cur m || !(s.outstanding s.cur).isEmpty then s.wait .hold
      else (s.scrub s.cur m).retire 4)) s)

/-- R312: a change of world moves the slot out of a protected one. -/
def State.leavesProtected (s : State) (id : Nat) (w : Nat) : Bool :=
  let old := (s.slot id).world.toNat
  old != w && (worldOf (s.module (slotLin id / 128)) old).prot

/-- R312, R388: the slot takes a world, after the scrub of every part when it leaves a protected one; that clears a lock too. -/
def State.takeWorld (s : State) (id w : Nat) : State :=
  let s := if s.leavesProtected id w then (s.scrub id 0x3F).updSlot id fun sl => { sl with slock := false } else s
  s.updSlot id fun sl => { sl with world := BitVec.ofNat 6 w }

/-- The wait before a change of world, and the change (R312, R388). -/
def State.changeWorld (s : State) (id w : Nat) (go : State → State) : State :=
  if s.leavesProtected id w then
    let s := s.scrubStart id 0x3F
    if s.scrubWaits id 0x3F || !(s.outstanding id).isEmpty then s.waitOf id .hold else go s
  else go s

/-! ### The save area (R289) -/

/-- The spans of `n` bytes at offset `off` of an area. -/
def subSpans (l : List Span) (va n : Nat) : List Span :=
  l.filterMap fun sp =>
    let lo := max sp.va va
    let hi := min (sp.va + sp.n) (va + n)
    if lo < hi then some ⟨lo, hi - lo, { sp.place with gpa := sp.place.gpa + (lo - sp.va) }⟩ else none

/-- The fields of a selector. -/
def selCount (v : Nat) : Nat := nbits v 23 16
def selFirst (v : Nat) : Nat := nbits v 14 8
def selBit (v i : Nat) : Bool := v.testBit i
/-- A reserved bit is set or COUNT is above 128. -/
def ctxSelBad (v : Nat) : Bool :=
  nbits v 63 24 != 0 || v.testBit 15 || v.testBit 7 || v.testBit 0 || decide (128 < selCount v)

/-- The area: its address, and its spans once it has passed checks 4 and 5 of R289. -/
def State.ctxArea (s : State) (a : BitVec 7) : State × Except Stop (Nat × List Span) :=
  let sl := s.me
  if a = 0 then
    let lpa := sl.saveArea
    if !sl.slock || sl.sbound.toNat * 4096 < lpa + 6720 then (s, .error (.trap ⟨0x07, BitVec.ofNat 64 lpa, false⟩))
    else (s, .ok (lpa, [⟨lpa, 6720, ⟨gpaOf s.lin lpa, none, false, 0, false, 0⟩⟩]))
  else
    let va := (s.x a.toNat).toNat
    if va % 64 ≠ 0 then (s, .error (.trap ⟨0x04, BitVec.ofNat 64 va, false⟩))
    else
      match s.checkRange s.cur va 6720 .write false 3 with
      | (s, .error t) => (s, .error t)
      | (s, .ok l) => (s, .ok (va, l))

/-- Bytes of an area, or the trap of uncorrectable data (R355). -/
def State.areaRead (s : State) (l : List Span) (va n : Nat) : State × Except Trap Nat :=
  match s.readSpans s.cur (subSpans l va n) with
  | (s, .ok bs) => (s, .ok (bytesNat bs))
  | (s, .error (v, g)) => (s.dataRec s.cur g 1 v, .error ⟨0x09, BitVec.ofNat 64 v, false⟩)

/-- Check 3 of R289: the registers lie in a window of `size`. -/
def windowBad (sel size : Nat) : Option Nat :=
  if size < selFirst sel + selCount sel then some (max (selFirst sel) size) else none

/-- `n` bits, the i-th from `f i`. -/
def packBits (n : Nat) (f : Nat → Bool) : Nat := (List.range n).foldl (fun acc i => if f i then acc + 2 ^ i else acc) 0
/-- 64-bit words as bytes. -/
def wordBytes (ws : List Nat) : List Byte := ws.flatMap fun w => natBytes w 8

/-- PEND as CSAVE saves it: without what arrived while it waited, but for the message that landed on a marked register (R289, R291). -/
def Slot.pendSaved (sl : Slot) : BitVec 4 :=
  match sl.ctxWait with
  | some (p, l) => p ||| (l &&& 2#4)
  | none => sl.upend

/-- The 12 USR registers and the ticket counter (R289). -/
def State.usrWords (s : State) (id : Nat) : List Nat :=
  let sl := s.slot id
  [sl.uvec.toNat, sl.uepc.toNat, { sl with upend := sl.pendSaved }.ucause,
   if sl.utimer = 0 then 0 else sl.utimer - s.cycle, sl.umask.toNat, sl.fa.toNat, sl.fb.toNat, sl.fc.toNat, sl.sa.toNat, sl.sb.toNat,
   sl.gtau.toNat, sl.gflags, sl.serial, 0, 0, 0]

/-- The coil state's bytes at 5,440 (R289). -/
def coilBytes (c : Option Coil) : List Byte :=
  match c with
  | none => List.replicate 192 0
  | some c =>
    ((c.words ++ List.replicate (16 - c.words.length) (0 : IWord)).flatMap fun w => natBytes w.toNat 4) ++
      natBytes (1 + 2 * (c.words.length - 1) + 2 ^ 5 * (c.reps - 1) + 2 ^ 11 * c.sd + 2 ^ 16 * c.sa + 2 ^ 21 * c.sb + 2 ^ 26 * c.k +
        2 ^ 32 * c.i) 8 ++ natBytes (c.base + 4 * c.i) 8 ++ List.replicate 112 0

def watchCode (w : WatchState) : Nat :=
  match w with
  | .free => 0
  | .pend => 1
  | .ans => 2
  | .lost => 3
def watchOf (n : Nat) : WatchState :=
  match n with
  | 0 => .free
  | 1 => .pend
  | 2 => .ans
  | _ => .lost

/-- WINDOW of a slot (R30), and the words of part SUP. -/
def Slot.window (sl : Slot) : Nat := sl.limit * 2 ^ 16 + sl.base
def Slot.supWords (sl : Slot) : List Nat :=
  [sl.window, sl.world.toNat, sl.asid.toNat, sl.sepc.toNat, sl.scause.toNat, sl.stval.toNat, sl.status, 0]

/-- The pieces that CSAVE writes: offset and bytes (R289). The header has the presence bits and marks of registers FIRST to FIRST + 127, whatever COUNT
is; of those beyond the window it has the bits of `beyond`, which no rule states (log 56). -/
def State.ctxPieces (s : State) (id sel beyond : Nat) : List (Nat × List Byte) :=
  let sl := s.slot id
  let f := selFirst sel
  let n := selCount sel
  let held := fun i => decide (sl.base + f + i < sl.limit)
  let pres := packBits 128 fun i => if held i then s.presOf id (f + i) else beyond.testBit i
  let marks := packBits 128 fun i =>
    if held i then f + i != 0 && (s.entry (s.entryOf id (f + i))).mark else beyond.testBit (128 + i)
  let shd := packBits 7 fun i => (mapGet sl.shadow Reg.initial (i + 1)).pres
  [(0, wordBytes [sel] ++ natBytes pres 16 ++ natBytes marks 16 ++ wordBytes [shd, 0, 0]),
   (64, (List.range n).flatMap fun i => natBytes (s.regOf id (f + i)).toNat 8)] ++
  (if selBit sel 2 then
    [(1088, wordBytes (((List.range 7).map fun i => (mapGet sl.shadow Reg.initial (i + 1)).val.toNat) ++ [0]))] else []) ++
  (if selBit sel 1 then [(1152, wordBytes (s.usrWords id))] else []) ++
  (if selBit sel 3 then
    [(1280, ((List.range 8).flatMap fun i => natBytes (sl.w i).toNat 512) ++
      ((List.range 3).flatMap fun i => natBytes (sl.m (i + 1)).toNat 16) ++ List.replicate 16 0)] else []) ++
  (if selBit sel 4 then [(5440, coilBytes sl.coil)] else []) ++
  (if selBit sel 5 then
    [(5632, (List.range 16).flatMap fun k =>
      let w := sl.watch k
      wordBytes [w.addr.toNat, w.thr.toNat, w.ansv.toNat,
        watchCode w.state + (if w.int then 4 else 0) + (if w.bind != 0 then 8 else 0), w.start.toNat, w.len.toNat, 0, 0])] else []) ++
  (if selBit sel 6 then [(6656, wordBytes sl.supWords)] else [])

/-- Bytes to be written at an address of an area as parts of an access: whole sectors of the DRAM slice, and blocks of 16 bytes elsewhere (R308,
R354). -/
def areaParts (l : List Span) (va : Nat) (bs : List Byte) : List Part :=
  (List.range ((va % 128 + bs.length + 127) / 128)).flatMap fun k =>
    let lo := max va (va / 128 * 128 + 128 * k)
    let hi := min (va + bs.length) (va / 128 * 128 + 128 * (k + 1))
    match (subSpans l lo (hi - lo)).head? with
    | none => []
    | some sp =>
      let u := if hi - lo = 128 ∧ isDram (lpaOf sp.place.gpa) then 128 else 16
      (List.range ((hi - lo + u - 1) / u)).map fun j =>
        let b := (bs.drop (lo - va + u * j)).take (min u (hi - lo - u * j))
        mkPart (lo + u * j) b.length 0 (bytesNat b) { sp.place with gpa := sp.place.gpa + u * j }

/-- Pieces that follow each other joined into one run. -/
def joinPieces : List (Nat × List Byte) → List (Nat × List Byte)
  | (o, b) :: r =>
    match joinPieces r with
    | (o', b') :: r' => if o + b.length = o' then (o, b ++ b') :: r' else (o, b) :: (o', b') :: r'
    | [] => [(o, b)]
  | [] => []

/-- The home of each part, by its own line (R79). -/
def State.withHomes (s : State) (ps : List Part) : List Part :=
  ps.map fun p =>
    if isDram (lpaOf p.gpa) && p.hk then { p with home := s.homeOf (linOf p.gpa) true p.hm (lpaOf p.gpa) } else p

/-- A CSAVE or CREST that goes on waiting remembers PEND as it was when it issued (R291). -/
def State.ctxHeld (s s' : State) : State :=
  let start := s.me.ctxWait.getD (s.me.upend, 0)
  s'.updMe fun sl =>
    { sl with ctxWait := if (sl.wait = .hold ∨ sl.wait = .walk) ∧ !sl.terminating then some start else none }

/-- Parts written as the plain stores of one instruction: all of them, or none and the trap of uncorrectable data (R289, R354). -/
def State.areaPut (s : State) (parts : List Part) (go : State → State) : State :=
  let parts := s.withHomes parts
  let s := (parts.filter (·.size != 128)).foldl (fun s p => s.ensure p.gpa p.hk p.hm p.home s.me.world.toNat) s
  match parts.find? s.writeBad with
  | some p =>
    let u := s.unitRun true p
    (s.dataRec s.cur u.1 u.2 p.va).trapWith 0x09 (BitVec.ofNat 64 p.va)
  | none => go (parts.foldl (fun s p => s.writePart (s.slotKey s.cur) s.me.world.toNat p p.data) s)

/-- R289: CSAVE. -/
def execCsave (a b : BitVec 7) (s : State) : Host.Outcome State Fault Refusal :=
  done (s.ctxHeld (issue [a, b] [a, b] (fun s =>
    let sel := (s.x b.toNat).toNat
    let me := s.me
    if ctxSelBad sel then s.trapWith 0x01 (wordOf (.csave a b))
    else if selBit sel 6 && !me.mode then s.trapWith 0x02 (wordOf (.csave a b))
    else
      match windowBad sel (me.limit - me.base) with
      | some n => s.trapWith 0x03 (BitVec.ofNat 64 n)
      | none =>
        match s.ctxArea a with
        | (s, .error t) => s.stopped t
        | (s, .ok (va, l)) =>
          s.afterEngines true fun s =>
            let (free, s) := s.draw
            s.areaPut ((joinPieces (s.ctxPieces s.cur sel free)).flatMap fun (o, bs) => areaParts l (va + o) bs) (·.retire 4)) s))

/-! ### CREST (R290) -/

/-- A restored window: within R30's limits, of 8 to 128 registers (R14), and clear of the windows of the other busy slots of the core. -/
def State.windowOk (s : State) (id w : Nat) : Bool :=
  let base := nbits w 10 0
  let limit := nbits w 27 16
  base % 8 == 0 && decide (8 ≤ limit ∧ limit ≤ 2048 ∧ base + 8 ≤ limit ∧ limit ≤ base + 128) && w == limit * 2 ^ 16 + base &&
    (List.range 16).all fun k =>
      let sl := s.slot (slotCore id * 16 + k)
      slotCore id * 16 + k == id || !sl.busy || decide (limit ≤ sl.base ∨ sl.limit ≤ base)

/-- What CREST has read: the header and the bytes of a selected part, by offset. -/
def State.ctxRead (s : State) (l : List Span) (va sel : Nat) : State × Except Trap (List (Nat × Nat)) :=
  let want := [(0, 64), (64, 8 * selCount sel)] ++
    (if selBit sel 2 then [(1088, 64)] else []) ++ (if selBit sel 1 then [(1152, 128)] else []) ++
    (if selBit sel 3 then [(1280, 4160)] else []) ++ (if selBit sel 4 then [(5440, 80)] else []) ++
    (if selBit sel 5 then [(5632, 1024)] else []) ++ (if selBit sel 6 then [(6656, 64)] else [])
  want.foldl (fun acc (o, n) =>
    match acc with
    | (s, .error t) => (s, .error t)
    | (s, .ok got) =>
      match s.areaRead l (va + o) n with
      | (s, .ok v) => (s, .ok ((o, v) :: got))
      | (s, .error t) => (s, .error t)) (s, .ok [])

/-- A word of a part that was read. -/
def gotWord (got : List (Nat × Nat)) (off i : Nat) : Nat :=
  ((got.find? (·.1 == off)).map fun x => x.2 / 2 ^ (64 * i) % 2 ^ 64).getD 0
def gotAll (got : List (Nat × Nat)) (off : Nat) : Nat := ((got.find? (·.1 == off)).map (·.2)).getD 0

/-- Part USR restored: UTIMER counts on, the ticket counter goes on (R36, R332), and an event that has arrived since the CREST issued stays pending
(R291). -/
def Slot.setUsr (sl : Slot) (cycle : Nat) (w : Nat → Nat) : Slot :=
  { sl.setGflags (w 11) with
    uvec := BitVec.ofNat 48 (w 0 / 4 * 4), uepc := BitVec.ofNat 47 (w 1 / 4 * 4)
    ucode := BitVec.ofNat 8 (w 2), upend := BitVec.ofNat 4 (w 2 / 256) ||| (sl.ctxWait.map (·.2)).getD 0, uih := (w 2).testBit 15
    utimer := if w 3 = 0 then 0 else cycle + w 3
    umask := BitVec.ofNat 4 (w 4)
    fa := BitVec.ofNat 64 (w 5), fb := BitVec.ofNat 64 (w 6), fc := BitVec.ofNat 64 (w 7)
    sa := BitVec.ofNat 47 (w 8), sb := BitVec.ofNat 47 (w 9), gtau := BitVec.ofNat 32 (w 10)
    serial := w 12 }

/-- A coil state restored as a suspended frame (R58, R290). -/
def coilOf (v : Nat) : Option Coil :=
  let c := v / 2 ^ 512 % 2 ^ 64
  if c.testBit 0 then
    let n := nbits c 4 1 + 1
    let i := nbits c 35 32
    some ⟨(List.range n).map fun j => BitVec.ofNat 32 (v / 2 ^ (32 * j)), nbits c 10 5 + 1, nbits c 15 11, nbits c 20 16,
      nbits c 25 21, nbits c 31 26, i, v / 2 ^ 576 % 2 ^ 47 - 4 * i, true⟩
  else none

/-- A watch register restored: a PEND one is armed again, and the lines of a bound range are dropped with all others of the creel's reader cache, any
of which may be given up at any time (R81, R236, R290; log 9). -/
def State.restoreWatch (s : State) (k : Nat) (w : Nat → Nat) : State :=
  let st := watchOf (w 3 % 4)
  let (bind, s) := if (w 3).testBit 3 then (s.dropReaderLines s.lin [(0, 2 ^ 64)]).newId else (0, s)
  let reg : Watch := ⟨st, BitVec.ofNat 64 (w 0), BitVec.ofNat 64 (w 1), BitVec.ofNat 64 (w 2), (w 3).testBit 2, 0, bind,
    BitVec.ofNat 64 (w 4), BitVec.ofNat 64 (w 5)⟩
  if st = .free then s
  else
    let s := s.updMe (·.setWatch k reg)
    if st = .pend then s.armWatch k (w 0) (w 0) reg.thr reg.int else s

/-- R290: the selected parts restored together, after the scrub that a change of world asks for (R312). -/
def State.restoreCtx (s : State) (sel : Nat) (got : List (Nat × Nat)) : State :=
  let id := s.cur
  let s := if selBit sel 6 then
      let w := gotWord got 6656
      let s := s.takeWorld id (w 1 % 64)
      s.updMe fun sl =>
        { sl with
          base := nbits (w 0) 10 0, limit := nbits (w 0) 27 16, asid := BitVec.ofNat 9 (w 2)
          sepc := BitVec.ofNat 47 (w 3 / 4 * 4), scause := BitVec.ofNat 10 (w 4), stval := BitVec.ofNat 64 (w 5)
          pm := (w 6).testBit 1, uf := (w 6).testBit 2, nest := (w 6).testBit 3, nosave := (w 6).testBit 4 }
    else s
  let pres := gotAll got 0 / 2 ^ 64 % 2 ^ 128
  let marks := gotAll got 0 / 2 ^ 192 % 2 ^ 128
  let s := (List.range (selCount sel)).foldl (fun s i =>
    let n := selFirst sel + i
    if n = 0 then s
    else s.setEntry (s.entryOf id n) ⟨BitVec.ofNat 64 (gotWord got 64 i), pres.testBit i, marks.testBit i, 0⟩) s
  let s := if selBit sel 2 then
      s.updMe fun sl =>
        { sl with shadow := (List.range 7).map fun i =>
            (i + 1, ⟨BitVec.ofNat 64 (gotWord got 1088 i), (gotWord got 0 5).testBit i, false, 0⟩) }
    else s
  let s := if selBit sel 1 then s.updMe (·.setUsr s.cycle (gotWord got 1152)) else s
  let s := if selBit sel 3 then
      let v := gotAll got 1280
      s.updMe fun sl =>
        { sl with
          vec := (List.range 8).map fun i => (i, BitVec.ofNat 4096 (v / 2 ^ (4096 * i)))
          masks := (List.range 3).map fun i => (i + 1, BitVec.ofNat 128 (v / 2 ^ (32768 + 128 * i))) }
    else s
  let s := if selBit sel 4 then s.updMe fun sl => { sl with coil := coilOf (gotAll got 5440) } else s
  if selBit sel 5 then
    (List.range 16).foldl (fun s k => s.restoreWatch k fun i => gotWord got 5632 (8 * k + i)) (s.freeWatches id)
  else s

/-- R290: CREST after its checks: it waits as FENCE.E does, reads the area, and restores. -/
def State.crestFrom (s : State) (sel va : Nat) (l : List Span) : State :=
  s.afterEngines true fun s =>
    match s.ctxRead l va sel with
    | (s, .error t) => s.trap t
    | (s, .ok got) =>
      if selBit sel 6 && !s.windowOk s.cur (gotWord got 6656 0) then s.trapWith 0x07 0
      else if selBit sel 6 then
        s.changeWorld s.cur (gotWord got 6656 1 % 64) fun s => (s.restoreCtx sel got).retire 4
      else (s.restoreCtx sel got).retire 4

/-- R290: CREST. With SUP it takes the window of check 3 from the area. -/
def execCrest (a b : BitVec 7) (s : State) : Host.Outcome State Fault Refusal :=
  done (s.ctxHeld (issue [a, b] [a, b] (fun s =>
    let sel := (s.x b.toNat).toNat
    let me := s.me
    if ctxSelBad sel then s.trapWith 0x01 (wordOf (.crest a b))
    else if selBit sel 6 && !me.mode then s.trapWith 0x02 (wordOf (.crest a b))
    else if selBit sel 6 then
      match s.ctxArea a with
      | (s, .error t) => s.stopped t
      | (s, .ok (va, l)) =>
        if s.spansClash (subSpans l (va + 6656) 8) then s.wait .hold else
        match s.areaRead l (va + 6656) 8 with
        | (s, .error t) => s.trap t
        | (s, .ok w) =>
          match windowBad sel (nbits w 27 16 - nbits w 10 0) with
          | some n => s.trapWith 0x03 (BitVec.ofNat 64 n)
          | none => s.crestFrom sel va l
    else
      match windowBad sel (me.limit - me.base) with
      | some n => s.trapWith 0x03 (BitVec.ofNat 64 n)
      | none =>
        match s.ctxArea a with
        | (s, .error t) => s.stopped t
        | (s, .ok (va, l)) => s.crestFrom sel va l) s))

end Sys2Proof.Machine
end

