-- ==== Sys2Proof/Machine/Tasks.lean ====
section
/-!
DEFINITION. The task unit (R22 to R34, R274 to R284, R379, R396): acceptance, placement, aging, levelling, and the TASK group but for EXIT.
-/

namespace Sys2Proof.Machine

/-! ### Packets (R24) -/

def Packet.word (p : Packet) (i : Nat) : Nat := (nth p.words i).getD 0
def Packet.width (p : Packet) : Nat := nbits (p.word 0) 59 55
def Packet.wsize (p : Packet) : Nat := nbits (p.word 0) 52 48
def Packet.entry (p : Packet) : Nat := nbits (p.word 0) 47 0
def Packet.cores (p : Packet) : List Nat := (List.range 24).filter fun c => (p.word 12).testBit c

/-- The first packet word that breaks R24. -/
def packetBad (ws : List Nat) : Option Nat :=
  let w := fun i => (nth ws i).getD 0
  let width := nbits (w 0) 59 55
  let size := nbits (w 0) 52 48
  (List.range 16).find? fun i =>
    match i with
    | 0 => decide (nbits (w 0) 63 60 ≠ 0 ∨ width = 0 ∨ 24 < width ∨ size = 0 ∨ 16 < size ∨ w 0 % 4 ≠ 0)
    | 12 => decide (nbits (w 12) 63 31 ≠ 0 ∨ ((List.range 24).filter fun c => (w 12).testBit c).length < width)
    | 13 => decide (w 13 % 8 ≠ 0)
    | 14 | 15 => decide (w i ≠ 0)
    | _ => false

/-- What the records of a packet say (R397): the core and slot that issued its TQPUT, or 0. -/
def Packet.packetRec (p : Packet) (code detail : Nat) : TaskRec :=
  ⟨p.world, p.asid, p.byCore, p.bySlot, p.lnum, code, p.word 13, 0, p.entry, detail, p.word 0, p.word 12⟩

/-- A rejected packet: its record, and the rejection update of its completion word (R34). -/
def State.rejectPacket (s : State) (lin : Nat) (p : Packet) (code detail : Nat) : State :=
  let r := p.packetRec code detail
  (s.taskRec lin r).updateDone p.home true (p.word 13) r

/-- A resident entry that is free. -/
def Creel.freeEntry (c : Creel) : Option Nat := (List.range 256).find? fun k => (mapFind c.residents k).isNone

/-- A packet becomes resident (R22, R274). -/
def State.acceptPacket (s : State) (lin : Nat) (p : Packet) : State :=
  s.updCreel lin fun c =>
    match c.freeEntry with
    | some k => { c with residents := mapPut c.residents k { p with seq := c.accepted }, accepted := c.accepted + 1 }
    | none => c

/-- The 16 words of 128 bytes read as a number. -/
def packetWords (v : Nat) : List Nat := (List.range 16).map fun i => v / 2 ^ (64 * i) % 2 ^ 64

/-- The packets of a list in the order of R26: priority, then age. -/
def placeOrder (l : SMap Packet) : List (Nat × Packet) :=
  (List.range 4).flatMap fun pr =>
    (l.filter fun (_, p) => p.prio == pr).foldl (fun acc x =>
      (acc.filter fun y => decide (y.2.seq < x.2.seq)) ++ [x] ++ (acc.filter fun y => decide (x.2.seq < y.2.seq))) []

/-! ### TQPUT and TQGET (R276, R277) -/

def execTqput (a b c : BitVec 7) (s : State) : Host.Outcome State Fault Refusal :=
  done (issue [a, b, c] [b, c] (fun s =>
    let va := (s.x b.toNat).toNat
    match s.checkLocal s.cur va 128 128 .read false with
    | (s, .trap t) => s.trap t
    | (s, .miss) => s.parkWalk s.cur false va
    | (s, .ok p) =>
      if !(s.outstanding s.cur).isEmpty then s.wait .hold
      else
        match s.readSpans s.cur [⟨va, 128, p⟩] with
        | (s, .error (v, g)) => (s.dataRec s.cur g 1 (v / 8 * 8)).trapWith 0x09 (BitVec.ofNat 64 (v / 8 * 8))
        | (s, .ok bs) =>
          let ws := packetWords (bytesNat bs)
          let me := s.me
          let p : Packet := ⟨ws, me.world.toNat, me.asid.toNat, 0, s.lin, (s.x c.toNat).getLsbD 0,
            nbits ((nth ws 0).getD 0) 54 53, 0, 0, 0, slotCoreNo s.cur, slotNo s.cur, none⟩
          if (s.creel s.lin).freeEntry.isNone then s.finish a 1
          else
            match packetBad ws with
            | some i => (s.rejectPacket s.lin p 0x01 i).finish a 2
            | none => (s.acceptPacket s.lin p).finish a 0) s)

/-- R277: the packet is stored as 16 plain stores of 8 bytes, each of which reads its block or sector first (R354). -/
def execTqget (a b : BitVec 7) (s : State) : Host.Outcome State Fault Refusal :=
  done (issue [a, b] [b] (fun s =>
    let va := (s.x b.toNat).toNat
    match s.checkLocal s.cur va 128 128 .write false with
    | (s, .trap t) => s.trap t
    | (s, .miss) => s.parkWalk s.cur false va
    | (s, .ok p) =>
      if (s.outstanding s.cur).any fun o => partsOverlap [mkPart va 128 0 0 p] o.parts then s.wait .hold
      else
        let mine := (s.creel s.lin).residents.filter fun (_, q) =>
          q.held && q.world == s.me.world.toNat && q.asid == s.me.asid.toNat
        match placeOrder mine with
        | [] => s.finish a 1
        | (k, q) :: _ =>
          let parts := (List.range 16).map fun i =>
            mkPart (va + 8 * i) 8 0 (if i = 0 then q.word 0 - nbits (q.word 0) 54 53 * 2 ^ 53 + q.prio * 2 ^ 53 else q.word i)
              { p with gpa := p.gpa + 8 * i }
          s.areaPut parts fun s =>
            (s.updCreel s.lin fun c => { c with residents := mapDel c.residents k }).finish a 0) s)

/-! ### YIELD and SLEEP (R278, R279) -/

def execYield (s : State) : Host.Outcome State Fault Refusal := done (issue [] [] (·.park (.yield 1)) s)

/-- R279: the sleep's end as a cycle, 0 for none. -/
def execSleep (a : BitVec 7) (s : State) : Host.Outcome State Fault Refusal :=
  done (issue [a] [a] (fun s =>
    let n := (s.x a.toNat).toNat
    s.park (.sleep (if n = 0 then 0 else s.cycle + n))) s)

/-- R279: a sleep ends after its duration. -/
def execSleepExpire (sl : Nat) (s : State) : Host.Outcome State Fault Refusal :=
  done (match (s.slot sl).wait with
    | .sleep t => if t ≠ 0 ∧ t ≤ s.cycle then s.retireOf sl 4 else s
    | _ => s)

/-! ### Inboxes (R22, R297) -/

def Creel.inbox (c : Creel) (k : Nat) : Inbox := mapGet c.inboxes ⟨0, 0, 0⟩ k
/-- The creel that holds the memory of host agent `k` of a module, and an address in it (R66, R297). -/
def agentLin (m k : Nat) : Nat := 128 * m + 64 * k
def agentGpa (m k off : Nat) : Nat := gpaOf (agentLin m k) (0x20000000 + off)

def State.agent (s : State) (m k : Nat) : Agent := mapGet (s.module m).agents Agent.initial k
def State.updAgent (s : State) (m k : Nat) (f : Agent → Agent) : State :=
  s.updModule m fun x => { x with agents := mapPut x.agents k (f (mapGet x.agents Agent.initial k)) }

/-- A word of agent memory under the key of world 0 (R310). -/
def State.agentRead (s : State) (m k off : Nat) : Nat := s.readAs (s.key (agentLin m k) 0) (agentGpa m k off) 8
def State.agentWrite (s : State) (m k off v : Nat) : State :=
  (s.readHalf (agentGpa m k off) 8 0).store (s.key (agentLin m k) 0) (agentGpa m k off) (natBytes v 8)

/-- A sequence word that a task unit watches: the sequence word of its inbox at a host agent (R22), and, of a neighbour, OSEQ (R282), the DACK
of its own completions, and DSEQ (R284). -/
inductive TaskWatch where
  | inbox (k : Nat)
  | oseq (dir : Nat)
  | dack (dir : Nat)
  | dseq (dir : Nat)
  deriving DecidableEq, Repr

def TaskWatch.key : TaskWatch → Nat
  | .inbox k => k
  | .oseq d => 4 + d
  | .dack d => 8 + d
  | .dseq d => 12 + d

/-- The address of the watched word; `lin` watches. -/
def TaskWatch.gpa (lin : Nat) : TaskWatch → Option Nat
  | .inbox k => some (agentGpa (lin / 128) k (0x40000 + 8 * (lin % 128)))
  | .oseq d => (neighbour lin d).map fun x => gpaOf x 0xBF8000
  | .dack d => (neighbour lin d).map fun x => gpaOf x (0xBF8408 + 0x200 * opposite d)
  | .dseq d => (neighbour lin d).map fun x => gpaOf x (0xBF8400 + 0x200 * opposite d)

/-- A sequence word of world 0's key. -/
def State.seqRead (s : State) (gpa : Nat) : Nat := s.readAs (s.key (linOf gpa) 0) gpa 8

/-- The last value that a watch of the task unit was answered with. -/
def State.heardOf (s : State) (lin : Nat) (w : TaskWatch) : Nat := mapGet (s.creel lin).heard 0 w.key

/-- The value with which a watch is answered now: one past the last, in a word that is not uncorrectable (R355), while the budget is open for the
watch's sector (R251), which counts where the answer is taken (log 57). -/
def State.watchNews (s : State) (lin : Nat) (w : TaskWatch) : Option Nat :=
  match w.gpa lin with
  | none => none
  | some g =>
    let v := s.seqRead g
    if s.heardOf lin w < v ∧ s.badIn g 8 = false ∧ s.budgetOpen lin 3 = true then some v else none

/-- The answer of a watch is taken. -/
def State.hear (s : State) (lin : Nat) (w : TaskWatch) (v : Nat) : State :=
  (((s.spend lin 3).correct ((w.gpa lin).getD 0) 8 0 1)).updCreel lin fun c => { c with heard := mapPut c.heard w.key v }

/-- A task unit can pull a packet from its inbox at host agent `k`: its watch has told of one, and it has a free entry. -/
def State.inboxOpen (s : State) (lin k : Nat) : Bool :=
  let b := (s.creel lin).inbox k
  b.due == 0 && (s.creel lin).freeEntry.isSome && s.budgetOpen lin 3 && decide (b.pulled < s.heardOf lin (.inbox k))

/-- The answer that the watch of an inbox from which every packet told of is pulled has now. -/
def State.inboxNews (s : State) (lin k : Nat) : Option Nat :=
  if s.heardOf lin (.inbox k) ≤ ((s.creel lin).inbox k).pulled then s.watchNews lin (.inbox k) else none

/-- The task unit has something to do with its inbox at a host agent. -/
def State.inboxReady (s : State) (lin k : Nat) : Bool := s.inboxOpen lin k || (s.inboxNews lin k).isSome

def Creel.setInbox (c : Creel) (k : Nat) (b : Inbox) : Creel := { c with inboxes := mapPut c.inboxes k b }

/-- R22: the next packet of an inbox is pulled, or the watch of its sequence word answers. -/
def execInboxPull (lin k : Nat) (s : State) : Host.Outcome State Fault Refusal :=
  done (if s.inboxOpen lin k then
      let (due, s) := (s.spend lin 3).laterCycle
      s.updCreel lin fun c => c.setInbox k { c.inbox k with pulled := (c.inbox k).pulled + 1, due := due }
    else
      match s.inboxNews lin k with
      | some v => s.hear lin (.inbox k) v
      | none => s)

/-- R23, R24, R296, R355: a packet that has arrived from an inbox is dropped, refused or accepted, and the count is published. -/
def execInboxPacketAccept (lin k : Nat) (s : State) : Host.Outcome State Fault Refusal :=
  let b := (s.creel lin).inbox k
  done (if b.due = 0 ∨ s.cycle < b.due ∨ (s.creel lin).freeEntry.isNone then s
    else
      let m := lin / 128
      let n := b.accepted
      let g := agentGpa m k (0x100000 + 8192 * (lin % 128) + 128 * (n % 64))
      let key := lin % 128 * 2 ^ 64 + n
      let note := mapGet (s.agent m k).tenants 0 key
      let world := note / 2 ^ 41
      let asid := note / 2 ^ 32 % 512
      let ws := packetWords (s.readAs (s.key (agentLin m k) 0) g 128)
      let p : Packet := ⟨ws, world, asid, note % 2 ^ 32, lin, false, nbits ((nth ws 0).getD 0) 54 53, 0, 0, 0, 0, 0, none⟩
      let r := s.root lin asid false
      let s := match s.firstBad g 128 with
        | some o => s.taskRec lin ⟨world, asid, 0, 0, p.lnum, 0x04, 0, (g + o) / 8 * 8, 0, 0, 0, 0⟩
        | none =>
          let s := s.correct g 128 0 1
          match packetBad ws with
          | some i => s.rejectPacket lin p 0x01 i
          | none =>
            if !r.testBit 0 || nbits r 63 58 != world then s.rejectPacket lin p 0x02 asid
            else s.acceptPacket lin p
      let s := s.updAgent m k fun x => { x with tenants := mapDel x.tenants key }
      let s := s.updCreel lin fun c => c.setInbox k { c.inbox k with accepted := n + 1, due := 0 }
      s.sysWrite lin (0xBFA000 + 8 * k) (n + 1))

/-! ### Placement (R26, R27) -/

/-- The cores on which a packet can start at a slot index, with the window's base on each (R27). -/
def State.fits (s : State) (lin : Nat) (p : Packet) (idx : Nat) : List (Nat × Nat) :=
  p.cores.filterMap fun c =>
    let core := coreAt lin c
    if (s.slot (16 * core + idx)).busy || !entryAdmits ((s.core core).slotEntry idx) p.world p.asid then none
    else (s.freeRun core (8 * p.wsize)).map fun b => (c, b)

/-- The slot index and the cores that R27 chooses. -/
def State.placeAtIndex (s : State) (lin : Nat) (p : Packet) : Option (Nat × List (Nat × Nat)) :=
  (List.range 16).findSome? fun idx =>
    let c := s.fits lin p idx
    if p.width ≤ c.length then some (idx, c.take p.width) else none

/-- R26: the packet is blocking: passed over 64 times, and its mask and the slot tables could place it. -/
def State.blocks (s : State) (lin : Nat) (p : Packet) : Bool :=
  decide (64 ≤ p.passed) &&
    decide (p.width ≤ (p.cores.filter fun c =>
      (List.range 16).any fun k => entryAdmits ((s.core (coreAt lin c)).slotEntry k) p.world p.asid).length)

/-- The packet that the task unit places next: its entry, the place, and the entries it passes over (R26). -/
def State.placeNext (s : State) (lin : Nat) (passed : List Nat) : List (Nat × Packet) → Option (Nat × Packet × Nat × List (Nat × Nat) × List Nat)
  | [] => none
  | (k, p) :: r =>
    match s.placeAtIndex lin p with
    | some (idx, cs) => some (k, p, idx, cs, passed)
    | none => if s.blocks lin p then none else s.placeNext lin (k :: passed) r

def State.placeable (s : State) (lin : Nat) : Option (Nat × Packet × Nat × List (Nat × Nat) × List Nat) :=
  if s.cycle < (s.creel lin).placeAt then none
  else s.placeNext lin [] (placeOrder ((s.creel lin).residents.filter fun (_, p) => !p.held))

/-- Every member of a placed packet starts (R27, R29, R396). -/
def State.startPacket (s : State) (lin : Nat) (p : Packet) (idx : Nat) (cs : List (Nat × Nat)) : State :=
  let w : Weave := ⟨lin, idx, p.width, cs.map (·.1), false, .run, p.entry, true, s.cycle, p.world, p.asid, p.word 13, p.lnum,
    BitVec.ofNat 64 (p.word 0), BitVec.ofNat 64 (p.word 12), p.byCore, p.bySlot, p.home, p.levelled⟩
  let (wv, s) := s.newWeave w
  let att := match mapFind s.weaves wv with | some w => w.ctx | none => false
  let word := fun i => BitVec.ofNat 64 (p.word i)
  ((List.range cs.length).zip cs).foldl (fun s (i, c, base) =>
    s.startSlot (slotAt lin c idx) ⟨base, 8 * p.wsize, p.entry, i, p.width, wv, p.world, p.asid, att,
      (List.range 6).map fun j => word (6 + j), word 1, word 2, word 3, word 4, word 5⟩) s

/-- R26, R27: the next packet is placed whole, at most one every 4 cycles. -/
def execPlacePacket (lin : Nat) (s : State) : Host.Outcome State Fault Refusal :=
  done (match s.placeable lin with
    | none => s
    | some (k, p, idx, cs, passed) =>
      let s := s.updCreel lin fun c =>
        { c with
          placeAt := s.cycle + 4
          residents := (mapDel c.residents k).map fun (j, q) =>
            (j, if passed.contains j then { q with passed := q.passed + 1 } else q) }
      s.startPacket lin p idx cs)

/-! ### Aging and offers (R274, R281) -/

/-- CYCLE of the module of a creel (R138). -/
def State.cycleOf (s : State) (lin : Nat) : Nat := s.cycle - (s.module (lin / 128)).resetAt

/-- R274: one interval more in the queue. -/
def Packet.aged (p : Packet) (a : Nat) : Packet :=
  if 2 ^ a < p.waited + 1 ∧ 0 < p.prio then { p with prio := p.prio - 1, waited := 0 } else { p with waited := p.waited + 1 }

/-- Some neighbour enable points at a neighbour (R273). -/
def someNeighbour (lin lcfg : Nat) : Bool := (List.range 4).any fun d => lcfg.testBit d && (neighbour lin d).isSome

def oitem (p : Packet) (entry : Nat) : Nat :=
  p.seq % 2 ^ 32 * 2 ^ 32 + p.world * 2 ^ 24 + p.asid * 2 ^ 15 + p.width * 2 ^ 10 + p.prio * 2 ^ 8 + entry

/-- The GRANT word of a claim, at the neighbour that it claims from (R280). -/
def grantGpa (x : Nat) (k : Claim) : Nat := gpaOf x (0xBF8208 + 8 * k.item)
/-- The value of GRANT that grants a claim of creel `lin` (R283). -/
def grantWord (lin : Nat) (k : Claim) : Nat := k.oseq % 2 ^ 32 * 2 ^ 32 + 128 + lin % 128

/-- A packet that the creel has granted stands in STAGE and is not yet pulled. -/
def State.stageHeld (s : State) (lin : Nat) : Bool :=
  (List.range 4).any fun d =>
    match neighbour lin d with
    | none => false
    | some y => (s.creel y).claims.any fun k =>
      k.dir == opposite d && k.due == 0 && k.seen != 1 && s.seqRead (grantGpa lin k) == grantWord y k

/-- R281: the offer step. While a granted packet waits in STAGE for its pull, which may wait for a budget (R251), the creel makes no new offer: R284 has it
run exactly once (log 57). -/
def State.offerStep (s : State) (lin : Nat) : State :=
  let c := s.creel lin
  let own := c.residents.filter fun (_, p) => !p.held && p.levelled.isNone
  let u := own.length
  if u ≤ c.params.lthr ∨ !someNeighbour lin c.params.lcfg ∨ s.stageHeld lin then s
  else
    let chosen := (placeOrder own).reverse.take (min 16 (u - c.params.lthr))
    let items := (List.range chosen.length).zip chosen
    let s := items.foldl (fun s (i, k, p) =>
      (s.store (s.key lin 0) (gpaOf lin (0xBF9000 + 128 * i)) (p.words.flatMap fun w => natBytes w 8)).sysWrite lin
        (0xBF8010 + 8 * i) (oitem p k)) s
    let s := s.sysWrite lin 0xBF8008 (s.cycleOf lin / c.params.bint % 2 ^ 32 * 2 ^ 32 + chosen.length)
    let s := (List.range 16).foldl (fun s i => s.sysWrite lin (0xBF8208 + 8 * i) 0) s
    let s := s.sysWrite lin 0xBF8000 (s.sysRead lin 0xBF8000 + 1)
    s.updCreel lin fun c =>
      { c with
        grantAt := s.cycle + 256
        claimsRead := []
        offers := items.map fun (i, k, p) => ⟨i, k, p.seq, false⟩ }

/-- The creel has an interval boundary now that changes something. -/
def State.intervalDue (s : State) (lin : Nat) : Bool :=
  let c := s.creel lin
  s.cycleOf lin % c.params.bint == 0 && c.intervalAt != s.cycle + 1 &&
    (!c.residents.isEmpty || c.grantAt != 0 || c.claimed != 0)

/-- R274, R281: the work of an interval boundary. -/
def execBalancingInterval (lin : Nat) (s : State) : Host.Outcome State Fault Refusal :=
  done (if s.intervalDue lin then
      (s.updCreel lin fun c =>
        { c with
          intervalAt := s.cycle + 1, claimed := 0, grantAt := 0, claimsRead := [], offers := []
          residents := c.residents.map fun (k, p) => (k, p.aged c.params.age) }).offerStep lin
    else s)

/-! ### Claims, grants and levelled packets (R282 to R284, R379) -/

/-- The cores of a creel that have an idle slot whose entry admits a tenant (R282). -/
def State.idleCores (s : State) (lin world asid : Nat) : Nat :=
  ((List.range 24).filter fun c =>
    (List.range 16).any fun k =>
      !(s.slot (slotAt lin c k)).busy && entryAdmits ((s.core (coreAt lin c)).slotEntry k) world asid).length

/-- The tests of R282 on one item that the neighbour in direction d offers, with the items claimed in this interval so far. An uncorrectable OITEM is not
claimed (log 57). -/
def State.mayTake (s : State) (lin d x claimed i : Nat) : Bool :=
  let w := s.sysRead x (0xBF8010 + 8 * i)
  let world := nbits w 29 24
  let asid := nbits w 23 15
  let root := s.root lin asid false
  decide (nbits w 14 10 ≤ s.idleCores lin world asid) && root.testBit 0 && nbits root 63 58 == world &&
    decide (mapGet (s.creel lin).taken 0 d - s.heardOf lin (.dack d) < 32) && decide (claimed < 4) &&
    !s.badIn (gpaOf x (0xBF8010 + 8 * i)) 8

/-- R282: the items that a creel claims. -/
def State.claimItems (s : State) (lin d x : Nat) (claimed : Nat) : List Nat → List Nat
  | [] => []
  | i :: r => if s.mayTake lin d x claimed i then i :: s.claimItems lin d x (claimed + 1) r else s.claimItems lin d x claimed r

/-- What a creel still has to read of the offer of a neighbour (R282, R251): the first sector, with OSEQ, OHDR and OITEM(0) to OITEM(13), the
second, or nothing. -/
def State.offerUnread (s : State) (lin d x : Nat) : Option Nat :=
  let o := s.sysRead x 0xBF8000
  let seen := mapGet (s.creel lin).oseqSeen 0 d
  if seen / 2 < o then some 0
  else if seen = 2 * o ∧ 14 < nbits (s.sysRead x 0xBF8008) 4 0 then some 1
  else none

/-- The items of the present offer that a creel has read or reads now, and has not claimed. -/
def State.openItems (s : State) (lin d x : Nat) : List Nat :=
  let o := s.sysRead x 0xBF8000
  let n := if s.badIn (gpaOf x 0xBF8008) 8 then 0 else nbits (s.sysRead x 0xBF8008) 4 0
  let n := if s.offerUnread lin d x = some 0 then min n 14 else n
  let mine := (s.creel lin).claims.filter fun k => k.dir == d && k.oseq == o
  (List.range n).filter fun i => !(mine.any (·.item == i))

/-- The watches of a neighbour that an idle creel keeps (R282): of OSEQ, and of DACK while 32 levelled packets from it stand unacknowledged. -/
def State.claimNews (s : State) (lin d : Nat) : Option (TaskWatch × Nat) :=
  match s.watchNews lin (.oseq d) with
  | some v => some (.oseq d, v)
  | none =>
    if 32 ≤ mapGet (s.creel lin).taken 0 d - s.heardOf lin (.dack d) then (s.watchNews lin (.dack d)).map fun v => (.dack d, v) else none

/-- The creel knows of the neighbour's present offer, and has something of it to read, for which its budget is open (R251), or an item that it did
not claim now passes the tests. -/
def State.offerOpen (s : State) (lin d x : Nat) : Bool :=
  let c := s.creel lin
  decide (0 < s.sysRead x 0xBF8000) && s.heardOf lin (.oseq d) == s.sysRead x 0xBF8000 &&
    match s.offerUnread lin d x with
    | some _ => s.budgetOpen lin 3
    | none => mapGet c.oseqSeen 0 d / 2 == s.sysRead x 0xBF8000 && !(s.claimItems lin d x c.claimed (s.openItems lin d x)).isEmpty

/-- A creel may look at the offer of its neighbour in a direction (R282). -/
def State.mayClaim (s : State) (lin d : Nat) : Bool :=
  let c := s.creel lin
  match neighbour lin d with
  | none => false
  | some x =>
    c.params.lcfg.testBit 4 && c.params.lcfg.testBit d && c.residents.all (fun (_, p) => p.held) &&
      ((s.claimNews lin d).isSome || s.offerOpen lin d x)

/-- R282: an idle creel takes the answer of a watch, or reads a sector of an offer and publishes its claims: those of this offer that it does not know
to be settled, with the new ones. -/
def execLevellingClaim (lin nb : Nat) (s : State) : Host.Outcome State Fault Refusal :=
  done (match neighbour lin nb with
    | none => s
    | some x =>
      if !s.mayClaim lin nb then s
      else
      match s.claimNews lin nb with
      | some (w, v) => s.hear lin w v
      | none =>
        let o := s.sysRead x 0xBF8000
        let c := s.creel lin
        let unread := s.offerUnread lin nb x
        let items := s.claimItems lin nb x c.claimed (s.openItems lin nb x)
        let new := items.map fun i => (⟨nb, o, i, s.sysRead x (0xBF8010 + 8 * i), 0, [], 0, 0⟩ : Claim)
        let old := c.claims.filter fun k => k.dir == nb && k.oseq == o && k.due == 0 && k.seen == 0
        let s := match unread with
          | some i => (s.spend lin 3).correct (gpaOf x (0xBF8000 + 128 * i)) 128 0 1
          | none => s
        let s := s.updCreel lin fun c =>
          { c with
            oseqSeen := mapPut c.oseqSeen nb (2 * o + unread.getD 1)
            claimed := c.claimed + items.length
            claims := (c.claims.filter fun k => k.dir != nb || k.due != 0 || k.oseq == o) ++ new }
        if items.isEmpty then s
        else
          let mask := (old ++ new).foldl (fun acc k => acc ||| 2 ^ k.item) 0
          (s.sysWrite lin (0xBF8108 + 8 * nb) (o % 2 ^ 32 * 2 ^ 32 + mask)).sysWrite lin 0xBF8100
            (s.sysRead lin 0xBF8100 + 1))

/-- The neighbour of lowest number whose CLAIM word, as this round has read it, claims an item of the present offer (R283). -/
def State.claimant (s : State) (lin item : Nat) : Option Nat :=
  [0, 3, 1, 2].findSome? fun d =>
    match neighbour lin d with
    | none => none
    | some y =>
      let w := mapGet (s.creel lin).claimsRead 0 d
      if w / 2 ^ 32 = s.sysRead lin 0xBF8000 % 2 ^ 32 ∧ w.testBit item then some y else none

/-- One item at a grant round: withdrawn when it was placed, granted when it is claimed (R283). -/
def State.grantItem (s : State) (lin : Nat) (o : Offer) : State × Bool :=
  let seq := s.sysRead lin 0xBF8000 % 2 ^ 32 * 2 ^ 32
  let settle := fun (s : State) (v : Nat) =>
    (s.sysWrite lin (0xBF8208 + 8 * o.item) (seq + v)).updCreel lin fun c =>
      { c with offers := c.offers.map fun p => if p.item == o.item then { p with settled := true } else p }
  if o.settled then (s, false)
  else
    match mapFind (s.creel lin).residents o.entry with
    | some p =>
      if p.seq ≠ o.serial then (settle s 256, true)
      else
        match s.claimant lin o.item with
        | some y =>
          (settle (s.updCreel lin fun c =>
            { c with residents := mapDel c.residents o.entry, away := mapPut c.away (p.seq % 2 ^ 32) p }) (128 + y % 128), true)
        | none => (s, false)
    | none => (settle s 256, true)

/-- The direction whose CLAIM word a grant round reads next: one of a neighbour that is not yet read. -/
def State.claimUnread (s : State) (lin : Nat) : Option Nat :=
  [0, 1, 2, 3].find? fun d => (neighbour lin d).isSome && (mapFind (s.creel lin).claimsRead d).isNone

/-- A grant round is under way, and it has a CLAIM word to read for which its budget is open (R251), or all of them. -/
def State.grantDue (s : State) (lin : Nat) : Bool :=
  let c := s.creel lin
  c.grantAt != 0 && decide (c.grantAt ≤ s.cycle) && ((s.claimUnread lin).isNone || s.budgetOpen lin 3)

/-- R283: a grant round reads the CLAIM word of each neighbour, and then settles the items of its offer. The next round is 256 cycles after it. An
uncorrectable CLAIM word claims nothing (log 57). -/
def execGrantRound (lin : Nat) (s : State) : Host.Outcome State Fault Refusal :=
  done (if s.grantDue lin then
      match (s.claimUnread lin).bind fun d => (neighbour lin d).map fun y => (d, y) with
      | some (d, y) =>
        let a := 0xBF8108 + 8 * opposite d
        let s := (s.spend lin 3).correct (gpaOf y a) 8 0 1
        s.updCreel lin fun c => { c with claimsRead := mapPut c.claimsRead d (if s.badIn (gpaOf y a) 8 then 0 else s.sysRead y a) }
      | none =>
        let r := (s.creel lin).offers.foldl (fun (x : State × Bool) o =>
          let y := x.1.grantItem lin o
          (y.1, x.2 || y.2)) (s, false)
        let s := if r.2 then r.1.sysWrite lin 0xBF8200 (r.1.sysRead lin 0xBF8200 + 1) else r.1
        s.updCreel lin fun c => { c with grantAt := c.grantAt + 256, claimsRead := [] }
    else s)

/-- What a claim of creel `lin` waits for has come: its GRANT word is settled for its offer and its watch has not answered yet, or it is granted and not
pulled (R284, R355). -/
def State.claimMoves (s : State) (lin x : Nat) (k : Claim) : Bool :=
  k.due == 0 &&
    (k.seen == grantWord lin k ||
      k.seen == 0 && decide (k.oseq % 2 ^ 32 * 2 ^ 32 < s.seqRead (grantGpa x k)) && !s.badIn (grantGpa x k) 8)

/-- A claim in a direction that moves while the budget is open (R251). -/
def State.granted (s : State) (lin d : Nat) : Option Claim :=
  match neighbour lin d with
  | none => none
  | some x =>
    if s.budgetOpen lin 3 then (s.creel lin).claims.find? fun k => k.dir == d && s.claimMoves lin x k else none

/-- R284: the watch of a claim's GRANT word answers; then a granted packet is pulled from STAGE, read under world 0 (R310). -/
def execLevelledStagePull (lin nb : Nat) (s : State) : Host.Outcome State Fault Refusal :=
  done (match neighbour lin nb, s.granted lin nb with
    | some x, some k =>
      if k.seen = 0 then
        let s := (s.spend lin 3).correct (grantGpa x k) 8 0 1
        s.updCreel lin fun c =>
          { c with claims := c.claims.map fun j => if j == k then { k with seen := s.seqRead (grantGpa x k) } else j }
      else
      let g := gpaOf x (0xBF9000 + 128 * k.item)
      let (due, s) := (s.spend lin 3).laterCycle
      let bad := (s.firstBad g 128).isSome
      let s := if bad then s else s.correct g 128 0 1
      let k' := { k with
        due := due
        words := if bad then [] else packetWords (s.readAs (s.key x 0) g 128)
        status := if bad then 5 else 0 }
      s.updCreel lin fun c => { c with claims := c.claims.map fun j => if j == k then k' else j }
    | _, _ => s)

/-- A pulled packet has arrived and can be taken. -/
def State.arrived (s : State) (lin d : Nat) : Option Claim :=
  (s.creel lin).claims.find? fun k =>
    k.dir == d && k.due != 0 && decide (k.due ≤ s.cycle) && (k.status != 0 || (s.creel lin).freeEntry.isSome)

/-- R284, R379: the claimant accepts the packet, or reports its failed pull. -/
def execLevelledAccept (lin nb : Nat) (s : State) : Host.Outcome State Fault Refusal :=
  done (match neighbour lin nb, s.arrived lin nb with
    | some x, some k =>
      let serial := nbits k.word 63 32
      let s := s.updCreel lin fun c =>
        { c with
          claims := c.claims.map fun j => if j == k then { k with due := 0, words := [], status := 0, seen := 1 } else j
          taken := mapPut c.taken nb (mapGet c.taken 0 nb + 1) }
      if k.status ≠ 0 then s.publishLevelled lin nb (2 ^ 63 + serial)
      else
        s.acceptPacket lin ⟨k.words, nbits k.word 29 24, nbits k.word 23 15, 0, x, false, nbits k.word 9 8, 0, 0, 0, 0, 0,
          some (serial, nb)⟩
    | _, _ => s)

/-- How many ring words from completion number `n` on stand in its sector: the ring begins 16 bytes into a sector (R280). -/
def ringLeft (n : Nat) : Nat := min ((128 - (0x10 + 8 * (n % 32)) % 128) / 8) (32 - n % 32)

/-- How many completions of the neighbour in a direction the home reads next: what its watch of DSEQ has told of, in the ring's present sector, up to
an uncorrectable word (R284, log 57). -/
def State.doneCount (s : State) (lin d y : Nat) : Nat :=
  let ack := s.sysRead lin (0xBF8408 + 0x200 * d)
  let n := min (s.heardOf lin (.dseq d) - ack) (ringLeft ack)
  match s.firstBad (gpaOf y (0xBF8400 + 0x200 * opposite d + 0x10 + 8 * (ack % 32))) (8 * n) with
  | some k => k / 8
  | none => n

/-- The answer that the watch of a neighbour's DSEQ has once every completion told of is acknowledged. -/
def State.doneNews (s : State) (lin d : Nat) : Option Nat :=
  if s.heardOf lin (.dseq d) ≤ s.sysRead lin (0xBF8408 + 0x200 * d) then s.watchNews lin (.dseq d) else none

/-- The home has completions of a neighbour to take up (R284), for which its budget is open (R251). -/
def State.levelledDone (s : State) (lin d : Nat) : Bool :=
  match neighbour lin d with
  | none => false
  | some y => (s.doneNews lin d).isSome || (s.budgetOpen lin 3 && s.doneCount lin d y != 0)

/-- R33, R284, R379: the watch of DSEQ answers, or the home reads a sector of the ring from its last processed count onward (R251), updates each
packet's completion word, and writes DACK. -/
def execLevelledCompletionUpdate (lin nb : Nat) (s : State) : Host.Outcome State Fault Refusal :=
  done (match neighbour lin nb with
    | none => s
    | some y =>
      if !s.levelledDone lin nb then s
      else
      match s.doneNews lin nb with
      | some v => s.hear lin (.dseq nb) v
      | none =>
        let ack := s.sysRead lin (0xBF8408 + 0x200 * nb)
        let base := 0xBF8400 + 0x200 * opposite nb
        let n := s.doneCount lin nb y
        let s := (s.spend lin 3).correct (gpaOf y (base + 0x10 + 8 * (ack % 32))) (8 * n) 0 1
        let s := (List.range n).foldl (fun s i =>
          let w := s.sysRead y (base + 0x10 + 8 * ((ack + i) % 32))
          match mapFind (s.creel lin).away (w % 2 ^ 32) with
          | none => s
          | some p =>
            let s := s.updCreel lin fun c => { c with away := mapDel c.away (w % 2 ^ 32) }
            if w.testBit 63 then s.rejectPacket lin p 0x05 5
            else s.updateDone lin false (p.word 13) (p.packetRec 0 0)) s
        s.sysWrite lin (0xBF8408 + 0x200 * nb) (ack + n))

end Sys2Proof.Machine
end

