-- ==== Sys2Proof/Machine/System.lean ====
section
/-!
DEFINITION. System registers (R138, R139, R345, R346), the tables behind TTDATA and SLOTTAB (R74 to R78, R84, R85, R247, R251, R271 to
R273), the register writes that are steps of their own, and the SYS group (R40, R285, R286).
-/

namespace Sys2Proof.Machine

/-! ### What a write comes to -/

/-- A write takes effect, traps and changes nothing, or has parked its slot or waits at its instruction. -/
inductive RegWrite where
  | ok (s : State)
  | trap (t : Trap)
  | park (s : State)

/-- A trap of the instruction's own word (R331), or of no address. -/
def illegalWrite (w : Word) : RegWrite := .trap ⟨0x01, w, false⟩
def refusedWrite (cause : Nat) : RegWrite := .trap ⟨cause, 0, false⟩

/-- A write by itself: the effect on slot `id`, with the trap taken there. -/
def RegWrite.alone (r : RegWrite) (id : Nat) (s : State) : State :=
  match r with
  | .ok s => s
  | .park s => s
  | .trap t => s.takeTrap id (s.slot id).pc t

/-! ### Timers, partitions, masks -/

/-- R36: a write to UTIMER. -/
def State.writeUtimer (s : State) (id : Nat) (v : Word) : State :=
  s.updSlot id fun sl => { sl with utimer := if v = 0 then 0 else s.cycle + v.toNat }
def State.readTimer (s : State) (t : Nat) : Word := BitVec.ofNat 64 (t - s.cycle)

/-- R287: a write to STIMER; 0 clears a pending event. -/
def State.writeStimer (s : State) (id : Nat) (v : Word) : State :=
  s.updSlot id fun sl =>
    if v = 0 then { sl with stimer := 0, stimerPend := false } else { sl with stimer := s.cycle + v.toNat }

/-- R85: SBASE and SBOUND, refused while the partition is locked. -/
def State.writeBound (s : State) (id : Nat) (upper : Bool) (v : Word) : RegWrite :=
  if (s.slot id).slock then refusedWrite 0x08
  else
    let g := BitVec.ofNat 12 (v.toNat / 2 ^ 12)
    .ok (s.updSlot id fun sl => if upper then { sl with sbound := g } else { sl with sbase := g })

/-- R85: L = 1 locks the granules from BASE to LIMIT - 1. -/
def State.lockPartition (s : State) (id : Nat) : RegWrite :=
  let sl := s.slot id
  if 0xBF0 < sl.sbound.toNat ||
      (List.range (sl.sbound.toNat - sl.sbase.toNat)).any fun i => s.lockedElsewhere (slotLin id) (sl.sbase.toNat + i) id then
    refusedWrite 0x07
  else .ok (s.updSlot id fun sl => { sl with slock := true })

/-- R85: an MTS to SLOCK; a write of 0 is ignored. -/
def State.writeSlock (s : State) (id : Nat) (v : Word) : RegWrite :=
  if v.getLsbD 0 then s.lockPartition id else .ok s

/-- R85: SPACE 0x3, which clears a lock of an idle slot only. -/
def State.writePartition (s : State) (id which : Nat) (v : Word) : RegWrite :=
  match which with
  | 0 => s.writeBound id false v
  | 1 => s.writeBound id true v
  | _ =>
    if v.getLsbD 0 then s.lockPartition id
    else if (s.slot id).busy then refusedWrite 0x08
    else .ok (s.updSlot id fun sl => { sl with slock := false })

/-- Some resident line of a creel records mask k (R78). -/
def State.maskResident (s : State) (lin k : Nat) (p : Line → Bool) : Bool :=
  (List.range 24).any fun c => (s.core (coreAt lin c)).l2.any fun (_, l) => l.hk && l.hm == k && p l

/-- R78: a hash mask. -/
def State.writeHmask (s : State) (id k : Nat) (v : Word) : RegWrite :=
  let lin := slotLin id
  if s.maskResident lin k fun _ => true then refusedWrite 0x08
  else .ok (s.updCreel lin fun c => { c with hmask := mapPut c.hmask k (BitVec.ofNat 24 v.toNat) })

/-! ### Invalidation (R77) -/

/-- A translation of an ASID and space, of one page or of every page. -/
def invalidates (asid : Nat) (global : Bool) (va : Option Nat) (e : Tlb) : Bool :=
  e.asid == asid && e.global == global &&
    match va with
    | none => true
    | some a => e.vpage == a / 2 ^ e.bits

/-- An invalidation as R77 names it: an ASID and space, and one page or every page. -/
structure Inval where
  asid : Nat
  global : Bool
  va : Option Nat

/-- An address of an ASID was translated, in a space and through a page of `bits` bits, by a translation that is dropped. -/
def Inval.hits (v : Inval) (asid : Nat) (global : Bool) (bits va : Nat) : Bool :=
  v.asid == asid && v.global == global &&
    match v.va with
    | none => true
    | some a => a / 2 ^ bits == va / 2 ^ bits
def Inval.hitsSpans (v : Inval) (asid : Nat) (l : List Span) : Bool := l.any fun sp => v.hits asid sp.place.global sp.place.bits sp.va

/-- What a pull command has translated: its places, and its requests in flight. -/
def State.pullHit (s : State) (v : Inval) (lin : Nat) (p : PullCmd) : Bool :=
  v.hitsSpans p.asid.toNat (p.dst ++ p.src ++ p.comp ++ p.iseq ++ (p.merge.map fun h => h.dst ++ h.spill).getD []) ||
    s.preqs.any fun r => r.lin == lin && r.cmd == p.id && v.hits p.asid.toNat true r.bits r.va

/-- The accesses and commands of a creel that use a dropped translation. A Gaussian command that has started has its writes translated. -/
def State.invalIds (s : State) (v : Inval) (lin : Nat) : List Nat :=
  (s.accesses.filter fun a => slotLin a.slot == lin && a.parts.any fun p => v.hits a.asid p.global p.bits p.va).map (·.id) ++
    ((s.creel lin).pulls.filter (s.pullHit v lin)).map (·.id) ++
    (List.range 24).flatMap fun c =>
      ((s.core (coreAt lin c)).gq.filter fun g => g.started && g.dests.any fun (va, bits) => v.hits g.asid.toNat false bits va).map (·.id)

/-- A slot stands on one of its creel's waiting lists, or a range form of it is in progress: what it acts on is translated. -/
def State.listed (s : State) (lin k : Nat) : Bool :=
  (s.creel lin).lwaits.any (·.slot == k) || (s.creel lin).bwaits.any (·.slot == k) ||
    match (s.slot k).wait with
    | .sweep _ => true
    | _ => false

/-- A slot so waits through a dropped translation. -/
def State.listedHit (s : State) (v : Inval) (lin k : Nat) : Bool :=
  let asid := (s.slot k).asid.toNat
  (s.creel lin).lwaits.any (fun w => w.slot == k && v.hits asid false w.bits w.va) ||
    (s.creel lin).bwaits.any (fun w => w.slot == k && v.hits asid false w.bits w.va) ||
    match (s.slot k).wait with
    | .sweep w => v.hitsSpans asid w.spans
    | _ => false

/-- An access or a command of a creel, by its number, is not over. -/
def State.inFlight (s : State) (lin i : Nat) : Bool :=
  s.accesses.any (·.id == i) || (s.creel lin).pulls.any (·.id == i) ||
    (List.range 24).any fun c => (s.core (coreAt lin c)).gq.any fun g => g.started && g.id == i

/-- R77: matching translations are dropped, walks in flight start again, and the slot waits for what was translated through them before: accesses,
pulls and Gaussian commands in flight, and the slots on waiting lists or in a range form. -/
def State.invalidate (s : State) (id asid : Nat) (global : Bool) (va : Option Nat) : State :=
  let lin := slotLin id
  let keep := fun (l : List Tlb) => l.filter fun e => !invalidates asid global va e
  let (due, s) := s.laterCycle
  let s := s.updCreel lin fun c =>
    { c with
      tlb := keep c.tlb
      walks := c.walks.map fun w => if w.asid == asid && w.global == global then { w with due := due, at_ := none } else w }
  let s := (List.range 24).foldl (fun s c => s.updCore (coreAt lin c) fun k => { k with tlb := keep k.tlb }) s
  let v : Inval := ⟨asid, global, va⟩
  let slots := s.running.filter fun k => slotLin k == lin && s.listedHit v lin k
  s.updSlot id (·.park (.inval (s.invalIds v lin) slots))

/-- What an invalidation waits for has drained. -/
def State.invalDone (s : State) (id : Nat) : Bool :=
  match (s.slot id).wait with
  | .inval ids slots => !(ids.any (s.inFlight (slotLin id))) && !(slots.any (s.listed (slotLin id)))
  | _ => false

/-- A slot that an invalidation waits for has left its list: what it waits in later is translated anew. -/
def State.invalShrinks (s : State) (id : Nat) : Bool :=
  match (s.slot id).wait with
  | .inval _ slots => slots.any fun k => !s.listed (slotLin id) k
  | _ => false

/-- R77: the slot goes on when everything translated before has completed. -/
def execInvalidationComplete (sl : Nat) (s : State) : Host.Outcome State Fault Refusal :=
  done (if s.invalDone sl then s.retireOf sl 4
    else
      match (s.slot sl).wait with
      | .inval ids slots => if s.invalShrinks sl then s.waitOf sl (.inval ids (slots.filter (s.listed (slotLin sl)))) else s
      | _ => s)

/-! ### The tables behind TTDATA (R74, R75, R247, R251) -/

/-- A root entry as stored: WORLD, ROOT and V (R75). -/
def rootValue (v : Nat) : Nat := nbits v 63 58 * 2 ^ 58 + nbits v 44 8 * 2 ^ 8 + v % 2

/-- R75, R77: a root entry, then an invalidation of its ASID and space. -/
def State.writeRoot (s : State) (id idx : Nat) (v : Word) : RegWrite :=
  let s := s.updCreel (slotLin id) fun c =>
    { c with roots := mapPut c.roots (idx % 1024) (BitVec.ofNat 64 (rootValue v.toNat)) }
  .park (s.invalidate id (idx % 1024 / 2) (idx.testBit 0) none)

/-- A tree-table INDEX is assigned (R247). -/
def treeIndexOk (idx : Nat) : Bool := decide (idx < 0x205)

/-- A reserved bit of a tree-table word is set (R247, R251). -/
def treeReserved (idx v : Nat) : Bool :=
  if 0x200 ≤ idx then v / 2 ^ 16 != 0
  else
    match idx % 8 with
    | 0 => nbits v 3 1 != 0
    | 1 => nbits v 63 56 != 0 || v.testBit 19
    | 2 => nbits v 63 57 != 0
    | 3 => nbits v 63 47 != 0 || nbits v 2 0 != 0
    | _ => nbits v 63 52 != 0 || nbits v 31 20 != 0

/-- R247, R251: a tree-table word; `w` is the instruction's word for STVAL. -/
def State.writeTree (s : State) (id idx : Nat) (v w : Word) : RegWrite :=
  let lin := slotLin id
  if !treeIndexOk idx || treeReserved idx v.toNat || (idx == 0x204 && decide (v.toNat < 256)) then illegalWrite w
  else if idx < 0x200 && (s.creel lin).pulls.any (fun p => p.fn == 4 && p.group == idx / 8) then refusedWrite 0x08
  else .ok (s.updCreel lin fun c => { c with tree := mapPut c.tree idx v })

/-- R74, R77: SPACE 0x2. -/
def State.writeInvalidate (s : State) (id idx : Nat) (v : Word) : RegWrite :=
  .park (s.invalidate id (idx % 1024 / 2) (idx.testBit 0)
    (if v = BitVec.allOnes 64 then none else some v.toNat))

/-- The slot of the executing core that SPACE 0x3 names. -/
def coreSlot (id idx : Nat) : Nat := slotCore id * 16 + idx % 16

/-- A bit of INDEX that must be zero is set, or its table is unassigned (R74). -/
def ttBad (space idx : Nat) : Bool :=
  match space with
  | 0 | 2 => decide (1024 ≤ idx)
  | 1 => !treeIndexOk idx
  | 3 => decide (48 ≤ idx)
  | _ => true

/-- R74: an MTS to TTDATA. -/
def State.writeTtdata (s : State) (id : Nat) (v w : Word) : RegWrite :=
  let t := (s.slot id).ttidx.toNat
  let idx := t % 4096
  if ttBad (t / 4096) idx then illegalWrite w
  else
    match t / 4096 with
    | 0 => s.writeRoot id idx v
    | 1 => s.writeTree id idx v w
    | 2 => s.writeInvalidate id idx v
    | _ => s.writePartition (coreSlot id idx) (idx / 16) v

/-- Partition registers as read (R84). -/
def Slot.partitionReg (sl : Slot) (which : Nat) : Word :=
  match which with
  | 0 => BitVec.ofNat 64 (sl.sbase.toNat * 4096)
  | 1 => BitVec.ofNat 64 (sl.sbound.toNat * 4096)
  | _ => if sl.slock then 1 else 0

/-- R74: what an MFS of TTDATA gives; none where it raises 0x01. -/
def State.readTtdata (s : State) (id : Nat) : Option Word :=
  let t := (s.slot id).ttidx.toNat
  let idx := t % 4096
  let c := s.creel (slotLin id)
  if ttBad (t / 4096) idx then none
  else
    match t / 4096 with
    | 0 => some (mapGet c.roots 0 idx)
    | 1 => some (mapGet c.tree 0 idx)
    | 2 => some 0
    | _ => some ((s.slot (coreSlot id idx)).partitionReg (idx / 16))

/-! ### SLOTTAB (R271 to R273) -/

/-- R271, R273: KIND, INDEX and their reserved bits select an item. -/
def slottabBad (v : Nat) : Bool :=
  match nbits v 62 60 with
  | 0 => nbits v 59 57 != 0 || decide (24 ≤ nbits v 56 52)
  | 1 => decide (6 ≤ nbits v 59 48)
  | _ => true

/-- The values that a task-unit parameter takes (R273). -/
def paramOk (n v : Nat) : Bool :=
  match n with
  | 0 => decide (v < 16)
  | 1 => decide (1024 ≤ v ∧ v < 2 ^ 20)
  | 2 => decide (v ≤ 256)
  | 3 => decide (v < 32)
  | 4 => decide (10 ≤ v ∧ v ≤ 40)
  | _ => false

def TaskParams.put (p : TaskParams) (n v : Nat) : TaskParams :=
  match n with
  | 0 => { p with age := v }
  | 1 => { p with bint := v }
  | 2 => { p with lthr := v }
  | 3 => { p with lcfg := v }
  | _ => { p with jwd := v }

/-- DEPTH (R273): unplaced unheld packets at each priority, and held packets. -/
def Creel.depth (c : Creel) : Nat :=
  let n := fun (f : Packet → Bool) => (c.residents.filter fun (_, p) => f p).length
  (List.range 4).foldl (fun acc i => acc + n (fun p => !p.held && p.prio == i) * 2 ^ (9 * i)) 0 + n (·.held) * 2 ^ 36

/-- The value of the item that SLOTTAB selects (R271). -/
def State.slottabItem (s : State) (lin sel : Nat) : Nat :=
  if nbits sel 62 60 = 0 then (s.core (coreAt lin (nbits sel 56 52))).slotEntry (nbits sel 51 48)
  else
    let p := (s.creel lin).params
    match nbits sel 59 48 with
    | 0 => p.age
    | 1 => p.bint
    | 2 => p.lthr
    | 3 => p.lcfg
    | 4 => p.jwd
    | _ => (s.creel lin).depth

/-- A selection without a write (R271). -/
def State.selectSlottab (s : State) (id v : Nat) : State :=
  s.updCore (slotCore id) fun c => { c with slottab := BitVec.ofNat 64 (nbits v 62 48 * 2 ^ 48) }

/-- R272: a slot table entry by core and position. -/
def State.writeSlotEntry (s : State) (id idx : Nat) (v w : Word) : RegWrite :=
  let n := v.toNat % 2 ^ 48
  if n / 2 ^ 17 ≠ 0 ∨ 24 ≤ idx / 16 then illegalWrite w
  else .ok (s.updCore (coreAt (slotLin id) (idx / 16)) fun c =>
    { c with slotTable := mapPut c.slotTable (idx % 16) (BitVec.ofNat 64 n) })

/-- R273: a task-unit parameter. -/
def State.writeParam (s : State) (id idx : Nat) (v w : Word) : RegWrite :=
  let n := v.toNat % 2 ^ 48
  if !paramOk idx n then illegalWrite w
  else .ok (s.updCreel (slotLin id) fun c => { c with params := c.params.put idx n })

/-- R271: an MTS to SLOTTAB. -/
def State.writeSlottab (s : State) (id : Nat) (v w : Word) : RegWrite :=
  let n := v.toNat
  if slottabBad n then illegalWrite w
  else if !n.testBit 63 then .ok (s.selectSlottab id n)
  else
    let r := if nbits n 62 60 = 0 then s.writeSlotEntry id (nbits n 56 48) v w else s.writeParam id (nbits n 59 48) v w
    match r with
    | .ok s => .ok (s.selectSlottab id n)
    | r => r

/-! ### The registers by number (R138) -/

/-- The registers that exist: number, whether supervisor only, whether MTS writes it (R138, R345). -/
def sysReg (n : Nat) : Option (Bool × Bool) :=
  if n ≤ 0x007 then some (false, false)
  else if 0x010 ≤ n ∧ n ≤ 0x014 ∨ 0x020 ≤ n ∧ n ≤ 0x024 ∨ n = 0x030 ∨ n = 0x031 then some (false, true)
  else if 0x100 ≤ n ∧ n ≤ 0x10A ∨ 0x140 ≤ n ∧ n ≤ 0x143 ∨ n = 0x180 ∨ n = 0x181 ∨ n = 0x1C0 then some (true, true)
  else none

/-- A register as MFS reads it; none where TTDATA raises 0x01 (R138, R345). -/
def State.readReg (s : State) (id n : Nat) : Option Word :=
  let sl := s.slot id
  let lin := slotLin id
  let nat := fun (v : Nat) => some (BitVec.ofNat 64 v)
  match n with
  | 0x000 => nat (s.cycleOf lin)
  | 0x001 => nat (slotNo id)
  | 0x002 => nat (slotCoreNo id)
  | 0x003 => nat (lin % 128)
  | 0x004 => nat (lin / 128)
  | 0x005 => nat sl.memb
  | 0x006 => nat sl.width
  | 0x007 => nat sl.window
  | 0x010 => nat sl.uvec.toNat
  | 0x011 => nat sl.uepc.toNat
  | 0x012 => nat sl.ucause
  | 0x013 => some (s.readTimer sl.utimer)
  | 0x014 => nat sl.umask.toNat
  | 0x020 => some (descKeep sl.fa)
  | 0x021 => some (descKeep sl.fb)
  | 0x022 => some (descKeep sl.fc)
  | 0x023 => nat sl.sa.toNat
  | 0x024 => nat sl.sb.toNat
  | 0x030 => nat sl.gtau.toNat
  | 0x031 => nat sl.gflags
  | 0x100 => nat (s.creel lin).svec.toNat
  | 0x101 => nat sl.sepc.toNat
  | 0x102 => nat sl.scause.toNat
  | 0x103 => some sl.stval
  | 0x104 => nat sl.status
  | 0x105 => nat sl.world.toNat
  | 0x106 => nat sl.asid.toNat
  | 0x107 => some (sl.partitionReg 0)
  | 0x108 => some (sl.partitionReg 1)
  | 0x109 => some (sl.partitionReg 2)
  | 0x10A => some (s.readTimer sl.stimer)
  | 0x140 => nat (mapGet (s.creel lin).hmask 0 0).toNat
  | 0x141 => nat (mapGet (s.creel lin).hmask 0 1).toNat
  | 0x142 => nat (mapGet (s.creel lin).hmask 0 2).toNat
  | 0x143 => nat (mapGet (s.creel lin).hmask 0 3).toNat
  | 0x180 => nat sl.ttidx.toNat
  | 0x181 => s.readTtdata id
  | _ =>
    let sel := (s.core (slotCore id)).slottab.toNat
    nat (sel + s.slottabItem lin sel)

/-- The registers of a slot that hold what is written, but for reserved bits (R37, R138, R254, R326). -/
def Slot.writePlain (sl : Slot) (n : Nat) (v : Word) : Slot :=
  let t := v.toNat
  match n with
  | 0x010 => { sl with uvec := BitVec.ofNat 48 (t / 4 * 4) }
  | 0x011 => { sl with uepc := BitVec.ofNat 47 (t / 4 * 4) }
  | 0x012 => { sl with ucode := BitVec.ofNat 8 t, upend := BitVec.ofNat 4 (t / 256) }
  | 0x014 => { sl with umask := BitVec.ofNat 4 t }
  | 0x020 => { sl with fa := descKeep v }
  | 0x021 => { sl with fb := descKeep v }
  | 0x022 => { sl with fc := descKeep v }
  | 0x023 => { sl with sa := BitVec.ofNat 47 t }
  | 0x024 => { sl with sb := BitVec.ofNat 47 t }
  | 0x030 => { sl with gtau := BitVec.ofNat 32 t }
  | 0x031 => sl.setGflags t
  | 0x101 => { sl with sepc := BitVec.ofNat 47 (t / 4 * 4) }
  | 0x102 => { sl with scause := BitVec.ofNat 10 t }
  | 0x103 => { sl with stval := v }
  | 0x104 => { sl with pm := t.testBit 1, uf := t.testBit 2, nest := t.testBit 3, nosave := t.testBit 4 }
  | 0x106 => { sl with asid := BitVec.ofNat 9 t }
  | 0x180 => { sl with ttidx := BitVec.ofNat 16 t }
  | _ => sl

/-- R307, R312: a write to WORLD, which waits where it has to scrub. -/
def State.writeWorld (s : State) (id : Nat) (v : Word) : RegWrite :=
  let w := v.toNat % 64
  if s.leavesProtected id w && (s.scrubWaits id 0x3F || !(s.outstanding id).isEmpty) then
    .park ((s.scrubStart id 0x3F).waitOf id .hold)
  else .ok (s.takeWorld id w)

/-- A write to a register by number; `w` is the instruction's word (R138, R346). -/
def State.writeReg (s : State) (id n : Nat) (v w : Word) : RegWrite :=
  match n with
  | 0x013 => .ok (s.writeUtimer id v)
  | 0x100 => .ok (s.updCreel (slotLin id) fun c => { c with svec := BitVec.ofNat 48 (v.toNat / 4 * 4) })
  | 0x105 => s.writeWorld id v
  | 0x107 => s.writeBound id false v
  | 0x108 => s.writeBound id true v
  | 0x109 => s.writeSlock id v
  | 0x10A => .ok (s.writeStimer id v)
  | 0x140 => s.writeHmask id 0 v
  | 0x141 => s.writeHmask id 1 v
  | 0x142 => s.writeHmask id 2 v
  | 0x143 => s.writeHmask id 3 v
  | 0x181 => s.writeTtdata id v w
  | 0x1C0 => s.writeSlottab id v w
  | _ => .ok (s.updSlot id (·.writePlain n v))

/-! ### MFS and MTS (R139, R345) -/

def execMfs (d : BitVec 7) (n : BitVec 12) (s : State) : Host.Outcome State Fault Refusal :=
  let w := wordOf (.mfs d n)
  done (match sysReg n.toNat with
    | none => s.trapWith 0x01 w
    | some (sup, _) =>
      if sup && !s.me.mode then s.trapWith 0x02 w
      else
        issue [d] [] (fun s =>
          match s.readReg s.cur n.toNat with
          | some v => s.finish d v
          | none => s.trapWith 0x01 w) s)

def execMts (a : BitVec 7) (n : BitVec 12) (s : State) : Host.Outcome State Fault Refusal :=
  let w := wordOf (.mts a n)
  done (match sysReg n.toNat with
    | none => s.trapWith 0x01 w
    | some (sup, writable) =>
      if !writable then s.trapWith 0x01 w
      else if sup && !s.me.mode then s.trapWith 0x02 w
      else
        issue [a] [a] (fun s =>
          match s.writeReg s.cur n.toNat (s.x a.toNat) w with
          | .ok s => s.retire 4
          | .trap t => s.trap t
          | .park s => s) s)

/-! ### Writes as steps of their own -/

def execUtimerWrite (sl : Nat) (v : BitVec 64) (s : State) : Host.Outcome State Fault Refusal := done (s.writeUtimer sl v)
def execStimerWrite (sl : Nat) (v : BitVec 64) (s : State) : Host.Outcome State Fault Refusal := done (s.writeStimer sl v)
def execSlockWrite (sl : Nat) (v : BitVec 64) (s : State) : Host.Outcome State Fault Refusal :=
  done ((s.writeSlock sl v).alone sl s)
def execHmaskWrite (sl k : Nat) (v : BitVec 64) (s : State) : Host.Outcome State Fault Refusal :=
  done ((s.writeHmask sl (k % 4) v).alone sl s)
def execRootEntryWrite (sl idx : Nat) (v : BitVec 64) (s : State) : Host.Outcome State Fault Refusal :=
  done ((if ttBad 0 idx then illegalWrite 0 else s.writeRoot sl idx v).alone sl s)
def execTreeTableWrite (sl idx : Nat) (v : BitVec 64) (s : State) : Host.Outcome State Fault Refusal :=
  done ((s.writeTree sl idx v 0).alone sl s)
def execTranslationInvalidate (sl idx : Nat) (v : BitVec 64) (s : State) : Host.Outcome State Fault Refusal :=
  done ((if ttBad 2 idx then illegalWrite 0 else s.writeInvalidate sl idx v).alone sl s)
def execPartitionRegisterWrite (sl idx : Nat) (v : BitVec 64) (s : State) : Host.Outcome State Fault Refusal :=
  done ((if ttBad 3 idx then illegalWrite 0 else s.writePartition (coreSlot sl idx) (idx / 16) v).alone sl s)
def execTtdataRead (sl d : Nat) (s : State) : Host.Outcome State Fault Refusal :=
  done (match s.readTtdata sl with
    | some v => s.setRegOf sl d v
    | none => s.takeTrap sl (s.slot sl).pc ⟨0x01, 0, false⟩)
def execSlotTableEntryWrite (sl idx : Nat) (v : BitVec 64) (s : State) : Host.Outcome State Fault Refusal :=
  done ((s.writeSlotEntry sl idx v 0).alone sl s)
def execTaskParameterWrite (sl idx : Nat) (v : BitVec 64) (s : State) : Host.Outcome State Fault Refusal :=
  done ((s.writeParam sl idx v 0).alone sl s)
def execSlottabSelect (sl : Nat) (v : BitVec 64) (s : State) : Host.Outcome State Fault Refusal :=
  done ((if slottabBad v.toNat then illegalWrite 0 else .ok (s.selectSlottab sl v.toNat)).alone sl s)
def execWorldWrite (sl : Nat) (v : BitVec 64) (s : State) : Host.Outcome State Fault Refusal :=
  done ((s.writeWorld sl v).alone sl s)

/-! ### The SYS group (R285) -/

/-- R285: TRAP raises 0x13 with STVAL x(a). -/
def execTrap (a : BitVec 7) (s : State) : Host.Outcome State Fault Refusal :=
  done (issue [a] [a] (fun s => s.trapWith 0x13 (s.x a.toNat)) s)

/-- R285: BRK raises 0x14. -/
def execBrk (s : State) : Host.Outcome State Fault Refusal := done (issue [] [] (·.trapWith 0x14 0) s)

/-- R40: ERET returns from a user interrupt handler. In supervisor mode, or outside a handler, it is illegal. An attached member detaches
(R47). -/
def execEret (s : State) : Host.Outcome State Fault Refusal :=
  done (if s.me.mode || !s.me.uih then s.trapWith 0x01 (wordOf .eret)
    else
      issue [] [] (fun s =>
        let s := (s.swapShadow s.cur).updMe fun sl => { (sl.returnTo sl.uepc.toNat) with uih := false }
        s.detach s.cur) s)

/-- R286: SRET returns from a supervisor trap. Its reload waits for the slot's earlier accesses to the save area, as a load would (R90, R327). -/
def execSret (s : State) : Host.Outcome State Fault Refusal :=
  done (supervisor .sret (issue [] [] (fun s => if s.reloadWaits s.cur then s.wait .hold else s.returnTrap s.cur)) s)

/-- R285: PAUSE misses x(a) turns, clamped to 1 to 64. -/
def execPause (a : BitVec 7) (s : State) : Host.Outcome State Fault Refusal :=
  done (issue [a] [a] (fun s => s.park (.pause (max 1 (min 64 (s.x a.toNat).toNat)))) s)

/-- R285: the last of the turns has been missed. -/
def execPauseEnd (sl : Nat) (s : State) : Host.Outcome State Fault Refusal :=
  done (match (s.slot sl).wait with
    | .pause n => if n ≤ 1 then s.retireOf sl 4 else s
    | _ => s)

/-! ### Timers (R36, R287) -/

def Slot.utimerDue (sl : Slot) (cycle : Nat) : Bool := sl.utimer != 0 && decide (sl.utimer ≤ cycle)
def Slot.stimerDue (sl : Slot) (cycle : Nat) : Bool := sl.stimer != 0 && decide (sl.stimer ≤ cycle)

/-- R35, R36: UTIMER steps from 1 to 0. -/
def execUtimerExpire (sl : Nat) (s : State) : Host.Outcome State Fault Refusal :=
  done (if (s.slot sl).utimerDue s.cycle then (s.updSlot sl fun t => { t with utimer := 0 }).pendUser sl 0 else s)

/-- R287: STIMER steps from 1 to 0, and its event is pending. -/
def execStimerExpire (sl : Nat) (s : State) : Host.Outcome State Fault Refusal :=
  done (if (s.slot sl).stimerDue s.cycle then s.updSlot sl fun t => { t with stimer := 0, stimerPend := true } else s)

/-- A wait that the timer event ends or abandons (R287, R373), and one that a user interrupt does (R39). -/
def Wait.timerAbandons : Wait → Bool
  | .none | .fwalk | .lsync | .bara | .barw _ | .wwait _ | .sleep _ | .pause _ | .join _ _ => true
  | _ => false
def Wait.userAbandons : Wait → Bool
  | .none | .fwalk | .lsync | .bara | .barw _ | .wwait _ | .sleep _ | .join _ _ => true
  | _ => false

/-- R287: the pending timer event raises 0x20 at an instruction boundary in user mode; a waiting instruction reissues after SRET. -/
def State.timerTakes (s : State) (id : Nat) : Bool :=
  let sl := s.slot id
  sl.busy && !sl.terminating && sl.timerDue && sl.wait.timerAbandons

def execSupervisorTimerTrap (sl : Nat) (s : State) : Host.Outcome State Fault Refusal :=
  done (if s.timerTakes sl then
      let s := s.updSlot sl fun t => { t with stimerPend := false }
      s.takeTrap sl (s.slot sl).pc ⟨0x20, 0, false⟩
    else s)

/-- R38, R39: a deliverable user interrupt is taken; a sleep ends, and any other wait is abandoned. -/
def State.userTakes (s : State) (id : Nat) : Bool :=
  let sl := s.slot id
  sl.busy && !sl.terminating && sl.deliverable && sl.wait.userAbandons

def execUserInterruptDelivery (sl : Nat) (s : State) : Host.Outcome State Fault Refusal :=
  done (if s.userTakes sl then
      let s := match (s.slot sl).wait with
        | .sleep _ => s.retireOf sl 4
        | _ => s
      (s.updSlot sl fun t => { t with wait := .none }).deliverUser sl
    else s)

end Sys2Proof.Machine
end

