-- ==== Sys2Proof/Machine/Agents.lean ====
section
/-!
DEFINITION. Host ports and their agents: channel contexts (R296, R384), submission records (R21, R22, R297 to R300, R382), host reads of device
memory (R295, R301, R302), and the loss of a host (R381, R383).

Host port k of module m has number 2 × m + k. Host memory is read by its bus address in the space of that number.
-/

namespace Sys2Proof.Machine

/-! ### Contexts -/

/-- A channel context at reset (R296). -/
def Ctx.initial : Ctx where
  w0 := 0
  w1 := 0
  w2 := 0
  irqthr := 0
  vec := 0
  err := false
  en := false
  world := 0
  cons := 0
  finished := 0
  recs := []
  hseq := none
  part := []

/-- EN ← 0: a record that is being read is left (R298, R381). -/
def Ctx.off (c : Ctx) : Ctx := { c with en := false, hseq := none, part := [] }

def Agent.ctx (a : Agent) (h : Nat) : Ctx := mapGet a.ctxs Ctx.initial h
def Agent.putCtx (a : Agent) (h : Nat) (c : Ctx) : Agent := { a with ctxs := mapPut a.ctxs h c }

/-- The fields of context words 0 to 2 (R296). -/
def Ctx.rbase (c : Ctx) : Nat := nbits c.w0.toNat 63 12 * 2 ^ 12
def Ctx.rsize (c : Ctx) : Nat := nbits c.w0.toNat 4 0
def Ctx.hseqa (c : Ctx) : Nat := nbits c.w1.toNat 63 3 * 8
def Ctx.swin (c : Ctx) : Nat := nbits c.w2.toNat 29 22
def Ctx.sbase (c : Ctx) : Nat := nbits c.w2.toNat 21 16
def Ctx.asid (c : Ctx) : Nat := nbits c.w2.toNat 9 1

def State.port (s : State) (ag : Nat) : Agent := s.agent (ag / 2) (ag % 2)
def State.updPort (s : State) (ag : Nat) (f : Agent → Agent) : State := s.updAgent (ag / 2) (ag % 2) f
def State.ctxOf (s : State) (ag h : Nat) : Ctx := (s.port ag).ctx h
def State.putCtx (s : State) (ag h : Nat) (c : Ctx) : State := s.updPort ag (·.putCtx h c)

/-- R300, R383: an MSI-X message is sent, or dropped while the link is down. -/
def State.sendMsix (s : State) (ag vec : Nat) : State :=
  s.updPort ag fun a => if a.link then { a with msix := vec :: a.msix } else a

/-- ERR ← 1, with the message that its becoming 1 sends (R300). -/
def State.raiseErr (s : State) (ag h : Nat) : State :=
  let c := s.ctxOf ag h
  if c.err then s else (s.putCtx ag h { c with err := true }).sendMsix ag c.vec.toNat

/-- A record of a host agent (R335): source 0x0B, class 0x3, in the log of the creel that holds its memory (R334). -/
def State.agentRec (s : State) (ag code world asid lnum vaddr paddr detail w8 : Nat) : State :=
  let lin := agentLin (ag / 2) (ag % 2)
  s.pushRec lin 0x0B 0 0 0
    (recWords (worldOf (s.module (ag / 2)) world).prot 0x3 0x0B code world asid 0 0 lnum vaddr paddr 0 0 detail w8 0)

/-- A record whose code and detail no rule gives: both are free (log 2). -/
def State.agentRecFree (s : State) (ag world paddr : Nat) : State :=
  let (c, s) := s.draw
  let (d, s) := s.draw
  s.agentRec ag (c % 256) world 0 0 0 paddr (d % 2 ^ 64) 0

/-- R298: a context stops: EN ← 0 and ERR ← 1, with a record. -/
def State.stopCtx (s : State) (ag h code : Nat) : State :=
  let c := s.ctxOf ag h
  ((s.putCtx ag h c.off).raiseErr ag h).agentRec ag code c.world c.asid 0 0 0 0 0

/-! ### Register writes (R296, R384) -/

/-- R296: EN is written 1: the agent reads the ASID's global root entry in the creel of its memory. -/
def State.enableCtx (s : State) (ag h : Nat) : State :=
  let c := s.ctxOf ag h
  let r := s.root (agentLin (ag / 2) (ag % 2)) c.asid true
  let w := nbits r 63 58
  if r.testBit 0 && (worldOf (s.module (ag / 2)) w).hostVis then s.putCtx ag h { c with en := true, world := w }
  else (s.putCtx ag h c.off).raiseErr ag h

/-- R296, R384: a write to word 3: IRQTHR, VEC, ERR cleared by 1, EN. -/
def State.writeWord3 (s : State) (ag h v : Nat) : State :=
  let c := s.ctxOf ag h
  let s := s.putCtx ag h
    { c with irqthr := BitVec.ofNat 32 (v / 2 ^ 32), vec := BitVec.ofNat 10 (v / 2 ^ 12), err := c.err && !v.testBit 1 }
  if v.testBit 0 then s.enableCtx ag h
  else s.putCtx ag h (s.ctxOf ag h).off

/-- R296: a context word written by the host. Words 0 to 2 are refused while the context is enabled. -/
def State.writeCtxWord (s : State) (ag h word n : Nat) : State :=
  let c := s.ctxOf ag h
  if 3 ≤ word then s.writeWord3 ag h n
  else if c.en then s.raiseErr ag h
  else
    match word with
    | 0 => s.putCtx ag h { c with w0 := BitVec.ofNat 64 (nbits n 63 12 * 2 ^ 12 + nbits n 4 0) }
    | 1 => s.putCtx ag h { c with w1 := BitVec.ofNat 64 (nbits n 63 3 * 8) }
    | _ => s.putCtx ag h { c with w2 := BitVec.ofNat 64 (nbits n 29 1 * 2) }

def execContextWordWrite (ag ctx word : Nat) (v : BitVec 64) (s : State) : Host.Outcome State Fault Refusal :=
  done (s.writeCtxWord ag ctx word v.toNat)

/-- R296: word 3 is written with EN = 1. -/
def execContextEnable (ag ctx : Nat) (v : BitVec 64) (s : State) : Host.Outcome State Fault Refusal :=
  done (s.writeWord3 ag ctx (v.toNat / 2 * 2 + 1))

/-- R296, R384: writing 1 to ERR clears it. -/
def execErrClear (ag ctx : Nat) (s : State) : Host.Outcome State Fault Refusal :=
  done (s.putCtx ag ctx { s.ctxOf ag ctx with err := false })

/-! ### Host memory -/

/-- `n` bytes of host memory at a bus address of a port, as a little-endian number. -/
def State.hostRead (s : State) (ag addr n : Nat) : Nat := memNat s.hostMem (ag * 2 ^ 64 + addr % 2 ^ 64) n

/-! ### Submission records (R298, R299) -/

def HRec.word (r : HRec) (i : Nat) : Nat := (nth r.words i).getD 0
def HRec.kind (r : HRec) : Nat := nbits (r.word 0) 7 0
def HRec.count (r : HRec) : Nat := nbits (r.word 0) 31 16
def HRec.lnum (r : HRec) : Nat := nbits (r.word 0) 63 32

/-- The words of the context's page that the agent publishes (R297): CONS, DONE, STAT. -/
def State.publishCtx (s : State) (ag h word v : Nat) : State := s.agentWrite (ag / 2) (ag % 2) (256 * h + 8 * word) v

/-- R300: DONE has reached IRQTHR. -/
def State.checkIrq (s : State) (ag h : Nat) : State :=
  let c := s.ctxOf ag h
  if c.irqthr.toNat ≤ c.finished % 2 ^ 32 then
    (s.putCtx ag h { c with irqthr := 0xFFFFFFFF }).sendMsix ag c.vec.toNat
  else s

/-- R298, R299: records that are handled finish in order: STAT, then DONE. -/
def State.finishRecs (s : State) (ag h : Nat) : Nat → State
  | 0 => s
  | n + 1 =>
    let c := s.ctxOf ag h
    match c.recs with
    | [] => s
    | r :: rest =>
      if r.handled then
        let s := s.publishCtx ag h (2 + r.num % 16) (r.num % 2 ^ 32 * 2 ^ 32 + r.detail * 2 ^ 8 + r.code)
        let s := s.publishCtx ag h 1 (r.num + 1)
        ((s.putCtx ag h { c with recs := rest, finished := r.num + 1 }).checkIrq ag h).finishRecs ag h n
      else s

/-- A record is handled, with its status and, for a refusal, its error record (R299, R382). -/
def State.handleRec (s : State) (ag h : Nat) (r : HRec) (code detail : Nat) : State :=
  let c := s.ctxOf ag h
  let s := s.putCtx ag h
    { c with recs := c.recs.map fun x => if x.num == r.num then { x with handled := true, code := code, detail := detail } else x }
  let s := if code = 0 then s else s.agentRec ag code c.world c.asid r.lnum 0 0 detail r.placed
  s.finishRecs ag h 16

/-- The first word of a record, from `lo` on, that is not zero. -/
def HRec.nonzero (r : HRec) (lo : Nat) : Option Nat := ((List.range 16).drop lo).find? fun i => r.word i != 0

/-- R21: why a launch record is refused: code and detail. -/
def launchBad (r : HRec) (mod : Nat) : Option (Nat × Nat) :=
  if nbits (r.word 0) 15 8 ≠ 0 ∨ r.count = 0 ∨ 4096 < r.count then some (1, 0)
  else if r.word 1 % 128 ≠ 0 then some (1, 1)
  else if r.word 2 / 2 ^ 12 ≠ 0 then some (1, 2)
  else if r.word 2 ≠ mod then some (2, 2)
  else (r.nonzero 3).map fun i => (1, i)

/-- R299: why a stage record is refused: code and detail. -/
def stageBad (r : HRec) (c : Ctx) : Option (Nat × Nat) :=
  let off := r.word 2
  let len := r.word 3
  if nbits (r.word 0) 31 8 ≠ 0 then some (1, 0)
  else if r.word 1 % 128 ≠ 0 then some (1, 1)
  else if off / 2 ^ 23 ≠ 0 ∨ off % 128 ≠ 0 then some (1, 2)
  else if len / 2 ^ 23 ≠ 0 ∨ len % 128 ≠ 0 ∨ len = 0 then some (1, 3)
  else
    match r.nonzero 4 with
    | some i => some (1, i)
    | none =>
      if off < c.sbase * 2 ^ 16 ∨ (c.sbase + c.swin) * 2 ^ 16 < off + len ∨ 2 ^ 23 < off + len then some (5, 2) else none

/-- The first record that is not handled, and the first of a kind that is refused. -/
def Ctx.head (c : Ctx) : Option HRec := c.recs.find? fun r => !r.handled
def Ctx.refused (c : Ctx) (kind mod : Nat) : Option (HRec × Nat × Nat) :=
  (c.recs.filter fun r => !r.handled && r.kind == kind).findSome? fun r =>
    (if kind = 1 then launchBad r mod else stageBad r c).map fun (a, b) => (r, a, b)

/-! ### Polling (R298) -/

/-- CONS is behind an HSEQ, and fewer than 16 records are unfinished. -/
def Ctx.behind (c : Ctx) (hseq : Nat) : Bool := decide (c.cons < hseq ∧ c.cons - c.finished < 16)

/-- A poll of the context would change something: a record is being read, or HSEQ is not CONS. -/
def State.pollReady (s : State) (ag h : Nat) : Bool :=
  let c := s.ctxOf ag h
  let hseq := s.hostRead ag c.hseqa 8
  c.en && (c.hseq.isSome || decide (hseq < c.cons) || c.behind hseq)

/-- The bus address of the next word of record number CONS. -/
def Ctx.nextWord (c : Ctx) : Nat := c.rbase + c.cons % 2 ^ c.rsize * 128 + 8 * c.part.length

/-- One word of record number CONS is read at a place of its own; after the sixteenth CONS advances (R298). -/
def State.readRecWord (s : State) (ag h hseq : Nat) : State :=
  let c := s.ctxOf ag h
  let ws := c.part ++ [s.hostRead ag c.nextWord 8]
  if ws.length < 16 then s.putCtx ag h { c with part := ws }
  else
    let c' := { c with cons := c.cons + 1, recs := c.recs ++ [(⟨c.cons, ws, 0, false, 0, 0⟩ : HRec)], part := [] }
    (s.publishCtx ag h 0 (c.cons + 1)).putCtx ag h { c' with hseq := if c'.behind hseq then some hseq else none }

/-- R298: the agent serves an enabled context: it reads HSEQ, and then, a word in a step, the records before it. A failed read or an HSEQ below
CONS stops the context. -/
def execChannelPoll (ag ctx : Nat) (s : State) : Host.Outcome State Fault Refusal :=
  done (
    let c := s.ctxOf ag ctx
    if !c.en then s
    else
      let s := s.updPort ag fun a => { a with polled := ctx }
      if !(s.port ag).link then s.stopCtx ag ctx 0x04
      else
        match c.hseq with
        | some hseq => s.readRecWord ag ctx hseq
        | none =>
          let hseq := s.hostRead ag c.hseqa 8
          if hseq < c.cons then s.stopCtx ag ctx 0x02
          else if c.behind hseq then s.putCtx ag ctx { c with hseq := some hseq }
          else s)

/-! ### Launches (R21, R22, R297) -/

/-- A launch record can finish now: it is refused, or every packet of the first record is placed. -/
def State.launchReady (s : State) (ag h : Nat) : Option (HRec × Nat × Nat) :=
  let c := s.ctxOf ag h
  match c.refused 1 (ag / 2) with
  | some x => some x
  | none =>
    match c.head with
    | some r => if r.kind = 1 ∧ r.placed = r.count then some (r, 0, 0) else none
    | none => none

/-- R299: a launch record finishes. -/
def execLaunchRecord (ag ctx : Nat) (s : State) : Host.Outcome State Fault Refusal :=
  done (match s.launchReady ag ctx with
    | some (r, code, detail) => s.handleRec ag ctx r code detail
    | none => s)

/-- The number of packets that a creel of module `m` has taken from its inbox at agent k (R297). -/
def State.inboxCount (s : State) (m k c : Nat) : Nat := s.sysRead (128 * m + c) (0xBFA000 + 8 * k)

/-- The packet that the agent places next for a context: its record, the creel, the packet. Its inbox has room, by a count that is not uncorrectable
(R355), or the host's link is down. -/
def State.placeReady (s : State) (ag h : Nat) : Option (HRec × Nat × List Nat) :=
  let c := s.ctxOf ag h
  match c.head with
  | none => none
  | some r =>
    if r.kind = 1 ∧ (launchBad r (ag / 2)).isNone ∧ r.placed < r.count then
      let ws := packetWords (s.hostRead ag (r.word 1 + 128 * r.placed) 128)
      let cr := nbits ((nth ws 12).getD 0) 30 24
      let a := s.port ag
      if !a.link || decide (mapGet a.placed 0 cr - s.inboxCount (ag / 2) (ag % 2) cr < 64) &&
          !s.badIn (gpaOf (128 * (ag / 2) + cr) (0xBFA000 + 8 * (ag % 2))) 8 then some (r, cr, ws) else none
    else none

/-- R22, R297: a packet goes into its creel's inbox, and the inbox's sequence word counts it. A failed read ends the record (R382). -/
def execInboxPlace (ag ctx : Nat) (s : State) : Host.Outcome State Fault Refusal :=
  done (match s.placeReady ag ctx with
    | none => s
    | some (r, cr, ws) =>
      if !(s.port ag).link then s.handleRec ag ctx r 4 (if r.placed = 0 then 0 else 1)
      else
        let m := ag / 2
        let k := ag % 2
        let c := s.ctxOf ag ctx
        let n := mapGet (s.port ag).placed 0 cr
        let s := s.correct (gpaOf (128 * m + cr) (0xBFA000 + 8 * k)) 8 0 1
        let s := s.store (s.key (agentLin m k) 0) (agentGpa m k (0x100000 + 8192 * cr + 128 * (n % 64)))
          (ws.flatMap fun w => natBytes w 8)
        let s := s.agentWrite m k (0x40000 + 8 * cr) (n + 1)
        let s := s.updPort ag fun a =>
          { a with
            placed := mapPut a.placed cr (n + 1)
            tenants := mapPut a.tenants (cr * 2 ^ 64 + n) (c.world * 2 ^ 41 + c.asid * 2 ^ 32 + r.lnum) }
        let c := s.ctxOf ag ctx
        s.putCtx ag ctx { c with recs := c.recs.map fun x => if x.num == r.num then { x with placed := x.placed + 1 } else x })

/-! ### Stages and markers (R299) -/

/-- A stage record can finish now: it is refused, or it is the first record. -/
def State.stageReady (s : State) (ag h : Nat) : Option (HRec × Nat × Nat) :=
  let c := s.ctxOf ag h
  match c.refused 2 (ag / 2) with
  | some x => some x
  | none =>
    match c.head with
    | some r => if r.kind = 2 then some (r, 0, 0) else none
    | none => none

/-- R299, R310: the bytes are copied into the staging window under the key of the channel's world; a failed read leaves free bytes there (R382). -/
def execStageRecord (ag ctx : Nat) (s : State) : Host.Outcome State Fault Refusal :=
  done (match s.stageReady ag ctx with
    | none => s
    | some (r, code, detail) =>
      if code ≠ 0 then s.handleRec ag ctx r code detail
      else
        let m := ag / 2
        let k := ag % 2
        let key := s.key (agentLin m k) (s.ctxOf ag ctx).world
        let g := agentGpa m k (r.word 2)
        let n := r.word 3
        if (s.port ag).link then (s.store key g (natBytes (s.hostRead ag (r.word 1) n) n)).handleRec ag ctx r 0 0
        else
          let (v, s) := s.draw
          (s.store key g (natBytes v n)).handleRec ag ctx r 4 0)

/-- A marker, or a record of another kind, is the first record. -/
def State.markerReady (s : State) (ag h : Nat) : Option HRec :=
  match (s.ctxOf ag h).head with
  | some r => if r.kind = 1 ∨ r.kind = 2 then none else some r
  | none => none

/-- R299: a marker finishes at once, and so does a record of an unknown kind, with code 0x03. -/
def execMarkerRecord (ag ctx : Nat) (s : State) : Host.Outcome State Fault Refusal :=
  done (match s.markerReady ag ctx with
    | none => s
    | some r =>
      if r.kind = 3 then
        match r.nonzero 1 with
        | none => s.handleRec ag ctx r 0 0
        | some i => s.handleRec ag ctx r 1 i
      else s.handleRec ag ctx r 3 0)

/-! ### Host reads (R295, R301, R302) -/

/-- A host read returns its data, `n` bytes as a number. -/
def State.hostData (s : State) (ag v : Nat) : State := s.updPort ag fun a => { a with readData := v }
/-- All ones, with an error record (R302). -/
def State.hostFails (s : State) (ag world n gpa : Nat) : State := (s.agentRecFree ag world gpa).hostData ag (2 ^ (8 * n) - 1)

/-- All ones, with the record of the word or sector at a location that was found uncorrectable (R355, R370). -/
def State.hostBad (s : State) (ag world n loc : Nat) : State :=
  let u := unitOf loc
  let src := if wordUnit u then 0x09 else 0x08
  ((s.foundBad u 8).pushRec (unitLin u) src 0 0 0
    (recWords (worldOf (s.module (ag / 2)) world).prot 0x4 src 0x09 world 0 0 0 0 0 (locGpa u) 0 0 1 0 0)).hostData ag (2 ^ (8 * n) - 1)

/-- When neither image slot passes at boot, only BAR0 answers the host (R390). -/
def State.silent (s : State) (ag : Nat) : Bool := (s.module (ag / 2)).active == 3

/-- The world whose key decrypts a byte of agent memory for the host (R302): the channel's world in a staging window, else world 0. -/
def Agent.windowWorld (a : Agent) (off : Nat) : Nat :=
  match a.ctxs.find? fun (_, c) => c.en && decide (c.sbase * 2 ^ 16 ≤ off ∧ off < (c.sbase + c.swin) * 2 ^ 16) with
  | some (_, c) => c.world
  | none => 0

/-- R302: a host read of agent memory. -/
def execHostReadBar1 (ag addr n : Nat) (s : State) : Host.Outcome State Fault Refusal :=
  let m := ag / 2
  let k := ag % 2
  let g := agentGpa m k addr
  done (if s.silent ag then s
    else if 2 ^ 23 < addr + n then s.hostFails ag 0 n g
    else
      match s.firstBad g n with
      | some i => s.hostBad ag 0 n (g + i)
      | none =>
        let a := s.port ag
        let bs := (List.range n).map fun i => s.byteAs (s.key (agentLin m k) (a.windowWorld (addr + i))) (g + i)
        (s.correct g n 0 1).hostData ag (bytesNat bs))

/-- R302: a granule locked to a slot of a protected world. -/
def State.protectedGranule (s : State) (lin g : Nat) : Bool :=
  s.slots.any fun (k, sl) =>
    slotLin k == lin && sl.slock && decide (sl.sbase.toNat ≤ g ∧ g < sl.sbound.toNat) &&
      (worldOf (s.module (lin / 128)) sl.world.toNat).prot

/-- The creel that HWIN names, and the first local physical address of its window (R301). -/
def hwinLin (v : Nat) : Nat := nbits v 56 45 * 128 + nbits v 44 38
def hwinLpa (v : Nat) : Nat := nbits v 37 23 * 2 ^ 30

/-- R302: why a read through BAR2 fails before it reaches memory. -/
def State.bar2Bad (s : State) (ag off n : Nat) : Bool :=
  let v := (s.port ag).hwin.toNat
  let lin := hwinLin v
  let lpa := hwinLpa v + off
  let hk := v.testBit 1
  let home := nbits v 6 2
  let r := regionOf lin lpa
  !v.testBit 63 || !(worldOf (s.module (ag / 2)) (nbits v 62 57)).hostVis ||
    (mapFind s.mods (lin / 128)).isNone || s.isLost (128 * (ag / 2)) (lin / 128) || r == 0 || r != regionOf lin (lpa + n - 1) ||
    (r == 4 && (if hk then decide (4 ≤ home) || (maskCores (mapGet (s.creel lin).hmask 0 (home % 4))).isEmpty else decide (23 < home))) ||
    (isSram lpa && (List.range ((lpa % 4096 + n - 1) / 4096 + 1)).any fun i => s.protectedGranule lin (lpa / 4096 + i))

/-- R302: a host read through the window. -/
def execHostReadBar2 (ag off n : Nat) (s : State) : Host.Outcome State Fault Refusal :=
  let v := (s.port ag).hwin.toNat
  let lin := hwinLin v
  let world := nbits v 62 57
  let g := gpaOf lin (hwinLpa v + off)
  let home := nbits v 6 2
  done (if s.silent ag then s
    else if s.bar2Bad ag off n then s.hostFails ag world n g
    else
      let p : Place := ⟨g, if isDram (lpaOf g) then some home else none, v.testBit 1, home % 4, false, 16⟩
      let s := s.ensureRun lin p n world
      match (List.range n).find? fun i => setHas s.bad (unitOf (s.runLoc lin p i)) with
      | some i => s.hostBad ag world n (s.runLoc lin p i)
      | none =>
        let key := s.key (128 * (ag / 2)) world
        let bs := (List.range n).map fun i => s.byteAs key (s.runLoc lin p i)
        let s := (List.range n).foldl (fun s i => s.correct (s.runLoc lin p i) 1 0 1) s
        s.hostData ag (bytesNat bs))

/-- R295: a host write to BAR1 or BAR2 is discarded, with a record. -/
def execHostWriteDiscard (ag bar addr : Nat) (s : State) : Host.Outcome State Fault Refusal :=
  let v := (s.port ag).hwin.toNat
  let g := if bar = 1 then agentGpa (ag / 2) (ag % 2) addr else gpaOf (hwinLin v) (hwinLpa v + addr)
  done (if s.silent ag then s else s.agentRecFree ag (if bar = 1 then 0 else nbits v 62 57) g)

/-! ### The loss of a host (R381, R383) -/

/-- R381: every context stops, HWIN.V is cleared, and one record is written. -/
def State.loseHost (s : State) (ag : Nat) : State :=
  let s := (List.range 1024).foldl (fun s h => (s.putCtx ag h (s.ctxOf ag h).off).raiseErr ag h) s
  (s.updPort ag fun a => { a with hwin := a.hwin &&& 0x7FFFFFFFFFFFFFFF }).agentRec ag 0x05 0 0 0 0 0 0 0

def execHostLinkDown (ag : Nat) (s : State) : Host.Outcome State Fault Refusal :=
  done ((s.updPort ag fun a => { a with link := false }).loseHost ag)
def execFunctionLevelReset (ag : Nat) (s : State) : Host.Outcome State Fault Refusal := done (s.loseHost ag)

/-- R383: the link returns; each context with ERR = 1 sends its vector once. -/
def execHostLinkUp (ag : Nat) (s : State) : Host.Outcome State Fault Refusal :=
  done (if (s.port ag).link then s
    else
      let s := s.updPort ag fun a => { a with link := true }
      (s.port ag).ctxs.foldl (fun s (_, c) => if c.err then s.sendMsix ag c.vec.toNat else s) s)

/-- R381, R382: a host read of a context times out: the record that was being handled finishes with code 0x04, and the context stops. -/
def execHostReadTimeout (ag ctx : Nat) (s : State) : Host.Outcome State Fault Refusal :=
  done (
    let s := s.stopCtx ag ctx 0x04
    match (s.ctxOf ag ctx).head with
    | some r =>
      if r.kind = 1 ∧ (launchBad r (ag / 2)).isNone ∧ r.placed < r.count then
        s.handleRec ag ctx r 4 (if r.placed = 0 then 0 else 1)
      else if r.kind = 2 ∧ (stageBad r (s.ctxOf ag ctx)).isNone then
        let (v, s) := s.draw
        let k := s.key (agentLin (ag / 2) (ag % 2)) (s.ctxOf ag ctx).world
        (s.store k (agentGpa (ag / 2) (ag % 2) (r.word 2)) (natBytes v (r.word 3))).handleRec ag ctx r 4 0
      else s
    | none => s)

/-! ### Destroyed worlds (R389) -/

/-- Contexts of a module's host ports that bind a world stop with ERR ← 1. -/
def State.stopBound (s : State) (m w : Nat) : State :=
  [0, 1].foldl (fun s k =>
    (s.agent m k).ctxs.foldl (fun s (h, c) =>
      if c.en && c.world == w then
        (s.putCtx (2 * m + k) h (s.ctxOf (2 * m + k) h).off).raiseErr (2 * m + k) h
      else s) s) s

end Sys2Proof.Machine
end

