-- ==== Sys2Proof/Machine/Cache.lean ====
section
/-!
DEFINITION. The CACHE group (R293, R294).
-/

namespace Sys2Proof.Machine

/-- A range form (R293): its range, then its pages and lines. It waits for the slot's own accesses in flight (R90). -/
def opCache (w : Word) (a b : BitVec 7) (fn : Nat) (s : State) : Host.Outcome State Fault Refusal :=
  done (issue [a, b] [a, b] (fun s =>
    let va := (s.x a.toNat).toNat
    let n := (s.x b.toNat).toNat
    if n = 0 then s.retire 4
    else if 2 ^ 30 < n then s.trapWith 0x01 w
    else if !(s.outstanding s.cur).isEmpty then s.wait .hold
    else s.sweepGo ⟨fn, va, n, [], 0, 0, 0, 0⟩) s)

def execL2wb (a b : BitVec 7) := opCache (wordOf (.l2wb a b)) a b 0
/-- A pinned line is written back and stays. -/
def execL2inv (a b : BitVec 7) := opCache (wordOf (.l2inv a b)) a b 1
def execL2wbi (a b : BitVec 7) := opCache (wordOf (.l2wbi a b)) a b 2
/-- RINV drops reader-cache lines of the executing creel. -/
def execRinv (a b : BitVec 7) := opCache (wordOf (.rinv a b)) a b 3
def execL2pf (a b : BitVec 7) := opCache (wordOf (.l2pf a b)) a b 5

/-! ### L2HM (R294) -/

/-- An access is a GLD served in the reader cache of its own creel (R79). -/
def isGld : AccKind → Bool
  | .gld _ _ | .gldData _ _ _ | .gldTrap _ => true
  | _ => false

/-- A part's home is computed through mask k of creel `lin`. -/
def partUnder (lin k : Nat) (a : Access) (p : Part) : Bool :=
  p.hk && p.hm % 4 == k && if isGld a.kind then slotLin a.slot == lin else linOf p.gpa == lin && isDram (lpaOf p.gpa)

/-- A part that was routed under a mask takes its home under the new one. -/
def State.rehome (s : State) (lin k : Nat) (a : Access) (p : Part) : Part :=
  if partUnder lin k a p then { p with home := s.homeOf lin true p.hm (lpaOf p.gpa) } else p

/-- R294 step 5: an access that was returned to its core is served at its new home. -/
def State.serveReturned (s : State) (id : Nat) : State :=
  match s.accesses.find? (·.id == id) with
  | some a =>
    (a.parts.foldl (fun s p => s.ensure p.gpa p.hk p.hm p.home a.world) s).runAccess { a with fill := 0 } (a.parts.length + 1)
  | none => s

/-- The range forms of a creel whose checks are over and which have lines under mask k left (R324): the number of each, its slot, and the form. -/
def State.sweepsUnder (s : State) (lin k : Nat) : List (Nat × Nat × Sweep) :=
  s.running.filterMap fun id =>
    match (s.slot id).wait with
    | .sweep w =>
      if slotLin id = lin ∧ w.left = 0 ∧ (w.spans.any fun sp => sp.place.hk && sp.place.hm % 4 == k) then some (w.since, id, w) else none
    | _ => none

/-- What an L2HM returns, put in the order of issue: an access by its number, or a range form with its slot (R294, R324). -/
def insertReturned (x : Nat × Option (Nat × Sweep)) : List (Nat × Option (Nat × Sweep)) → List (Nat × Option (Nat × Sweep))
  | [] => [x]
  | y :: l => if x.1 < y.1 then x :: y :: l else y :: insertReturned x l

/-- R294: the lines that record mask k are written back and dropped, the mask is replaced, and the accesses on their way are served under the new
mask with the lines that range forms have left, in the order in which they issued and before any that waits. -/
def State.replaceMask (s : State) (lin k : Nat) (v : BitVec 24) : State :=
  let s := (List.range 24).foldl (fun s c =>
    let core := coreAt lin c
    ((s.core core).l2.filter fun (_, l) => l.hk && l.hm == k).foldl (fun s (w, _) => (s.l2WriteBack core w).l2Drop core w) s) s
  let s := s.updCreel lin fun c => { c with hmask := mapPut c.hmask k v }
  let gone := (s.fills.filter fun f => f.core / 32 == lin && f.hk && f.hm == k).map (·.id)
  let back := (s.accesses.filter fun a => !isGld a.kind && a.parts.any (partUnder lin k a)).map (·.id)
  let s := { s with
    fills := s.fills.filter fun f => !gone.contains f.id
    accesses := s.accesses.map fun a =>
      { a with fill := if gone.contains a.fill then 0 else a.fill, parts := a.parts.map (s.rehome lin k a) } }
  let back := back.map (·, none) ++ (s.sweepsUnder lin k).map fun (n, id, w) => (n, some (id, w))
  (back.foldl (fun l x => insertReturned x l) []).foldl (fun s (n, x) =>
    match x with
    | none => s.serveReturned n
    | some (id, w) => s.sweepReturned k id w) s

def execL2hm (a b : BitVec 7) (s : State) : Host.Outcome State Fault Refusal :=
  done (supervisor (.l2hm a b) (issue [a, b] [a, b] (fun s =>
    let k := (s.x a.toNat).toNat % 4
    let v := (s.x b.toNat).toNat
    if v / 2 ^ 24 ≠ 0 then s.trapWith 0x01 (wordOf (.l2hm a b))
    else if s.maskResident s.lin k fun l => l.pins != 0 then s.trapWith 0x08 0
    else (s.replaceMask s.lin k (BitVec.ofNat 24 v)).retire 4)) s)

end Sys2Proof.Machine
end

