-- ==== Sys2Proof/Machine/Front.lean ====
section
/-!
DEFINITION. Page walks that slots wait for (R76, R358, R359), instruction fetch of strands and of the front end (R48, R161, R343, R355), and
delivery to the slack queues of a weave (R43 to R46, R162).
-/

namespace Sys2Proof.Machine

/-! ### Page walks (R76) -/

/-- The walk of a creel that is under way and done. -/
def State.walkDone (s : State) (lin id : Nat) : Option Walk :=
  (s.creel lin).walks.find? fun w => w.id == id && w.started && decide (w.due ≤ s.cycle)

/-- A walk leaves the translation unit, and the walk that has waited longest is admitted (R76). -/
def State.endWalk (s : State) (lin id : Nat) : State :=
  let ws := (s.creel lin).walks.filter (·.id != id)
  let (due, s) := s.laterCycle
  match ws.find? fun w => !w.started with
  | none => s.updCreel lin fun c => { c with walks := ws }
  | some n =>
    s.updCreel lin fun c =>
      { c with walks := ws.map fun w => if w.id == n.id then { w with started := true, due := due } else w }

/-- A slot that waits for a walk. -/
def State.walking (s : State) (id : Nat) : Bool := decide ((s.slot id).wait = .walk) || decide ((s.slot id).wait = .fwalk)

/-- A requester's walk has given a translation. A slot's access goes on, with events held pending until it completes (R168, R373), and a fetch is made
again. -/
def State.walkReady (s : State) (e : Tlb) (r : Nat × Nat) : State :=
  if 2 ^ 40 ≤ r.1 then s
  else
    let s := s.fillCoreTlb (slotCore r.1) e
    match (s.slot r.1).wait with
    | .walk => s.waitOf r.1 .hold
    | .fwalk => s.waitOf r.1 .none
    | _ => s

/-- A requester learns of a walk's fault: a slot raises it with its own address (R358), and a unit finds it when it asks again. -/
def State.walkFault (s : State) (lin page : Nat) (w : WalkErr) (r : Nat × Nat) : State :=
  if 2 ^ 40 ≤ r.1 then s.updCreel lin fun c => { c with wfaults := c.wfaults ++ [⟨r.1, page, w⟩] }
  else if s.walking r.1 then
    let cause := match w with
      | .cause c => c
      | .bad _ _ => 0x09
    s.waitOf r.1 (.trapping ⟨cause, BitVec.ofNat 64 r.2, false⟩)
  else s

/-- The slot that a requester works for, with the address of its instruction and its ticket: a slot, a slot's range form, or a command of an engine.
The front end of a weave and a completion update work for none. -/
def State.reqOwner (s : State) (lin r : Nat) : Option (Nat × Nat × Nat) :=
  if r < 2 ^ 40 then some (r, (s.slot r).pc, 0)
  else if r < 2 ^ 41 then some (r - 2 ^ 40, (s.slot (r - 2 ^ 40)).pc, 0)
  else
    let id := r - 2 ^ 41
    (((s.creel lin).pulls.find? (·.id == id)).map fun c => (c.slot, c.pc, c.ticket)).or
      ((List.range 24).findSome? fun n =>
        let k := s.core (coreAt lin n)
        ((k.mq.find? (·.id == id)).map fun c => (c.slot, c.pc, c.ticket)).or
          ((k.gq.find? (·.id == id)).map fun c => (c.slot, c.pc, c.ticket)))

/-- The record of a walk that met an uncorrectable entry (R335, R359, R370): it names the first requester. -/
def State.walkRec (s : State) (lin : Nat) (w : Walk) (gpa lvl : Nat) : State :=
  let prot := (worldOf (s.module (lin / 128)) w.world).prot
  let va := match w.reqs with | (_, va) :: _ => va | [] => w.page * 2 ^ 16
  match w.reqs.head?.bind fun x => s.reqOwner lin x.1 with
  | some (id, pc, ticket) =>
    let lnum := match mapFind s.weaves (s.slot id).weave with | some v => v.lnum | none => 0
    s.pushRec lin 0x07 (slotCoreNo id) (slotNo id) 0
      (recWords prot 0x2 0x07 0x09 w.world w.asid (slotCoreNo id) (slotNo id) lnum va gpa ticket pc lvl 0 0)
  | none => s.pushRec lin 0x07 0 0 0 (recWords prot 0x2 0x07 0x09 w.world w.asid 0 0 0 va gpa 0 0 lvl 0 0)

/-- R71, R76, R358, R359: a walk reads its next entry, at a place of its own. With its leaf it fills the creel TLB and the core TLB of every
requester, which goes on; with a fault each requester raises its own, and an uncorrectable entry writes one record. -/
def execPageWalkComplete (lin id : Nat) (s : State) : Host.Outcome State Fault Refusal :=
  done (match s.walkDone lin id with
    | none => s
    | some w =>
      match s.walkStep lin w with
      | (s, .next lvl t) =>
        let (due, s) := s.laterCycle
        s.updCreel lin fun c =>
          { c with walks := c.walks.map fun v => if v.id == id then { v with due := due, at_ := some (lvl, t) } else v }
      | (s, .leaf e) =>
        let s := (s.endWalk lin id).fillCreelTlb lin e
        (w.reqs.foldl (fun s r => s.walkReady e r) s).runUpdates lin (w.reqs.map (·.1))
      | (s, .fault f) =>
        let s := s.endWalk lin id
        let s := match f with
          | .bad g lvl => s.walkRec lin w g lvl
          | .cause _ => s
        (w.reqs.foldl (fun s r => s.walkFault lin w.page f r) s).runUpdates lin (w.reqs.map (·.1)))

/-! ### Instruction caches (R48) -/

/-- The lines of an instruction cache that holds words. -/
def icLines (l : List Nat) : List Nat := (l.map (· / 8)).eraseDups

/-- The words of a line join a cache of `size` lines; a full one gives up a line of free choice (log 9). -/
def icAdd (l : List Nat) (line : Nat) (words : List Nat) (size choice : Nat) : List Nat :=
  let l := l.filter (· / 8 != line)
  let ls := icLines l
  let l := if ls.length < size then l
    else match nth ls (choice % ls.length) with
      | some v => l.filter (· / 8 != v)
      | none => l
  words ++ l

/-- The numbers of the 8-byte words of a 64-byte line. -/
def lineWords (gpa : Nat) : List Nat := (List.range 8).map (gpa / 64 * 8 + ·)

/-- The word of an address in the creel's instruction cache of 1,024 lines, its line filled from creel memory if it is not there. Words that are
uncorrectable are not held (R356). -/
def State.fillCreelLine (s : State) (lin : Nat) (gpa : Nat) (hk : Bool) (hm : Nat) (home : Option Nat) (world : Nat) : State :=
  if (s.creel lin).icache.contains (gpa / 8) then s
  else
    let g := gpa / 64 * 64
    let s := s.ensure g hk hm home world
    let src := s.dataLoc g home
    let s := s.correct src 64 0 4
    let (n, s) := s.draw
    let good := (lineWords gpa).filter fun w => !setHas s.bad (unitOf (src + (8 * w - g)))
    (s.copyBlocks (src / 16) (creelLoc lin g / 16) 4).updCreel lin fun c => { c with icache := icAdd c.icache (gpa / 64) good 1024 n }

/-- The line of an address in a core's strand instruction cache of 128 lines, filled from the creel's. -/
def State.fillStrandLine (s : State) (core : Nat) (gpa : Nat) : State :=
  let g := gpa / 64 * 64
  let (n, s) := s.draw
  let good := (lineWords gpa).filter fun w => (s.creel (core / 32)).icache.contains w
  (s.copyBlocks (creelLoc (core / 32) g / 16) (strandLoc core g / 16) 4).updCore core fun c =>
    { c with icache := icAdd c.icache (gpa / 64) good 128 n }

/-! ### Fetch -/

/-- What a fetch comes to: a word, a fault of stage 1 of R339, or a wait of the slot. -/
inductive Fetch where
  | word (w : IWord)
  | trap (t : Trap)
  | wait
  deriving DecidableEq, Repr

/-- A translated address as a fetch may use it: X and U (R73), and a home that a mask gives (R79). -/
def State.fetchPlace (s : State) (lin va : Nat) (sup : Bool) (e : Tlb) : Except Nat Place :=
  let p := e.phys lin va
  let lpa := lpaOf p.gpa
  let home := if isDram lpa then s.homeOf lin p.hk p.home lpa else none
  if isDram lpa && home.isNone then .error 0x05
  else if permitted e .fetch sup then .ok (p.place home)
  else .error 0x08

/-- An uncorrectable word that a fetch for a slot met (R355): its record names the instruction's address and the word or sector. -/
def State.fetchRec (s : State) (id : Nat) (p : Place) (va pc : Nat) : State := s.dataRecAt id (s.dataLoc p.gpa p.home) 4 va pc 1

/-- The word before a transfer's target as the test of R343 reads it: a word, or none where it raises nothing, at 0, in a page that is unmapped or
without X, or uncorrectable; `wait` while its translation is on its way. It is read in the line of the target, or in memory. -/
inductive Peek where
  | word (w : IWord)
  | none
  | wait
  deriving DecidableEq, Repr

def State.peekWord (s : State) (req lin asid world key va t : Nat) (sup : Bool) (cache : List Nat) (line : Nat → Nat) : State × Peek :=
  if t < 4 then (s, .none)
  else
    match s.creelXlate req lin asid world va with
    | (s, .wait) => (s, .wait)
    | (s, .fault _) => (s, .none)
    | (s, .ok e) =>
      match s.fetchPlace lin va sup e with
      | .error _ => (s, .none)
      | .ok p =>
        if va / 64 = t / 64 then
          if cache.contains (p.gpa / 8) then
            let s := s.correct (line p.gpa) 4 va 1
            (s, .word (BitVec.ofNat 32 (s.readAs key (line p.gpa) 4)))
          else (s, .none)
        else
          let s := s.ensure p.gpa p.hk p.hm p.home world
          let loc := s.dataLoc p.gpa p.home
          if s.badIn loc 4 then (s, .none)
          else
            let s := s.correct loc 4 va 1
            (s, .word (BitVec.ofNat 32 (s.readAs key loc 4)))

/-- R343: the word at `t`, which a control transfer reached, counts as an extension word. -/
def State.extensionTest (s : State) (req lin asid world key t : Nat) (sup : Bool) (cache : List Nat) (line : Nat → Nat) (w : IWord) :
    State × Fetch :=
  match s.peekWord req lin asid world key (t - 4) t sup cache line with
  | (s, .word v) => if isLongWord v then (s, .trap ⟨0x01, w.setWidth 64, false⟩) else (s, .word w)
  | (s, .none) => (s, .word w)
  | (s, .wait) => (s, .wait)

/-- The strand fetch unit reads the word at an address for a slot (R48): translation, X and U, then its cache. A miss of the TLBs or of the cache
parks the slot. -/
def State.strandWord (s : State) (id va : Nat) : State × Fetch :=
  let sl := s.slot id
  let core := slotCore id
  let lin := slotLin id
  if 2 ^ 47 ≤ va then (s, .trap ⟨0x05, BitVec.ofNat 64 va, false⟩)
  else
    match s.xlate id false va with
    | (s, none) => (s.parkFetch id va, .wait)
    | (s, some e) =>
      match s.fetchPlace lin va sl.mode e with
      | .error c => (s, .trap ⟨c, BitVec.ofNat 64 va, false⟩)
      | .ok p =>
        if (s.core core).icache.contains (p.gpa / 8) then
          (s, .word (BitVec.ofNat 32 (s.readAs (s.slotKey id) (strandLoc core p.gpa) 4)))
        else if (s.creel lin).icache.contains (p.gpa / 8) then (s.waitOf id (.ifill va (s.cycle + 24)), .wait)
        else
          let (due, s) := s.laterCycle
          (s.waitOf id (.ifill va (due + 24)), .wait)

/-- A strand's instruction at an address: its first word and its extension word (R339 stage 1). -/
def State.strandFetch (s : State) (id : Nat) : State × Except Trap (Option (IWord × IWord)) :=
  let sl := s.slot id
  match s.strandWord id sl.pc with
  | (s, .wait) => (s, .ok none)
  | (s, .trap t) => (s, .error t)
  | (s, .word w) =>
    let (s, ext) : State × Except Trap (Option IWord) :=
      if isLongMajor w then
        match s.strandWord id (sl.pc + 4) with
        | (s, .word x) => (s, .ok (some x))
        | (s, .trap t) => (s, .error t)
        | (s, .wait) => (s, .ok none)
      else (s, .ok (some 0))
    match ext with
    | .error t => (s, .error t)
    | .ok none => (s, .ok none)
    | .ok (some x) =>
      if sl.xfer then
        match s.extensionTest (sweepReq id) (slotLin id) sl.asid.toNat sl.world.toNat (s.slotKey id) sl.pc sl.mode
            (s.core (slotCore id)).icache (strandLoc (slotCore id)) w with
        | (s, .trap t) => (s, .error t)
        | (s, .wait) => (s, .ok none)
        | (s, .word _) => (s, .ok (some (w, x)))
      else (s, .ok (some (w, x)))

/-- A strand's fill is due. -/
def State.fillDue (s : State) (id : Nat) : Option Nat :=
  match (s.slot id).wait with
  | .ifill va due => if due ≤ s.cycle then some va else none
  | _ => none

/-- R48: a strand instruction cache line is filled from the creel's instruction cache, which reads creel memory first on a miss. The slot fetches
again at its next turn, or raises 0x09 for an uncorrectable word (R355). -/
def execStrandFetchFill (sl : Nat) (s : State) : Host.Outcome State Fault Refusal :=
  done (match s.fillDue sl with
    | none => s
    | some va =>
      let s := s.waitOf sl .none
      match s.xlate sl false va with
      | (s, none) => s
      | (s, some e) =>
        match s.fetchPlace (slotLin sl) va (s.slot sl).mode e with
        | .error _ => s
        | .ok p =>
          let s := s.fillCreelLine (slotLin sl) p.gpa p.hk p.hm p.home (s.slot sl).world.toNat
          if (s.creel (slotLin sl)).icache.contains (p.gpa / 8) then s.fillStrandLine (slotCore sl) p.gpa
          else (s.fetchRec sl p va (s.slot sl).pc).waitOf sl (.trapping ⟨0x09, BitVec.ofNat 64 va, false⟩))

/-! ### The front end (R43 to R46, R162) -/

/-- The number under which the front end asks for walks for a weave: another one after each redirection, so that no fault of an abandoned fetch
is met later. -/
def frontReq (wv : Nat) (w : Weave) : Nat := unitReq (wv + 2 ^ 64 * w.from_)

/-- The front end reads the word at an address for a weave whose pilot is slot `id`, through the creel's TLB and instruction cache. It waits for a
walk (R76), and fills at once (log 5). -/
def State.frontWord (s : State) (wv : Nat) (w : Weave) (id va pc : Nat) : State × Fetch :=
  let lin := w.lin
  if 2 ^ 47 ≤ va then (s, .trap ⟨0x05, BitVec.ofNat 64 va, false⟩)
  else
    match s.creelXlate (frontReq wv w) lin w.asid w.world va with
    | (s, .wait) => (s, .wait)
    | (s, .fault (.cause c)) => (s, .trap ⟨c, BitVec.ofNat 64 va, false⟩)
    | (s, .fault (.bad _ _)) => (s, .trap ⟨0x09, BitVec.ofNat 64 va, false⟩)
    | (s, .ok e) =>
      match s.fetchPlace lin va (s.slot id).mode e with
      | .error c => (s, .trap ⟨c, BitVec.ofNat 64 va, false⟩)
      | .ok p =>
        let s := s.fillCreelLine lin p.gpa p.hk p.hm p.home w.world
        if (s.creel lin).icache.contains (p.gpa / 8) then
          (s, .word (BitVec.ofNat 32 (s.readAs (s.key lin w.world) (creelLoc lin p.gpa) 4)))
        else (s.fetchRec id p va pc, .trap ⟨0x09, BitVec.ofNat 64 va, false⟩)

/-- The instruction at a weave's fetch address: its first word and its extension word, or the fault of stage 1 (R339), or none while the front end
waits for a walk. -/
def State.frontFetch (s : State) (wv : Nat) (w : Weave) (id : Nat) : State × Except Trap (Option (IWord × IWord)) :=
  let t := w.fetchPc
  match s.frontWord wv w id t t with
  | (s, .trap e) => (s, .error e)
  | (s, .wait) => (s, .ok none)
  | (s, .word v) =>
    let (s, ext) : State × Fetch := if isLongMajor v then s.frontWord wv w id (t + 4) t else (s, .word 0)
    match ext with
    | .trap e => (s, .error e)
    | .wait => (s, .ok none)
    | .word x =>
      if w.xfer then
        match s.extensionTest (frontReq wv w) w.lin w.asid w.world (s.key w.lin w.world) t (s.slot id).mode (s.creel w.lin).icache
            (creelLoc w.lin) v with
        | (s, .trap e) => (s, .error e)
        | (s, .wait) => (s, .ok none)
        | (s, .word _) => (s, .ok (some (v, x)))
      else (s, .ok (some (v, x)))

/-- Where the front end goes after it has delivered a word at `t`: the context's state, the next fetch address and whether a transfer leads there
(R46, R50, R93, R162). -/
def afterDelivery (t : Nat) (w : IWord) : CtxState × Nat × Bool :=
  let op := code w 26 6
  if (0x10 ≤ op ∧ op ≤ 0x15) ∨ op = 0x18 ∨ w = 0xA0000002#32 then (.branch, t, true)
  else if op = 0x16 ∨ op = 0x17 then
    let x : Int := t + 4 * (bits w 0 26).toInt
    if x < 0 ∨ 2 ^ 47 ≤ x then (.branch, t, true) else (.run, x.toNat, true)
  else if w = 0x68000000#32 then (.hold t, t + 4, false)
  else (.run, t + wordLength w, false)

/-- The weave whose context has an index of a creel, when it is eligible (R43). -/
def State.eligible (s : State) (lin idx : Nat) : Option Nat :=
  match s.weaves.find? fun (_, w) => w.lin == lin && w.idx == idx && w.ctx with
  | none => none
  | some (wv, w) =>
    let att := s.attachedMembers wv
    if w.cstate == .run && decide (w.from_ ≤ s.cycle) && !att.isEmpty && !s.unitWaits lin (frontReq wv w) &&
        att.all fun id => decide ((s.slot id).queue.length < 32) then some wv else none

/-- The weave that a front end serves now: the first eligible context after the one it served last, once in a cycle (R43). -/
def State.nextServed (s : State) (lin : Nat) : Option (Nat × Nat) :=
  let c := s.creel lin
  if c.delivered = s.cycle + 1 then none
  else
    (List.range 16).findSome? fun k =>
      let idx := (c.served + 1 + k) % 16
      (s.eligible lin idx).map fun wv => (idx, wv)

/-- An entry joins the slack queue of every attached member (R43). -/
def State.deliver (s : State) (wv : Nat) (e : QEntry) : State :=
  (s.attachedMembers wv).foldl (fun s id => s.updSlot id fun sl => { sl with queue := sl.queue ++ [e] }) s

/-- R43: one instruction, or a fault entry (R162), is delivered. A context that must wait for a walk is passed over. -/
def execFrontEndDeliver (lin : Nat) (s : State) : Host.Outcome State Fault Refusal :=
  done (match s.nextServed lin with
    | none => s
    | some (idx, wv) =>
      match mapFind s.weaves wv, s.attachedMembers wv with
      | some w, p :: _ =>
        let serve := fun (s : State) => s.updCreel lin fun c => { c with served := idx, delivered := s.cycle + 1 }
        let t := w.fetchPc
        match s.frontFetch wv w p with
        | (s, .ok none) => s
        | (s, .error e) =>
          ((serve s).deliver wv ⟨t, 0, 0, some e, s.cycle, none⟩).updWeave wv fun w => { w with cstate := .branch }
        | (s, .ok (some (v, x))) =>
          let (st, n, xf) := afterDelivery t v
          ((serve s).deliver wv ⟨t, v, x, none, s.cycle, none⟩).updWeave wv fun w =>
            { w with cstate := st, fetchPc := n, xfer := xf }
      | _, _ => s)

end Sys2Proof.Machine
end

