-- ==== Sys2Proof/Machine/Coil.lean ====
section
/-!
DEFINITION. Coil frames (R55, R56, R58, R163): the check and capture of a frame, the stepped words, and their issue.
-/

namespace Sys2Proof.Machine

/-! ### Stepped words (R55) -/

/-- The stepped fields of a frame word by its class: the lowest bit of each and their width. None for a word outside the table. -/
def frameFields (w : IWord) : Option (Nat × List Nat) :=
  let op := code w 26 6
  let fn := code w 0 5
  if op = 0x01 ∨ op = 0x02 ∨ op = 0x03 ∨ op = 0x0B then some (7, [19, 12, 5])
  else if 0x04 ≤ op ∧ op ≤ 0x0A then some (7, [19, 12])
  else if op = 0x2A ∨ op = 0x2B ∨ op = 0x2E ∨ (op = 0x2C ∧ fn ≤ 4) then some (3, [23, 20, 17])
  else if op = 0x30 ∧ 1 ≤ fn ∧ fn ≤ 3 then some (7, [19, 12, 5])
  else none

/-- A word with each stepped field raised by k times its stride. -/
def stepWord (w : IWord) (strides : List Nat) (k : Nat) : IWord :=
  match frameFields w with
  | none => w
  | some (_, los) => BitVec.ofNat 32 ((los.zip strides).foldl (fun acc x => acc + k * x.2 * 2 ^ x.1) w.toNat)

/-- Some stepped field leaves its width within `reps` passes, or sb is nonzero with a word of format RI. -/
def stepsOut (w : IWord) (strides : List Nat) (reps : Nat) : Bool :=
  match frameFields w with
  | none => true
  | some (f, los) =>
    ((los.zip strides).any fun (lo, st) => decide (2 ^ f ≤ code w lo f + (reps - 1) * st)) ||
      (los.length == 2 && (strides.getD 2 0) != 0)

/-- A word is a valid frame word in all its stepped instances (R55). -/
def frameWordOk (w : IWord) (strides : List Nat) (reps : Nat) : Bool :=
  (frameFields w).isSome && !stepsOut w strides reps &&
    (List.range reps).all fun k =>
      match decodeWord (stepWord w strides k) 0 with
      | .ok _ => true
      | .error _ => false

/-! ### COIL (R55, R163) -/

/-- What a frame comes to: its words, a trap of the COIL, or a wait. -/
inductive Frame where
  | words (ws : List IWord)
  | trap (t : Trap)
  | wait

/-- Cause 0x16 at an address. -/
def badFrame (a : Nat) : Trap := ⟨0x16, BitVec.ofNat 64 a, false⟩

/-- The word after this one in memory is not what the front end delivers next: it delivers nothing, or goes to a jump's target (R46, R59, R162). No
such word is a frame word. -/
def endsFrame (a : Nat) (w : IWord) : Bool :=
  match afterDelivery a w with
  | (.run, t, _) => t != a + wordLength w
  | _ => true

/-- The first `n` words after the COIL in a slack queue: none while some are still to be delivered, or the fault of the first that could not be
fetched (R55, R163). A word that does not lead to the next ends them, since no more can come (log 36). A fault in the extension of a LONG whose
first word is the last of the frame is no fault of a frame word. -/
def frameEntries : Nat → List QEntry → Option (Except Trap (List (Nat × IWord)))
  | 0, _ => some (.ok [])
  | _ + 1, [] => none
  | n + 1, e :: q =>
    match e.fault with
    | some t => if n = 0 ∧ t.val.toNat = e.addr + 4 then some (.ok [(e.addr, e.word)]) else some (.error t)
    | none =>
      if endsFrame e.addr e.word then some (.ok [(e.addr, e.word)])
      else
        match frameEntries (if isLongMajor e.word then n - 1 else n) q with
        | some (.ok l) => some (.ok ((e.addr, e.word) :: l))
        | r => r

/-- The check of R55 over all the words of a frame: the first that is no frame word is refused. -/
def checkFrame (strides : List Nat) (reps : Nat) (ws : List (Nat × IWord)) : Frame :=
  match ws.find? fun x => !frameWordOk x.2 strides reps with
  | some x => .trap (badFrame x.1)
  | none => .words (ws.map (·.2))

/-- The frame of an attached member: the words after the COIL in its slack queue, checked when all have been delivered. -/
def queueFrame (strides : List Nat) (reps n : Nat) (q : List QEntry) : Frame :=
  match frameEntries n q with
  | none => .wait
  | some (.error t) => .trap t
  | some (.ok l) => checkFrame strides reps l

/-- `n` words from an address on, through a strand's fetch unit, as far as the frame of an attached member would go. `ext` tells the extension word
of a LONG. -/
def State.strandWords (s : State) (id : Nat) : Nat → Nat → Bool → State × Option (Except Trap (List (Nat × IWord)))
  | 0, _, _ => (s, some (.ok []))
  | n + 1, a, ext =>
    match s.strandWord id a with
    | (s, .trap t) => (s, some (.error t))
    | (s, .wait) => (s, none)
    | (s, .word w) =>
      if !ext && endsFrame a w then (s, some (.ok [(a, w)]))
      else
        match s.strandWords id n (a + 4) (!ext && isLongMajor w) with
        | (s, some (.ok l)) => (s, some (.ok ((a, w) :: l)))
        | r => r

/-- The frame of a strand: all its words fetched, then checked (R163). -/
def State.strandFrame (s : State) (id : Nat) (strides : List Nat) (reps n a : Nat) : State × Frame :=
  match s.strandWords id n a false with
  | (s, none) => (s, .wait)
  | (s, some (.error t)) => (s, .trap t)
  | (s, some (.ok l)) => (s, checkFrame strides reps l)

/-- R55, R163: COIL. The fields hold n - 1, reps - 1 and the strides. A frame that the slot holds suspended is seen when the COIL issues, before it
waits for any word (log 36). -/
def execCoil (n : BitVec 4) (r : BitVec 6) (sd sa sb : BitVec 5) (s : State) : Host.Outcome State Fault Refusal :=
  done (issue [] [] (fun s =>
    let sl := s.me
    let count := n.toNat + 1
    let reps := r.toNat + 1
    let strides := [sd.toNat, sa.toNat, sb.toNat]
    if sl.coil.isSome then s.trap (badFrame sl.pc)
    else
      let (s, f) : State × Frame :=
        if sl.member = .attached then (s, queueFrame strides reps count sl.queue.tail)
        else s.strandFrame s.cur strides reps count (sl.pc + 4)
      match f with
      | .wait => s
      | .trap t => s.trap t
      | .words ws =>
        s.updMe fun sl =>
          { sl.popQueue with
            coil := some ⟨ws, reps, sd.toNat, sa.toNat, sb.toNat, 0, 0, sl.pc + 4, false⟩
            pc := sl.pc + 4, wait := .none, xfer := false }) s)

/-! ### Replay (R56) -/

/-- The effect of a frame word: the instructions that R55 admits. A coil state that CREST has restored may hold another word: an EXIT, which has
its effect inside a frame (R31), or one whose issue does nothing, and so it is issued again at every turn (log 53). -/
def execFrame (i : Instr) (s : State) : Host.Outcome State Fault Refusal :=
  match i with
  | .add v0 v1 v2 => Sys2Proof.Machine.execAdd v0 v1 v2 s
  | .sub v0 v1 v2 => Sys2Proof.Machine.execSub v0 v1 v2 s
  | .and v0 v1 v2 => Sys2Proof.Machine.execAnd v0 v1 v2 s
  | .or v0 v1 v2 => Sys2Proof.Machine.execOr v0 v1 v2 s
  | .xor v0 v1 v2 => Sys2Proof.Machine.execXor v0 v1 v2 s
  | .andn v0 v1 v2 => Sys2Proof.Machine.execAndn v0 v1 v2 s
  | .sll v0 v1 v2 => Sys2Proof.Machine.execSll v0 v1 v2 s
  | .srl v0 v1 v2 => Sys2Proof.Machine.execSrl v0 v1 v2 s
  | .sra v0 v1 v2 => Sys2Proof.Machine.execSra v0 v1 v2 s
  | .rotr v0 v1 v2 => Sys2Proof.Machine.execRotr v0 v1 v2 s
  | .mins v0 v1 v2 => Sys2Proof.Machine.execMins v0 v1 v2 s
  | .maxs v0 v1 v2 => Sys2Proof.Machine.execMaxs v0 v1 v2 s
  | .minu v0 v1 v2 => Sys2Proof.Machine.execMinu v0 v1 v2 s
  | .maxu v0 v1 v2 => Sys2Proof.Machine.execMaxu v0 v1 v2 s
  | .slt v0 v1 v2 => Sys2Proof.Machine.execSlt v0 v1 v2 s
  | .sltu v0 v1 v2 => Sys2Proof.Machine.execSltu v0 v1 v2 s
  | .seq v0 v1 v2 => Sys2Proof.Machine.execSeq v0 v1 v2 s
  | .sne v0 v1 v2 => Sys2Proof.Machine.execSne v0 v1 v2 s
  | .addw v0 v1 v2 => Sys2Proof.Machine.execAddw v0 v1 v2 s
  | .subw v0 v1 v2 => Sys2Proof.Machine.execSubw v0 v1 v2 s
  | .sllw v0 v1 v2 => Sys2Proof.Machine.execSllw v0 v1 v2 s
  | .srlw v0 v1 v2 => Sys2Proof.Machine.execSrlw v0 v1 v2 s
  | .sraw v0 v1 v2 => Sys2Proof.Machine.execSraw v0 v1 v2 s
  | .sel v0 v1 v2 => Sys2Proof.Machine.execSel v0 v1 v2 s
  | .mul v0 v1 v2 => Sys2Proof.Machine.execMul v0 v1 v2 s
  | .mulh v0 v1 v2 => Sys2Proof.Machine.execMulh v0 v1 v2 s
  | .mulhu v0 v1 v2 => Sys2Proof.Machine.execMulhu v0 v1 v2 s
  | .mulw v0 v1 v2 => Sys2Proof.Machine.execMulw v0 v1 v2 s
  | .mad v0 v1 v2 => Sys2Proof.Machine.execMad v0 v1 v2 s
  | .div v0 v1 v2 => Sys2Proof.Machine.execDiv v0 v1 v2 s
  | .divu v0 v1 v2 => Sys2Proof.Machine.execDivu v0 v1 v2 s
  | .rem v0 v1 v2 => Sys2Proof.Machine.execRem v0 v1 v2 s
  | .remu v0 v1 v2 => Sys2Proof.Machine.execRemu v0 v1 v2 s
  | .divw v0 v1 v2 => Sys2Proof.Machine.execDivw v0 v1 v2 s
  | .remw v0 v1 v2 => Sys2Proof.Machine.execRemw v0 v1 v2 s
  | .clz v0 v1 => Sys2Proof.Machine.execClz v0 v1 s
  | .ctz v0 v1 => Sys2Proof.Machine.execCtz v0 v1 s
  | .popc v0 v1 => Sys2Proof.Machine.execPopc v0 v1 s
  | .brev v0 v1 => Sys2Proof.Machine.execBrev v0 v1 s
  | .bswap v0 v1 => Sys2Proof.Machine.execBswap v0 v1 s
  | .bfx v0 v1 v2 => Sys2Proof.Machine.execBfx v0 v1 v2 s
  | .bfxu v0 v1 v2 => Sys2Proof.Machine.execBfxu v0 v1 v2 s
  | .bfi v0 v1 v2 => Sys2Proof.Machine.execBfi v0 v1 v2 s
  | .sext v0 v1 v2 => Sys2Proof.Machine.execSext v0 v1 v2 s
  | .addi v0 v1 v2 => Sys2Proof.Machine.execAddi v0 v1 v2 s
  | .andi v0 v1 v2 => Sys2Proof.Machine.execAndi v0 v1 v2 s
  | .ori v0 v1 v2 => Sys2Proof.Machine.execOri v0 v1 v2 s
  | .xori v0 v1 v2 => Sys2Proof.Machine.execXori v0 v1 v2 s
  | .slti v0 v1 v2 => Sys2Proof.Machine.execSlti v0 v1 v2 s
  | .sltiu v0 v1 v2 => Sys2Proof.Machine.execSltiu v0 v1 v2 s
  | .slli v0 v1 v2 => Sys2Proof.Machine.execSlli v0 v1 v2 s
  | .srli v0 v1 v2 => Sys2Proof.Machine.execSrli v0 v1 v2 s
  | .srai v0 v1 v2 => Sys2Proof.Machine.execSrai v0 v1 v2 s
  | .rotri v0 v1 v2 => Sys2Proof.Machine.execRotri v0 v1 v2 s
  | .lea v0 v1 v2 v3 => Sys2Proof.Machine.execLea v0 v1 v2 v3 s
  | .vadd v0 v1 v2 v3 v4 v5 => Sys2Proof.Machine.execVadd v0 v1 v2 v3 v4 v5 s
  | .vsub v0 v1 v2 v3 v4 v5 => Sys2Proof.Machine.execVsub v0 v1 v2 v3 v4 v5 s
  | .vmul v0 v1 v2 v3 v4 v5 => Sys2Proof.Machine.execVmul v0 v1 v2 v3 v4 v5 s
  | .vfma v0 v1 v2 v3 v4 v5 v6 => Sys2Proof.Machine.execVfma v0 v1 v2 v3 v4 v5 v6 s
  | .vmin v0 v1 v2 v3 v4 => Sys2Proof.Machine.execVmin v0 v1 v2 v3 v4 s
  | .vmax v0 v1 v2 v3 v4 => Sys2Proof.Machine.execVmax v0 v1 v2 v3 v4 s
  | .vabs v0 v1 v2 v3 => Sys2Proof.Machine.execVabs v0 v1 v2 v3 s
  | .vneg v0 v1 v2 v3 => Sys2Proof.Machine.execVneg v0 v1 v2 v3 s
  | .vcmpeq v0 v1 v2 v3 v4 => Sys2Proof.Machine.execVcmpeq v0 v1 v2 v3 v4 s
  | .vcmplt v0 v1 v2 v3 v4 => Sys2Proof.Machine.execVcmplt v0 v1 v2 v3 v4 s
  | .vcmple v0 v1 v2 v3 v4 => Sys2Proof.Machine.execVcmple v0 v1 v2 v3 v4 s
  | .vsel v0 v1 v2 v3 v4 v5 => Sys2Proof.Machine.execVsel v0 v1 v2 v3 v4 v5 s
  | .vdiv v0 v1 v2 v3 v4 v5 => Sys2Proof.Machine.execVdiv v0 v1 v2 v3 v4 v5 s
  | .vsqrt v0 v1 v2 v3 v4 => Sys2Proof.Machine.execVsqrt v0 v1 v2 v3 v4 s
  | .vfms v0 v1 v2 v3 v4 v5 v6 => Sys2Proof.Machine.execVfms v0 v1 v2 v3 v4 v5 v6 s
  | .viadd v0 v1 v2 v3 v4 => Sys2Proof.Machine.execViadd v0 v1 v2 v3 v4 s
  | .visub v0 v1 v2 v3 v4 => Sys2Proof.Machine.execVisub v0 v1 v2 v3 v4 s
  | .vimul v0 v1 v2 v3 v4 => Sys2Proof.Machine.execVimul v0 v1 v2 v3 v4 s
  | .vimad v0 v1 v2 v3 v4 v5 => Sys2Proof.Machine.execVimad v0 v1 v2 v3 v4 v5 s
  | .vand v0 v1 v2 v3 v4 => Sys2Proof.Machine.execVand v0 v1 v2 v3 v4 s
  | .vor v0 v1 v2 v3 v4 => Sys2Proof.Machine.execVor v0 v1 v2 v3 v4 s
  | .vxor v0 v1 v2 v3 v4 => Sys2Proof.Machine.execVxor v0 v1 v2 v3 v4 s
  | .vshl v0 v1 v2 v3 v4 => Sys2Proof.Machine.execVshl v0 v1 v2 v3 v4 s
  | .vshr v0 v1 v2 v3 v4 => Sys2Proof.Machine.execVshr v0 v1 v2 v3 v4 s
  | .vsra v0 v1 v2 v3 v4 => Sys2Proof.Machine.execVsra v0 v1 v2 v3 v4 s
  | .vimin v0 v1 v2 v3 v4 => Sys2Proof.Machine.execVimin v0 v1 v2 v3 v4 s
  | .vimax v0 v1 v2 v3 v4 => Sys2Proof.Machine.execVimax v0 v1 v2 v3 v4 s
  | .vicmpeq v0 v1 v2 v3 v4 => Sys2Proof.Machine.execVicmpeq v0 v1 v2 v3 v4 s
  | .vicmplt v0 v1 v2 v3 v4 => Sys2Proof.Machine.execVicmplt v0 v1 v2 v3 v4 s
  | .vidot4 v0 v1 v2 v3 v4 => Sys2Proof.Machine.execVidot4 v0 v1 v2 v3 v4 s
  | .vcvt v0 v1 v2 v3 v4 v5 v6 => Sys2Proof.Machine.execVcvt v0 v1 v2 v3 v4 v5 v6 s
  | .vdec v0 v1 v2 v3 v4 => Sys2Proof.Machine.execVdec v0 v1 v2 v3 v4 s
  | .venc v0 v1 v2 v3 v4 v5 => Sys2Proof.Machine.execVenc v0 v1 v2 v3 v4 v5 s
  | .vscl v0 v1 v2 v3 v4 v5 => Sys2Proof.Machine.execVscl v0 v1 v2 v3 v4 v5 s
  | .vqnt v0 v1 v2 v3 v4 v5 v6 => Sys2Proof.Machine.execVqnt v0 v1 v2 v3 v4 v5 v6 s
  | .vexp2 v0 v1 v2 v3 v4 => Sys2Proof.Machine.execVexp2 v0 v1 v2 v3 v4 s
  | .vlog2 v0 v1 v2 v3 v4 => Sys2Proof.Machine.execVlog2 v0 v1 v2 v3 v4 s
  | .vrcp v0 v1 v2 v3 v4 => Sys2Proof.Machine.execVrcp v0 v1 v2 v3 v4 s
  | .vrsq v0 v1 v2 v3 v4 => Sys2Proof.Machine.execVrsq v0 v1 v2 v3 v4 s
  | .vexp v0 v1 v2 v3 v4 => Sys2Proof.Machine.execVexp v0 v1 v2 v3 v4 s
  | .mzero v0 => Sys2Proof.Machine.execMzero v0 s
  | .mma v0 v1 v2 => Sys2Proof.Machine.execMma v0 v1 v2 s
  | .mmas v0 v1 v2 => Sys2Proof.Machine.execMmas v0 v1 v2 s
  | .exit => Sys2Proof.Machine.execExit s
  | _ => done s

/-- The frame that the slot replays, and its word of the next issue; none for a restored position past the last word (log 53). -/
def Slot.replay (sl : Slot) : Option IWord :=
  match sl.coil with
  | some c =>
    if c.suspended then none else (nth c.words c.i).map fun w => stepWord w [c.sd, c.sa, c.sb] c.k
  | none => none

/-- R56: the slot whose turn it is issues the next stepped word of its frame. -/
def execCoilReplayIssue (sl : Nat) (s : State) : Host.Outcome State Fault Refusal :=
  if sl = s.cur ∧ s.me.wait.boundary then
    match s.me.replay with
    | some w => execFrame (decodeOrIllegal w 0) s
    | none => done s
  else done s

end Sys2Proof.Machine
end

