-- ==== Sys2Proof/Machine/Link.lean ====
section
/-!
DEFINITION. Cerern ports: streams, keys and rotation (R303 to R305, R385, R386), retry (R363 to R367), lanes (R368, R369), and the loss of a
module (R360 to R362).

Port p of module m has number 32 × m + p. Requests, data and watch traffic travel apart from the flits, when a path is open (log 13): the flits
that this model sends by itself are link control and idle flits.
-/

namespace Sys2Proof.Machine

/-! ### Ports -/

def State.updLink (s : State) (port : Nat) (f : Port → Port) : State :=
  s.updModule (port / 32) fun x => { x with ports := mapPut x.ports (port % 32) (f (mapGet x.ports Port.initial (port % 32))) }

/-- A record of a port (R367, R370): source 0x0A, class 0x6, in creel 0's log (R334). DETAIL names the port, its failed lanes and a SEQ. -/
def State.linkRec (s : State) (port code seq : Nat) : State :=
  let p := s.link port
  s.pushRec (128 * (port / 32)) 0x0A 0 0 0
    (recWords false 0x6 0x0A code 0 0 0 0 0 0 0 0 0 (port % 32 * 2 ^ 24 + p.fail.toNat * 2 ^ 16 + seq % 2 ^ 16) 0 0)

/-- The port at the other end of a port's link; an unwired port stands for its own (log 13). -/
def State.peer (s : State) (port : Nat) : Nat :=
  match s.links.find? fun (a, b) => a == port || b == port with
  | some (a, b) => if a = port then b else a
  | none => port

/-! ### Keys (R304, R305, R386) -/

/-- The key in KPEND. -/
def Port.pendingKey (p : Port) : BitVec 256 :=
  BitVec.ofNat 256 ((List.range 4).foldr (fun i acc => (mapGet p.kpend 0 i).toNat + 2 ^ 64 * acc) 0)

/-- R386: every flit of the generation before this one has been acknowledged. -/
def Port.mayRotate (p : Port) : Bool := p.pv && p.window.all fun f => f.gen == p.gen.toNat

/-- R305: the transmitter adopts KPEND. -/
def Port.rotate (p : Port) : Port :=
  { p with key := p.pendingKey, gen := p.gen + 1, ctr := 0, warned := false, par := !p.par, pv := false, rot := false, stop := false }

/-- A rotation that was asked for takes place as soon as it may: on ROT, at the counter's limit, or for a stopped stream. -/
def Port.tryRotate (p : Port) : Port :=
  if p.mayRotate && (p.rot || p.stop || decide (2 ^ 64 - 2 ^ 16 ≤ p.ctr)) then p.rotate else p

/-! ### Sending (R303, R304, R363, R365) -/

/-- The 96-bit IV of a flit: the stream number of a port and a key generation, then the counter (R304). -/
def flitIv (port gen ctr : Nat) : Nat := ((port / 32 * 2 ^ 20 + port % 32 * 2 ^ 15 + gen) % 2 ^ 32) * 2 ^ 64 + ctr

/-- The 256 bytes of the next flit of a stream: header with SEQ, ACK, TYPE and K, encrypted payload and tag, CRC (R303). -/
def Port.image (p : Port) (port ty pay : Nat) : Nat :=
  let hdr := p.ctr % 2 ^ 16 * 2 ^ 48 + p.last * 2 ^ 32 + ty % 16 * 2 ^ 28 + p.par.toNat * 2 ^ 27
  let k := hdr + 2 ^ 64 * (Config.linkSeal p.key (flitIv port p.gen.toNat p.ctr) hdr pay).toNat
  k + 2 ^ 2016 * (Config.crc32 k).toNat

/-- Word i of a link-control payload, and its OP (R366). -/
def controlWord (k i : Nat) : Nat := k / 2 ^ (64 * i) % 2 ^ 64
def controlOp (k : Nat) : Nat := nbits (controlWord k 0) 7 0

/-- The stream may send a new flit: it is not stopped and has not come to its limit without a key (R305), its port carries flits, its window has room,
and no replay that is asked for stands ahead of it (R365). -/
def Port.maySend (p : Port) : Bool :=
  p.sends && decide (p.window.length < 512 ∧ p.ctr < 2 ^ 64 ∧ (p.pv = true ∨ p.ctr < 2 ^ 64 - 2 ^ 16)) &&
    p.control.all fun k => controlOp k != 1

/-- A new flit is sent under the next counter and kept in the window. -/
def Port.sendNew (p : Port) (port cycle ty pay : Nat) : Port :=
  let k := p.image port ty pay
  { p with
    window := p.window ++ [⟨p.ctr, p.gen.toNat, ty, pay, k, 0⟩], wire := k :: p.wire, ctr := p.ctr + 1, up := true
    acked := if p.window.isEmpty then cycle else p.acked }

/-- The oldest unsent flits go out while the stream may send. -/
def Port.sendN (p : Port) (port cycle : Nat) : Nat → Port
  | 0 => p
  | n + 1 =>
    match p.unsent with
    | [] => p
    | (ty, pay) :: rest =>
      if p.maySend then Port.sendN ({ p with unsent := rest }.sendNew port cycle ty pay) port cycle n else p
def Port.flush (p : Port) (port cycle : Nat) : Port := p.tryRotate.sendN port cycle 512

/-- Link-control flits (R366). -/
def Port.sendControls (p : Port) (port cycle : Nat) (l : List Nat) : Port :=
  { p with unsent := p.unsent ++ l.map fun k => (6, k) }.flush port cycle

/-- An idle flit, which carries ACK when nothing else does (R363). -/
def Port.sendIdle (p : Port) (port cycle : Nat) : Port :=
  if p.unsent.isEmpty && p.maySend then p.sendNew port cycle 0 0 else p

/-- What a stream holds for the fabric: requests, data and watch traffic. Link control and idle flits concern their own link (log 13). -/
def trafficOf (l : List (Nat × Nat)) : List (Nat × Nat) := l.filter fun (ty, _) => decide (1 ≤ ty ∧ ty ≤ 5)

/-- Another port of the module to the same neighbour that has lanes (R367, R385): one that sends, else one that retrains, else one that waits for a
key. -/
def State.otherPort (s : State) (port : Nat) : Option Nat :=
  let l := ((List.range 32).map (port / 32 * 32 + ·)).filter fun q =>
    q != port && s.peer q != q && s.peer port != port && s.peer q / 32 == s.peer port / 32 &&
      ((s.link q).width != 0 || (s.link q).retrainAt != 0)
  ((l.find? fun q => (s.link q).sends).or (l.find? fun q => !(s.link q).stop)).or l.head?

/-- The fabric sends flits over another port to the same neighbour, as new flits of its stream (R367). -/
def State.reroute (s : State) (port : Nat) (l : List (Nat × Nat)) : State :=
  match s.otherPort port with
  | some q => if l.isEmpty then s else s.updLink q fun p => { p with unsent := p.unsent ++ l }.flush q s.cycle
  | none => s

/-- R367, R368: the port goes down. What its window and queue held for the fabric goes over another port. -/
def State.portDown (s : State) (port seq : Nat) : State :=
  let p := s.link port
  let l := trafficOf (p.window.map (fun f => (f.type_, f.payload)) ++ p.unsent)
  ((s.updLink port fun p => { p with width := 0, newWidth := 0, retrainAt := 0, up := false, window := [], unsent := [] }).linkRec
    port 0x04 seq).reroute port l

/-- R365, R367: flits of the window are resent bit for bit; an eighth time without an acknowledgement takes the port down. -/
def State.resend (s : State) (port : Nat) (which : Flit → Bool) : State :=
  let p := s.link port
  let out := p.window.filter which
  let win := p.window.map fun f => if which f then { f with resent := f.resent + 1 } else f
  let s := s.updLink port fun p =>
    { p with window := win, wire := (out.map (·.image)).reverse ++ p.wire
             rpl := BitVec.ofNat 32 (min (p.rpl.toNat + out.length) (2 ^ 32 - 1)) }
  match win.find? fun f => which f && decide (8 ≤ f.resent) with
  | some f => s.portDown port f.ctr
  | none => s

/-! ### Replay requests (R365, R366) -/

/-- The missing ranges before the flits that are held: first counter and count. -/
def missingRanges (expect : Nat) : List Nat → List (Nat × Nat)
  | [] => []
  | c :: r => if expect < c then (expect, c - expect) :: missingRanges (c + 1) r else missingRanges (c + 1) r

/-- The payload of a replay request: word 0 OP and NR, then FIRST and COUNT of at most 16 ranges (R366). -/
def replayPayload (rs : List (Nat × Nat)) : Nat :=
  let rs := rs.take 16
  1 + rs.length * 2 ^ 8 +
    ((List.range rs.length).zip rs).foldl (fun acc (i, f, n) => acc + (f % 2 ^ 16 * 2 ^ 16 + n) * 2 ^ (64 * (i + 1))) 0

/-- The replay requests that name every one of some missing ranges, 16 each. -/
def replayPayloads : Nat → List (Nat × Nat) → List Nat
  | 0, _ => []
  | n + 1, rs => if rs.isEmpty then [] else replayPayload rs :: replayPayloads n (rs.drop 16)

/-- A replay request for some ranges is sent (R365). -/
def Port.request (p : Port) (port cycle : Nat) (rs : List (Nat × Nat)) : Port :=
  p.sendControls port cycle (replayPayloads rs.length rs)

/-- The missing ranges among `n` counters from `first` on: neither delivered nor held. -/
def Port.lacks (p : Port) (first n : Nat) : List (Nat × Nat) :=
  missingRanges (max first p.expect) ((p.held.map (·.1)).filter (fun c => decide (first ≤ c ∧ c < first + n)) ++ [first + n])

/-- A gap is found: it is asked for at once (R365). -/
def State.noteGap (s : State) (port first n : Nat) : State :=
  s.updLink port fun p =>
    let rs := p.lacks first n
    let p := { p with known := max p.known (first + n) }
    if rs.isEmpty then p else { p with asks := p.asks ++ [(first, n, s.cycle)] }.request port s.cycle rs

/-- A flit that fails its CRC or its tag counts as the one after the highest counter known to be sent (R364; log 38). -/
def State.noteLost (s : State) (port : Nat) : State := s.noteGap port (max (s.link port).known (s.link port).expect) 1

/-! ### Receiving (R364) -/

/-- The counter that a SEQ stands for, within 512 of the next one expected (R363). -/
def extendSeq (expect seq : Nat) : Option Nat :=
  let d := (seq + 2 ^ 16 - expect % 2 ^ 16) % 2 ^ 16
  if d < 512 then some (expect + d)
  else if 2 ^ 16 - 512 ≤ d ∧ 2 ^ 16 - d ≤ expect then some (expect - (2 ^ 16 - d))
  else none

/-- A flit is delivered in its order: link control goes to the port's own logic (R366). -/
def Port.deliver (p : Port) (c ty pay : Nat) : Port :=
  { p with expect := c + 1, last := c % 2 ^ 16, known := max p.known (c + 1), control := if ty = 6 then p.control ++ [pay] else p.control }

/-- Gaps that are filled are closed. -/
def Port.closeGaps (p : Port) : Port := { p with asks := p.asks.filter fun (f, k, _) => !(p.lacks f k).isEmpty }

/-- Held flits that follow on are delivered (R364). -/
def Port.drain (p : Port) : Nat → Port
  | 0 => p
  | n + 1 =>
    match mapFind p.held p.expect with
    | some (ty, pay) => Port.drain ({ p with held := mapDel p.held p.expect }.deliver p.expect ty pay) n
    | none => p.closeGaps

/-- The receiver goes on to the next key generation (R305; log 13). -/
def Port.turnOver (p : Port) : Port :=
  { p with rgen := p.rgen + 1, rpar := !p.rpar, rkey := p.rpend, rother := p.rkey, rnext := false, oexpect := p.expect, expect := 0, known := 0
           asks := []
           held := (p.held.filter fun (c, _) => decide (2 ^ 64 ≤ c)).map fun (c, x) => (c - 2 ^ 64, x) }

/-- The generation that is being received has no gap, and flits of the next one are held. -/
def Port.turns (p : Port) : Bool := p.rnext && p.asks.isEmpty && !p.held.isEmpty && p.held.all fun (c, _) => decide (2 ^ 64 ≤ c)

/-- ACK acknowledges the flit of that SEQ in the window and every earlier one (R363). The same ACK again acknowledges nothing: after a rotation its SEQ
may name a flit of the new generation (log 38). -/
def Port.takeAck (p : Port) (ack cycle : Nat) : Port :=
  if ack = p.ackSeq then p
  else
    match p.window.find? fun f => f.ctr % 2 ^ 16 == ack with
    | none => p
    | some f =>
      let rest := (p.window.dropWhile fun g => !(g.ctr == f.ctr && g.gen == f.gen)).drop 1
      { p with window := rest, acked := cycle, ackSeq := ack }

/-- The fields of a flit (R303): its header, and whether its CRC passes. -/
def flitSeq (k : Nat) : Nat := nbits k 63 48
def flitAck (k : Nat) : Nat := nbits k 47 32
def flitType (k : Nat) : Nat := nbits k 31 28
def flitPar (k : Nat) : Bool := k.testBit 27
def flitCrcOk (k : Nat) : Bool := (Config.crc32 (k % 2 ^ 2016)).toNat == nbits k 2047 2016

/-- R303: a flit of an unknown type is discarded and logged, under a code that no rule gives (log 2). -/
def State.unknownType (s : State) (port seq : Nat) : State :=
  let (n, s) := s.draw
  s.linkRec port (n % 256) seq

/-- What every flit that passes does: the port is up, and the ACK of the latest one so far is taken. A flit that is resent carries the ACK of its first
sending. -/
def State.takeFlit (s : State) (port k : Nat) (latest : Bool) : State :=
  s.updLink port fun p => let p := { p with up := true }; if latest then p.takeAck (flitAck k) s.cycle else p

/-- What goes out after a flit is taken: the oldest unsent flits, or an idle flit with the ACK. -/
def Port.answer (p : Port) (port cycle : Nat) : Port := (p.flush port cycle).sendIdle port cycle

/-- What is missing before the last flit that is held is asked for. -/
def State.askHeld (s : State) (port : Nat) : State :=
  let p := s.link port
  let first := max p.known p.expect
  match p.held.getLast? with
  | some (c, _) => if first ≤ c then s.noteGap port first (c + 1 - first) else s
  | none => s

/-- The next generation follows as soon as nothing of this one is missing; what it lacks is asked for. -/
def State.nextGeneration (s : State) (port : Nat) : State :=
  if (s.link port).turns then (s.updLink port fun p => p.turnOver.drain 513).askHeld port else s

/-- A flit whose CRC and tag pass takes its place in the order of counters. One of an unknown type is discarded (R303). -/
def State.orderFlit (s : State) (port k c pay : Nat) (latest : Bool) : State :=
  let ty := flitType k
  if 6 < ty then s.unknownType port c
  else
    let s := s.takeFlit port k latest
    let p := s.link port
    let s :=
      if c < p.expect then s
      else if c = p.expect then (s.updLink port fun p => (p.deliver c ty pay).drain 513).nextGeneration port
      else
        let s := s.updLink port fun p => if p.held.length < 512 then { p with held := mapPut p.held c (ty, pay) } else p
        let from_ := max p.known p.expect
        if from_ < c then (s.noteGap port from_ (c - from_)).updLink port fun p => { p with known := max p.known (c + 1) }
        else s.updLink port (·.closeGaps)
    s.updLink port fun p => p.answer port s.cycle

/-- A flit of the next key generation: it is the first of it, or waits while the one before has a gap (R305, R364; log 13). A flit that failed may
have been counted as one more of the generation before. The receiver knows better when a flit of the next one is resent, which it did not ask for: then
its sender has nothing older unacknowledged (R365; log 38). -/
def State.nextFlit (s : State) (port k c pay : Nat) : State :=
  let p := s.link port
  let again := p.held.any fun (d, _) => decide (2 ^ 64 + c ≤ d)
  if (p.asks.isEmpty || again) && p.held.all fun (d, _) => decide (2 ^ 64 ≤ d) then
    ((s.updLink port (·.turnOver)).orderFlit port k c pay !again).askHeld port
  else if 6 < flitType k then s.unknownType port c
  else
    (s.takeFlit port k !again).updLink port fun p =>
      (if p.held.length < 512 then { p with held := mapPut p.held (2 ^ 64 + c) (flitType k, pay) } else p).answer port s.cycle

/-- The counter and the payload of a flit that a key opens, of generation `gen` and near counter `base` (R304, R363). -/
def openFlit (peer : Nat) (key : BitVec 256) (gen : BitVec 15) (base k : Nat) : Option (Nat × Nat) :=
  (extendSeq base (flitSeq k)).bind fun c => (Config.linkOpen key (flitIv peer gen.toNat c) k).map fun pay => (c, pay.toNat)

/-- A flit of the other parity that the receiver can open: of the next generation, or of the one before (R305, R386). -/
def Port.openNext (p : Port) (peer k : Nat) : Option (Nat × Nat) := if p.rnext then openFlit peer p.rpend (p.rgen + 1) 0 k else none
def Port.openOld (p : Port) (peer k : Nat) : Option (Nat × Nat) :=
  if p.rgen = 0 then none else openFlit peer p.rother (p.rgen - 1) p.oexpect k

/-- R363, R364: a flit arrives. One that fails its CRC or its tag is discarded, as is one whose SEQ no counter of a generation held explains, which no
key can open (R386). K selects the key: the generation being received, or another one that the receiver holds, which is the next or the one before
(R305). A flit of the one before was delivered already (log 13). -/
def execFlitArrival (port k : Nat) (s : State) : Host.Outcome State Fault Refusal :=
  done (
    let p := s.link port
    if !p.carries then s
    else if !flitCrcOk k then
      (s.updLink port fun p => { p with crce := BitVec.ofNat 16 (min (p.crce.toNat + 1) 0xFFFF) }).noteLost port
    else
      let peer := s.peer port
      let failed := (s.linkRec port 0x02 (flitSeq k)).noteLost port
      if flitPar k = p.rpar then
        match openFlit peer p.rkey p.rgen p.expect k with
        | some (c, pay) => s.orderFlit port k c pay (decide (p.known ≤ c))
        | none => failed
      else
        match p.openNext peer k with
        | some (c, pay) => s.nextFlit port k c pay
        | none =>
          match p.openOld peer k with
          | some (c, _) =>
            if 6 < flitType k then s.unknownType port c
            else (s.takeFlit port k false).updLink port fun p => p.answer port s.cycle
          | none => failed)

/-! ### Link control (R365, R366) -/

/-- A flit lies in a range that a replay request names. -/
def inRanges (k : Nat) (f : Flit) : Bool :=
  (List.range (min 16 (nbits (controlWord k 0) 12 8))).any fun i =>
    let w := controlWord k (i + 1)
    decide ((f.ctr + 2 ^ 16 - nbits w 31 16) % 2 ^ 16 < nbits w 9 0)

/-- A flit of the window that a request names: where flits of two generations have its SEQ, the older one, which alone may be missing (log 38). -/
def Port.names (p : Port) (k : Nat) (f : Flit) : Bool :=
  inRanges k f && (p.window.find? fun g => g.ctr % 2 ^ 16 == f.ctr % 2 ^ 16) == some f

/-- A link-control payload that has been delivered is taken up. -/
def State.dropControl (s : State) (port k : Nat) : State :=
  s.updLink port fun p => { p with control := p.control.erase k }

/-- R365: the sender resends the flits that a request names, and goes on with new ones. -/
def execReplayRequest (port k : Nat) (s : State) : Host.Outcome State Fault Refusal :=
  done (if (s.link port).control.contains k && controlOp k == 1 then
      ((s.dropControl port k).resend port ((s.link port).names k)).updLink port fun p => p.answer port s.cycle
    else s)

/-- The width that a delivered notice names. -/
def Port.notice (p : Port) (width : Nat) : Option Nat :=
  p.control.find? fun k => controlOp k == 2 && nbits (controlWord k 1) 1 0 == width

/-- R366: the peer's new width. -/
def execWidthNotice (port width : Nat) (s : State) : Host.Outcome State Fault Refusal :=
  done (match (s.link port).notice width with
    | some k => (s.dropControl port k).updLink port fun p => { p with peerWidth := BitVec.ofNat 2 width }
    | none => s)

/-- A gap is still open 4,096 cycles after its request (R365). -/
def State.repeatDue (s : State) (port : Nat) : Bool :=
  let p := s.link port
  p.carries && p.asks.any fun (_, _, t) => decide (t + 4096 ≤ s.cycle)

/-- Every gap whose request is that old is asked for again. -/
def execReplayRequestRepeat (port : Nat) (s : State) : Host.Outcome State Fault Refusal :=
  done (if s.repeatDue port then
      s.updLink port fun p =>
        let old : List (Nat × Nat × Nat) := p.asks.filter fun g => decide (g.2.2 + 4096 ≤ s.cycle)
        let asks : List (Nat × Nat × Nat) := p.asks.map fun g => (g.1, g.2.1, if g.2.2 + 4096 ≤ s.cycle then s.cycle else g.2.2)
        { p with asks := asks }.request port s.cycle (old.flatMap fun (g : Nat × Nat × Nat) => p.lacks g.1 g.2.1)
    else s)

/-- ACK has not advanced for 16,384 cycles while the window holds flits (R365). -/
def State.ackDue (s : State) (port : Nat) : Bool :=
  let p := s.link port
  p.carries && !p.window.isEmpty && decide (p.acked + 16384 ≤ s.cycle)

def execAckTimeoutResend (port : Nat) (s : State) : Host.Outcome State Fault Refusal :=
  done (if s.ackDue port then
      let first := (s.link port).window.head?
      (s.updLink port fun p => { p with acked := s.cycle }).resend port fun f =>
        match first with
        | some g => f.ctr == g.ctr && f.gen == g.gen
        | none => false
    else s)

/-! ### Keys: register writes and limits (R305, R385) -/

/-- R305: KPEND; its fourth word sets PV, gives the receiver the key of the next generation (log 13), and a stopped stream rotates and sends on. -/
def State.writeKpend (s : State) (port word : Nat) (v : BitVec 64) : State :=
  s.updLink port fun p =>
    let p := { p with kpend := mapPut p.kpend (word % 4) v }
    if word % 4 = 3 then { p with pv := true, rpend := p.pendingKey, rnext := true }.flush port s.cycle else p

def execKpendWrite (port word : Nat) (v : BitVec 64) (s : State) : Host.Outcome State Fault Refusal := done (s.writeKpend port word v)

/-- R305, R386: ROT is written with PV = 1: the rotation takes place now or when it may. -/
def execKctlRotWrite (port : Nat) (s : State) : Host.Outcome State Fault Refusal :=
  done (s.updLink port fun p => if p.pv then { p with rot := true }.flush port s.cycle else p)

/-- R385: the warning is due. -/
def State.ivWarns (s : State) (port : Nat) : Bool :=
  let p := s.link port
  decide (2 ^ 64 - 2 ^ 32 ≤ p.ctr) && !p.pv && !p.warned

def execIvExhaustionWarning (port : Nat) (s : State) : Host.Outcome State Fault Refusal :=
  done (if s.ivWarns port then
      (s.updLink port fun p => { p with warned := true }).linkRec port 0x06 (s.link port).ctr
    else s)

/-- R305, R385: the counter has reached its limit: there is a key to adopt, or the stream stops, and what it has not sent for the fabric goes over
another port. -/
def State.ivLimit (s : State) (port : Nat) : Bool :=
  let p := s.link port
  decide (2 ^ 64 - 2 ^ 16 ≤ p.ctr) && !p.stop && (p.mayRotate || !p.pv)

def execIvLimitReached (port : Nat) (s : State) : Host.Outcome State Fault Refusal :=
  done (if s.ivLimit port then
      if (s.link port).pv then s.updLink port fun p => p.rotate.flush port s.cycle
      else
        let l := trafficOf (s.link port).unsent
        let s := (s.updLink port fun p => { p with stop := true }).linkRec port 0x05 (s.link port).ctr
        if (s.otherPort port).isNone then s
        else (s.updLink port fun p => { p with unsent := p.unsent.filter fun x => !l.contains x }).reroute port l
    else s)

/-! ### Lanes (R368, R369) -/

/-- The width that the lanes without a failure allow: eight, or the half without one, or none. -/
def laneWidth (fail : Nat) : BitVec 2 :=
  if fail = 0 then 3 else if fail % 16 = 0 then 1 else if fail / 16 = 0 then 2 else 0

/-- The port retrains to a width within 2^18 cycles, or goes down. -/
def State.retrain (s : State) (port : Nat) (w : BitVec 2) : State :=
  if w = 0 then s.portDown port (s.link port).ctr
  else
    let (n, s) := s.draw
    s.updLink port fun p => { p with newWidth := w, retrainAt := s.cycle + 1 + n % 2 ^ 18, up := false }

/-- R368: a lane fails. The port degrades to the half without a failing lane. -/
def execLaneFailure (port lane : Nat) (s : State) : Host.Outcome State Fault Refusal :=
  done (
    let p := s.link port
    if p.width = 0 then s
    else
      let s := s.updLink port fun p => { p with fail := p.fail ||| BitVec.ofNat 8 (2 ^ (lane % 8)) }
      let half : BitVec 2 := if 4 ≤ lane % 8 then 1 else 2
      let w := if p.newWidth = 3 then half else if p.newWidth = half then half else 0
      if w = p.newWidth then s
      else if w = 0 then s.portDown port p.ctr
      else (s.linkRec port 0x03 p.ctr).retrain port w)

/-- R369: RETRAIN. -/
def State.startRetrain (s : State) (port : Nat) : State := s.retrain port (laneWidth (s.link port).fail.toNat)
def execLstatRetrain (port : Nat) (s : State) : Host.Outcome State Fault Refusal := done (s.startRetrain port)

/-- R369: FAIL bits cleared. -/
def State.clearFails (s : State) (port n : Nat) : State :=
  s.updLink port fun p => { p with fail := p.fail &&& ~~~(BitVec.ofNat 8 (n / 2 ^ 8)) }
def execLstatFailClear (port : Nat) (v : BitVec 64) (s : State) : Host.Outcome State Fault Refusal := done (s.clearFails port v.toNat)

def State.retrainDone (s : State) (port : Nat) : Bool :=
  let p := s.link port
  p.retrainAt != 0 && decide (p.retrainAt ≤ s.cycle)

/-- R366, R368: the port is back: it replays its window, and tells its peer a new width. -/
def execPortRetrainComplete (port : Nat) (s : State) : Host.Outcome State Fault Refusal :=
  done (if s.retrainDone port then
      let p := s.link port
      let s := s.updLink port fun p => { p with width := p.newWidth, retrainAt := 0, up := true, acked := s.cycle }
      let s := s.resend port fun _ => true
      if p.width = p.newWidth ∨ (s.link port).width = 0 then s.updLink port fun p => p.flush port s.cycle
      else s.updLink port fun p => p.sendControls port s.cycle [2 + p.width.toNat * 2 ^ 64]
    else s)

/-! ### Lost modules (R360 to R362) -/

/-- R361 step 1: reader-cache lines of a module's creels whose source is the lost module. -/
def State.dropLostLines (s : State) (m lost : Nat) : State :=
  (s.cores.filter fun (c, _) => c / 4096 == m).foldl (fun s (c, k) =>
    (k.l2.filter fun (_, l) => l.reader && linOf (l.line * 1024) / 128 == lost).foldl (fun s (w, _) => s.l2Drop c w) s) s

/-- The pending watches of a module's slots on words of the lost module (R361 step 2): slot and register. -/
def State.lostWatches (s : State) (m lost : Nat) : List (Nat × Nat) :=
  (s.slots.filter fun (id, _) => slotLin id / 128 == m).flatMap fun (id, sl) =>
    (sl.watches.filter fun (_, w) => w.state == .pend && linOf w.addr.toNat / 128 == lost).map fun (k, _) => (id, k)

/-- A CPULL's parent or child lies in a module (R361 step 3). -/
def State.treeFrom (s : State) (cmd : PullCmd) (lost : Nat) : Bool :=
  let c := s.creel (slotLin cmd.slot)
  let g := cmd.group
  (treeParent c g != noParent && treeLin c g (treeParent c g) / 128 == lost) ||
    (List.range (treeNch c g)).any fun ch => treeLin c g (treeChild c g ch) / 128 == lost

/-- The global physical address of a source address of a command, also when it lies in a lost module; none when it cannot be read. A miss is walked
at once. -/
def State.sourceAt (s : State) (cmd : PullCmd) (va : Nat) : Option Nat :=
  match s.pullSource cmd va with
  | (_, .ok p) => some p.gpa
  | (_, .stop 0x06 g) => some g
  | (_, .stop _ _) => none
  | (s, .wait) =>
    match s.walk (slotLin cmd.slot) cmd.asid.toNat true cmd.world.toNat va with
    | (_, .ok e) => if permitted e .read cmd.mode then some (e.phys (slotLin cmd.slot) va).gpa else none
    | _ => none

/-- The first source word in the lost module that the requests a command still has to make would read, as far as what it has read tells. -/
def State.laterIn (s : State) (cmd : PullCmd) (lost : Nat) : Nat → Option PullFail
  | 0 => none
  | n + 1 =>
    match s.nextPull cmd with
    | (s, .prep cmd) => s.laterIn cmd lost n
    | (s, .chunk start _ va _ cmd') =>
      match s.sourceAt cmd va with
      | some g => if linOf g / 128 = lost then some ⟨start, 0x06, va, g⟩ else s.laterIn cmd' lost n
      | none => none
    | _ => none

/-- The first source word of a command that is not yet read and lies in the lost module: of a request in flight, or of a later one (R361 step 3). -/
def State.unreadIn (s : State) (cmd : PullCmd) (lost : Nat) : Option PullFail :=
  match s.preqs.filter fun r => r.cmd == cmd.id && linOf r.gpa / 128 == lost with
  | r :: rs =>
    let r := rs.foldl (fun a b => if b.start < a.start then b else a) r
    some ⟨r.start, 0x06, r.va, r.gpa⟩
  | [] =>
    if cmd.issued then none
    else
      -- SGNACC's range does not depend on the header that it may still wait for (R244), nor PULLM's on its local headers (R245).
      let cmd := match cmd.fn with
        | 2 => { cmd with head := some (cmd.head.getD 0) }
        | 3 => { cmd with merge := cmd.merge.or (cmd.head.map fun _ => ⟨0, 0, 0, 0, 0, [], [], []⟩) }
        | _ => cmd
      s.laterIn cmd lost (2 * pullBytes cmd.fn cmd.ctl + 8 * cmd.head.getD 0 + 8)

/-- R361 step 3: a command that reads from the lost module completes with STATUS 0x06 and the prefix that has landed: what is still in flight for it
is given up. -/
def State.losePull (s : State) (cmd : PullCmd) (lost : Nat) : State :=
  let landed := fun (n : Nat) => cmd.stopCount ((s.preqs.filter (·.cmd == cmd.id)).foldl (fun n r => min n r.start) n)
  if cmd.fn = 4 then (if s.treeFrom cmd lost then s.endPull cmd 0x06 (landed cmd.cur) 0 0 else s)
  else
    match s.unreadIn cmd lost with
    | some f => s.endPull cmd 0x06 (landed f.at_) f.va f.gpa
    | none => s

/-- R361 step 4: GLDs that wait for the lost module raise 0x0A. -/
def State.loseGlds (s : State) (m lost : Nat) : State :=
  (s.accesses.filter fun a =>
      isGld a.kind && slotLin a.slot / 128 == m && a.parts.any fun p => linOf p.gpa / 128 == lost).foldl (fun s a =>
    match a.parts with
    | p :: _ =>
      ((s.dropAccess a).lostRec a.slot p.va p.gpa).waitOf a.slot (.trapping ⟨0x0A, BitVec.ofNat 64 p.va, false⟩)
    | [] => s) s

/-- R360, R361: module `lost` is declared lost for module `m`. -/
def State.declareLost (s : State) (m lost : Nat) : State :=
  let ws := s.lostWatches m lost
  let s := s.updModule m fun x => { x with mlost := setAdd x.mlost lost }
  let s := s.dropLostLines m lost
  let s := ws.foldl (fun s (id, k) => (s.dropArm ((s.slot id).watch k).arm).loseWatch id k) s
  let s := { s with arms := s.arms.filter fun a => !(slotLin a.slot / 128 == lost && linOf a.gpa / 128 == m) }
  let s := (List.range 128).foldl (fun s c =>
    (s.creel (128 * m + c)).pulls.foldl (fun s cmd => s.losePull cmd lost) s) s
  let s := s.loseGlds m lost
  (List.range 128).foldl (fun s c =>
    let lin := 128 * m + c
    s.pushRec lin 0x05 0 0 0
      (recWords false 0x5 0x05 0x0A 0 0 0 0 0 0 (lost * 2 ^ 52) 0 0 (ws.filter fun (id, _) => slotLin id == lin).length 0 0)) s

/-- A request of module m that has had neither data nor an acknowledgement for 2^26 cycles: the owner's module. One that its owner has discarded, and
an arm that the owner holds, were acknowledged (R360). -/
def State.overdue (s : State) (m : Nat) : Option Nat :=
  let late := fun (lin gpa t : Nat) =>
    lin / 128 == m && linOf gpa / 128 != m && decide (t + 2 ^ 26 ≤ s.cycle) && !s.isLost lin (linOf gpa / 128)
  ((s.accesses.findSome? fun a =>
      match a.kind, a.parts with
      | .gld _ _, p :: _ =>
        if late (slotLin a.slot) p.gpa a.since && !s.discarded.contains a.id then some (linOf p.gpa / 128) else none
      | _, _ => none).orElse fun _ =>
    s.preqs.findSome? fun r =>
      if !r.answered && late r.lin r.gpa r.since && !s.discarded.contains r.id then some (linOf r.gpa / 128) else none).orElse fun _ =>
    s.arms.findSome? fun a => if a.stage == .sent && late (slotLin a.slot) a.gpa a.since then some (linOf a.gpa / 128) else none

/-- A module to which every path of module m is down (R360). -/
def State.cutOff (s : State) (m : Nat) : Option Nat :=
  (s.mods.find? fun (n, _) => n != m && !setHas (s.module m).mlost n && !s.pathUp m n).map (·.1)

/-- R360: a request has had neither data nor an acknowledgement for 2^26 cycles, or every path is down. -/
def execLossTimeout (m lost : Nat) (s : State) : Host.Outcome State Fault Refusal :=
  done (if m = lost ∨ (mapFind s.mods m).isNone ∨ setHas (s.module m).mlost lost then s else s.declareLost m lost)

/-- The requests of module `from_` that stand at module m: accesses and requests of pull engines. -/
def State.standing (s : State) (m from_ : Nat) : List Nat :=
  (s.accesses.filter fun a =>
      (match a.kind with | .gld _ _ => true | _ => false) && slotLin a.slot / 128 == from_ && decide (a.due ≤ s.cycle) &&
        a.parts.any fun p => linOf p.gpa / 128 == m).map (·.id) ++
    (s.preqs.filter fun r => !r.answered && r.lin / 128 == from_ && linOf r.gpa / 128 == m && decide (r.due ≤ s.cycle)).map (·.id)

/-- R360 to R362: a host write clears the bit, and requests flow again. What came from the lost module until now was discarded, and its arms were
dropped (R361). -/
def State.clearLost (s : State) (m lost : Nat) : State :=
  if setHas (s.module m).mlost lost then
    let s := { s with
      discarded := s.discarded ++ s.standing m lost
      arms := s.arms.filter fun a =>
        !(slotLin a.slot / 128 == lost && linOf a.gpa / 128 == m && a.stage == ArmStage.sent && decide (a.due ≤ s.cycle)) }
    s.updModule m fun x => { x with mlost := setDel x.mlost lost }
  else s

def execMlostClear (m lost : Nat) (s : State) : Host.Outcome State Fault Refusal := done (s.clearLost m lost)

/-! ### BAR0 (R295, R296, R301, R305, R317, R360, R369, R391)

KCTL and the first word of KPEND have one offset; KPEND reads as zero, so KCTL reads there, and a write there is a write of KPEND; ROT has a step of
its own. The four words of telemetry are the model's layout (log 58). -/

/-- The channel context that CHSEL selects, the port at a BAR0 offset of 32 bytes or of 8, and the words of MLOST. -/
def barPort (ag off size base : Nat) : Nat := 32 * (ag / 2) + (off - base) / size % 32

/-- The words of a context as the host reads them (R296). -/
def Ctx.word (c : Ctx) (i : Nat) : Nat :=
  match i with
  | 0 => c.w0.toNat
  | 1 => c.w1.toNat
  | 2 => c.w2.toNat
  | _ => c.irqthr.toNat * 2 ^ 32 + c.vec.toNat * 2 ^ 12 + c.err.toNat * 2 + c.en.toNat

/-- KCTL and LSTAT (R305, R369). -/
def Port.kctl (p : Port) : Nat := p.gen.toNat * 2 ^ 34 + p.stop.toNat * 4 + p.rot.toNat * 2 + p.pv.toNat
def Port.lstat (p : Port) : Nat :=
  p.rpl.toNat * 2 ^ 32 + p.crce.toNat * 2 ^ 16 + p.fail.toNat * 2 ^ 8 + p.width.toNat * 4 + p.up.toNat

/-- FWSTAT (R391). -/
def lifeCode : LifeCycle → Nat
  | .blank => 0
  | .provisioned => 1
  | .owned => 2
  | .retired => 3
def Module.fwstat (x : Module) : Nat := x.floor * 2 ^ 32 + x.active % 4 * 2 ^ 6 + x.lastCheck % 4 * 2 ^ 4 + lifeCode x.life * 4

/-- What a host reads at a BAR0 offset, a multiple of 8; what no rule names reads as zero. -/
def State.bar0Read (s : State) (ag off : Nat) : Nat :=
  let a := s.port ag
  let x := s.module (ag / 2)
  if off = 0 then a.chsel.toNat
  else if off < 0x28 then (a.ctx a.chsel.toNat).word (off / 8 - 1)
  else if off = 0x100 then a.hwin.toNat
  else if 0x1000 ≤ off ∧ off < 0x1400 then (if off % 32 = 0 then (s.link (barPort ag off 32 0x1000)).kctl else 0)
  else if 0x1800 ≤ off ∧ off < 0x1900 then (s.link (barPort ag off 8 0x1800)).lstat
  else if off = 0x2000 then x.power
  else if off = 0x2008 then x.temp
  else if off = 0x2010 then x.clock
  else if off = 0x2018 then x.droops
  else if off = 0x2080 then x.fwstat
  else if 0x3000 ≤ off ∧ off < 0x3200 then
    (x.mlost.filter fun m => m / 64 == (off - 0x3000) / 8).foldl (fun acc m => acc + 2 ^ (m % 64)) 0
  else 0

/-- A host write to a BAR0 register: what is read-only, reserved or named by no rule stays (R6). -/
def State.bar0Write (s : State) (ag off : Nat) (v : BitVec 64) : State :=
  let m := ag / 2
  let n := v.toNat
  if off = 0 then s.updPort ag fun a => { a with chsel := BitVec.ofNat 10 n }
  else if off < 0x28 then s.writeCtxWord ag (s.port ag).chsel.toNat (off / 8 - 1) n
  else if off = 0x100 then s.updPort ag fun a => { a with hwin := BitVec.ofNat 64 (nbits n 63 23 * 2 ^ 23 + nbits n 6 1 * 2) }
  else if 0x1000 ≤ off ∧ off < 0x1400 then s.writeKpend (barPort ag off 32 0x1000) (off / 8) v
  else if 0x1800 ≤ off ∧ off < 0x1900 then
    let port := barPort ag off 8 0x1800
    let s := s.clearFails port n
    if v.getLsbD 1 then s.startRetrain port else s
  else if 0x3000 ≤ off ∧ off < 0x3200 then
    ((List.range 64).filter (n.testBit ·)).foldl (fun s i => s.clearLost m (8 * (off - 0x3000) + i)) s
  else s

/-- A register that has no behaviour of its own (R138, R346): system register `reg` of slot `unit`, or, from 0x10000 on, the BAR0 register at
offset reg - 0x10000 of host port `unit`. -/
def execRegisterWrite (unit reg : Nat) (v : BitVec 64) (s : State) : Host.Outcome State Fault Refusal :=
  done (if 0x10000 ≤ reg then s.bar0Write unit (reg - 0x10000) v
    else
      match sysReg reg with
      | some (_, true) => (s.writeReg unit reg v 0).alone unit s
      | _ => s)

end Sys2Proof.Machine
end

