-- ==== Sys2Proof/Machine/House.lean ====
section
/-!
DEFINITION. The error log (R334), scrubbing of storage (R352, R357), resets (R314, R317, R326, R337, R392, R393), supply and heat (R316, R317,
R392), power gating (R313, R388), firmware (R315, R390) and worlds (R306, R389).
-/

namespace Sys2Proof.Machine

/-! ### The error log (R334, R335) -/

/-- A record written into a creel's log: record n whole, then ELSEQ, under world 0 (R310). -/
def State.logRecord (s : State) (lin cycle : Nat) (words : List Nat) : State :=
  let n := s.sysRead lin 0xBF0000 + 1
  let ws := words.zipIdx.map fun (w, i) => if i = 0 then n % 2 ^ 32 * 2 ^ 32 + w else if i = 1 then cycle else w
  (s.store (s.key lin 0) (gpaOf lin (0xBF0000 + 128 * (1 + (n - 1) % 255))) (ws.flatMap fun w => natBytes w 8)).sysWrite lin 0xBF0000 n

/-- The order of the records of one cycle: source, core, slot, those without a ticket first, then SERIAL (R334). -/
def Rec.before (a b : Rec) : Bool :=
  let key := fun (r : Rec) => [r.source, r.core, r.slot, if r.ticket = 0 then 0 else 1, r.ticket / 2 ^ 16]
  ((key a).zip (key b)).foldr (fun x acc => decide (x.1 < x.2) || (x.1 == x.2 && acc)) false

/-- A record put at its place among the others; of equals, the one found first stands first. -/
def recInsert (r : Rec) : List Rec → List Rec
  | [] => [r]
  | x :: l => if r.before x then r :: x :: l else x :: recInsert r l

def recSort (l : List Rec) : List Rec := l.foldl (fun acc r => recInsert r acc) []

/-- The records that a creel found in this cycle, written (R334). -/
def State.flushRecs (s : State) (lin : Nat) : State :=
  let rs := recSort (s.creel lin).recs
  let at0 := (s.module (lin / 128)).resetAt
  rs.foldl (fun s r => s.logRecord lin (r.cycle - at0) r.words) (s.updCreel lin fun c => { c with recs := [] })

/-- A record of the housekeeping controller of a module (R392), in creel 0's log (R334). -/
def houseWords (code cls : Nat) : List Nat := recWords false cls 0x0C code 0 0 0 0 0 0 0 0 0 0 0 0
def State.houseRec (s : State) (m code cls : Nat) : State :=
  let s := s.pushRec (128 * m) 0x0C 0 0 0 (houseWords code cls)
  if cls = 1 then s.updCreel (128 * m) fun c => { c with correctedAt := s.cycle + 1 } else s

/-! ### Storage scrubbers (R352, R357) -/

/-- A code word that a scrubber reads: corrected, or recorded as uncorrectable. LSYNC forms that wait for it leave (R357). -/
def State.scrubUnit (s : State) (loc : Nat) : State :=
  let u := unitOf loc
  if setHas s.bad u then
    let src := if wordUnit u then 0x09 else 0x08
    (s.pushRec (unitLin u) src 0 0 0 (recWords false 0x4 src 0x09 0 0 0 0 0 0 (locGpa u) 0 0 2 0 0)).foundBad u 8
  else if setHas s.soft u then s.correctUnit u 0 2
  else s

/-- The words of a 128-byte row. -/
def State.scrubRow (s : State) (gpa : Nat) : State :=
  (List.range 16).foldl (fun s i => s.scrubUnit (gpa / 128 * 128 + 8 * i)) s

def execDramScrubRead (lin addr : Nat) (s : State) : Host.Outcome State Fault Refusal :=
  done (if isDram addr then s.scrubUnit (gpaOf lin addr) else s)
def execSramScrubRead (lin addr : Nat) (s : State) : Host.Outcome State Fault Refusal :=
  done (if isSram addr then s.scrubRow (gpaOf lin addr) else s)
def execAgentScrubRead (ag addr : Nat) (s : State) : Host.Outcome State Fault Refusal :=
  done (if addr < 2 ^ 23 then s.scrubRow (agentGpa (ag / 2) (ag % 2) addr) else s)

/-! ### Wiping units -/

/-- The creel whose storage holds a location (Mem.lean's spaces); none for data in flight. -/
def locLin (loc : Nat) : Option Nat :=
  let sp := locSpace loc
  if sp = 0 then some (locGpa loc / 2 ^ 45)
  else if sp < 2 ^ 25 then some ((sp - 1) / 32)
  else if sp < 2 ^ 26 then some ((sp - 2 ^ 25) / 32)
  else if sp < 2 ^ 27 then some (sp - 2 ^ 26)
  else none

/-- Every location that `p` picks wiped: zero, full, readable (R311, R354). -/
def State.wipeWhere (s : State) (p : Nat → Bool) : State :=
  { s with
    mem := s.mem.filter fun c => !p c.1
    tags := s.tags.filter fun t => !p (16 * t.1)
    empties := s.empties.filter fun e => !p (8 * e)
    soft := s.soft.filter fun u => !p u
    bad := s.bad.filter fun u => !p u }

/-- The storage of the creels that `c` picks; of memory, what `keep` picks stays. -/
def State.wipeCreels (s : State) (c : Nat → Bool) (keep : Nat → Bool) : State :=
  s.wipeWhere fun loc =>
    match locLin loc with
    | some lin => c lin && !(locSpace loc == 0 && keep (lpaOf (locGpa loc)))
    | none => false

/-- The units of the creels that `c` picks as they are after reset, with nothing in flight for their slots. -/
def State.clearCreels (s : State) (c : Nat → Bool) : State :=
  { s with
    regs := s.regs.filter fun (e, _) => !c (e / 2048 / 32)
    slots := s.slots.filter fun (id, _) => !c (slotLin id)
    running := s.running.filter fun id => !c (slotLin id)
    turnq := s.turnq.filter fun id => !c (slotLin id)
    cores := s.cores.filter fun (k, _) => !c (k / 32)
    creels := s.creels.filter fun (lin, _) => !c lin
    weaves := s.weaves.filter fun (_, w) => !c w.lin
    accesses := s.accesses.filter fun a => !c (slotLin a.slot)
    fills := s.fills.filter fun f => !c (f.core / 32)
    putxs := s.putxs.filter fun p => !c (slotLin p.slot)
    arms := s.arms.filter fun a => !c (slotLin a.slot)
    preqs := s.preqs.filter fun r => !c r.lin }

/-- R326: slot 0 of core 0 of a creel starts in firmware, with the weave that log 17 gives it. -/
def State.startFirmware (s : State) (lin : Nat) : State :=
  let (wv, s) := s.newId
  let id := 512 * lin
  { s with
    slots := mapPut s.slots id { Slot.firmware lin with weave := wv }
    running := setAdd s.running id
    weaves := mapPut s.weaves wv (Weave.firmware lin) }

/-! ### Module reset (R317, R326, R390, R393) -/

/-- An image carries the signatures that the life-cycle state asks for (R314, R315). -/
def Module.signed (x : Module) (img : Nat) : Bool :=
  match x.life with
  | .provisioned => Config.makerSigned img
  | .owned => Config.makerSigned img && Config.ownerSigned img
  | _ => false

/-- Why an image of a version is not activated: 2 signature, 3 version; 1 when it passes (R315, R391). -/
def Module.checkImage (x : Module) (img version : Nat) : Nat :=
  if !x.signed img then 2 else if version < x.floor then 3 else 1

/-- Image slot n, 0 for A and 1 for B. -/
def Module.imageSlot (x : Module) (n : Nat) : Image := if n = 0 then x.imageA else x.imageB

/-- What boot finds of an image slot: an image that has passed its checks is checked again, under the life-cycle state and the floor of now (R315);
0 for one that has not, or whose writing was interrupted (R390). -/
def Module.bootCheck (x : Module) (n : Nat) : Nat :=
  let i := x.imageSlot n
  if i.passed then x.checkImage i.image i.version else 0

/-- The image slot that boots: the one switched to, or the other when only that passes; 3 for none (R390). -/
def Module.boots (x : Module) : Nat :=
  if x.bootCheck x.nextActive = 1 then x.nextActive else if x.bootCheck (1 - x.nextActive) = 1 then 1 - x.nextActive else 3

/-- A module after a reset: what reset does not name is as at first, but for what one-time storage, the image slots and the host's links hold. -/
def Module.afterReset (x : Module) (cycle : Nat) : Module :=
  { Module.initial with
    resetAt := cycle + 1
    worlds := x.worlds.map fun (k, w) => (k, { w with live := k == 0, prot := false, hostVis := k == 0, gen := w.gen + 1 })
    agents := x.agents.map fun (k, a) => (k, { Agent.initial with msix := a.msix, link := a.link, readData := a.readData })
    life := x.life, imageA := x.imageA, imageB := x.imageB, active := x.boots, nextActive := if x.boots = 3 then x.nextActive else x.boots
    floor := x.floor }

/-- Both host ports of a module lose their hosts (R381, R393). -/
def State.loseHosts (s : State) (m : Nat) : State := (s.loseHost (2 * m)).loseHost (2 * m + 1)

/-- An image slot that passed and fails at boot is recorded (R315). -/
def State.bootRecs (s : State) (m : Nat) : State :=
  [0, 1].foldl (fun s n =>
    match (s.module m).bootCheck n with
    | 2 => s.houseRec m 0x10 0x8
    | 3 => s.houseRec m 0x11 0x8
    | _ => s) s

/-- A module reset: every memory is wiped and its creels start in firmware, unless no image passes. `kept` becomes record 1 (R334). Other modules
lose this one, and so do its hosts (R381, R393). -/
def State.resetModule (s : State) (m : Nat) (kept : Option (List Nat)) : State :=
  if (mapFind s.mods m).isNone then s
  else
    let c := fun lin => lin / 128 == m
    let others := (s.mods.filter fun (k, x) => k != m && !setHas x.mlost m).map (·.1)
    let s := others.foldl (fun s k => s.declareLost k m) s
    let at0 := (s.module m).resetAt
    let s := ((s.wipeCreels c fun _ => false).clearCreels c).updModule m (·.afterReset s.cycle)
    let s := match kept with
      | some ws => s.logRecord (128 * m) (s.cycle - at0) ws
      | none => s
    let s := (s.loseHosts m).bootRecs m
    if (s.module m).active = 3 then s else (List.range 128).foldl (fun s k => s.startFirmware (128 * m + k)) s

def execModuleReset (m : Nat) (s : State) : Host.Outcome State Fault Refusal := done (s.resetModule m none)

/-- Every world of a module gets a new key (R306, R314). -/
def State.newWorldKeys (s : State) (m : Nat) : State :=
  s.updModule m fun x =>
    { x with worlds := (List.range 64).map fun w => (w, { worldOf x w with gen := (worldOf x w).gen + 1 }) }

/-- 256 bits of no stated value. -/
def State.drawKey (s : State) : BitVec 256 × State :=
  (BitVec.ofNat 256 ((List.range 4).foldr (fun i acc => (Config.freeWord (s.fresh + i)).toNat + 2 ^ 64 * acc) 0), { s with fresh := s.fresh + 4 })

/-- Every link key of a module is a new one (R314), whose value no rule gives. -/
def State.newLinkKeys (s : State) (m : Nat) : State :=
  (List.range 32).foldl (fun s k =>
    let (tx, s) := s.drawKey
    let (rx, s) := s.drawKey
    s.updLink (32 * m + k) fun p => { p with key := tx, rkey := rx }) s

/-- R314: a change of life-cycle state wipes every memory, regenerates every key and resets the module. -/
def State.changeLife (s : State) (m : Nat) (src dst : LifeCycle) : State :=
  if (s.module m).life = src then (((s.updModule m fun x => { x with life := dst }).newWorldKeys m).resetModule m none).newLinkKeys m else s

def execProvision (m : Nat) (s : State) : Host.Outcome State Fault Refusal := done (s.changeLife m .blank .provisioned)
def execOwnerKeyInstall (m : Nat) (s : State) : Host.Outcome State Fault Refusal := done (s.changeLife m .provisioned .owned)
def execOwnerRelease (m : Nat) (s : State) : Host.Outcome State Fault Refusal := done (s.changeLife m .owned .provisioned)
def execRetire (m : Nat) (s : State) : Host.Outcome State Fault Refusal := done (s.changeLife m .owned .retired)

/-! ### Supply and heat (R316, R317, R392) -/

def execDroopDetect (m : Nat) (s : State) : Host.Outcome State Fault Refusal :=
  done (s.updModule m fun x => { x with droop := true, droops := x.droops + 1 })
def execDroopRecover (m : Nat) (s : State) : Host.Outcome State Fault Refusal :=
  done (s.updModule m fun x => { x with droop := false })

/-- The clock one sixteenth lower, and not below one. -/
def Module.slower (x : Module) : Module := { x with clock := if x.clock ≤ 1 then 1 else x.clock - 1 }

/-- The sensors are read: the telemetry holds what they show, whose value is free (R317; log 58). -/
def State.readSensors (s : State) (m : Nat) : State :=
  let (p, s) := s.draw
  let (t, s) := s.draw
  s.updModule m fun x => { x with power := p % 2 ^ 64, temp := t % 2 ^ 64 }

def execPowerLimitStep (m : Nat) (s : State) : Host.Outcome State Fault Refusal :=
  done (((s.readSensors m).updModule m (·.slower)).houseRec m 0x24 0x1)
def execThermalStep (m : Nat) (s : State) : Host.Outcome State Fault Refusal :=
  done (((s.readSensors m).updModule m (·.slower)).houseRec m 0x21 0x1)
def execThermalRecover (m : Nat) (s : State) : Host.Outcome State Fault Refusal :=
  done ((s.readSensors m).updModule m fun x => { x with hold := false, clock := min 16 (x.clock + 1) })
def execThermalHold (m : Nat) (s : State) : Host.Outcome State Fault Refusal :=
  done (((s.readSensors m).updModule m fun x => { x with hold := true, clock := 1 }).houseRec m 0x22 0x8)
def execThermalReset (m : Nat) (s : State) : Host.Outcome State Fault Refusal := done (s.resetModule m (some (houseWords 0x23 0x8)))
def execSupplyUndervoltReset (m : Nat) (s : State) : Host.Outcome State Fault Refusal :=
  done (s.resetModule m (some (houseWords 0x20 0x8)))
def execStretchLimitReset (m : Nat) (s : State) : Host.Outcome State Fault Refusal :=
  done (s.resetModule m (some (houseWords 0x20 0x8)))

/-! ### Power gating (R313, R388) -/

/-- A unit of a core is idle: no command in it, no claim on its state, no pinned line in its way. -/
def State.unitIdle (s : State) (core unit : Nat) : Bool :=
  let k := s.core core
  match unit with
  | 0 => k.mq.isEmpty && !(List.range 16).any fun n => (List.range 6).any fun r => cfgClaim (s.slot (16 * core + n)).mcfg.toNat r
  | 1 => k.gq.isEmpty
  | 2 => true
  | 3 => !(s.creel (core / 32)).pulls.any fun p => p.ch == core % 32
  | _ => !k.l2.any fun (w, l) => w % 16 == unit - 4 && l.pins != 0

/-- The lines of a way are written back and dropped (R313). -/
def State.emptyWay (s : State) (core way : Nat) : State :=
  ((s.core core).l2.filter fun (w, _) => w % 16 == way).foldl (fun s (w, _) => (s.l2WriteBack core w).l2Drop core w) s

/-- R313: an idle unit is gated and records the world of its last user. -/
def execPowerGating (core unit : Nat) (s : State) : Host.Outcome State Fault Refusal :=
  done (if s.unitIdle core unit then
      let s := if 4 ≤ unit then s.emptyWay core (unit - 4) else s
      s.updCore core fun k => { k with gated := mapPut k.gated unit (mapGet k.users 0 unit) }
    else s)

/-- What waking clears (R313). -/
def Core.wakeUnit (k : Core) (unit : Nat) : Core :=
  match unit with
  | 0 => { k with tiles := [], tables := [] }
  | _ => k

/-- R313, R388: a gated unit is cleared and checked. One that fails the check stays gated, with a record of class 0x7; its entry is then 64
higher, and it is not woken again. -/
def execUnitWake (core unit : Nat) (s : State) : Host.Outcome State Fault Refusal :=
  done (match mapFind (s.core core).gated unit with
    | none => s
    | some w =>
      if 64 ≤ w then s
      else if setHas (s.core core).faulty unit then
        (s.updCore core fun k => { k with gated := mapPut k.gated unit (64 + w) }).pushRec (core / 32) 0x0C (core % 32) 0 0
          (recWords (worldOf (s.module (core / 4096)) w).prot 0x7 0x0C 0x30 w 0 (core % 32) 0 0 0 0 0 0 0 0 0)
      else s.updCore core fun k => { k.wakeUnit unit with gated := mapDel k.gated unit })

/-- R337, R388: system software resets a creel: its units start again and its SRAM is wiped. Dirty sectors reach the DRAM slice first, which keeps
its content. No creel starts while no image passes (R390). -/
def execCreelReset (lin : Nat) (s : State) : Host.Outcome State Fault Refusal :=
  done (
    if (s.module (lin / 128)).active = 3 then s
    else
    let s := (List.range 24).foldl (fun s c =>
      (s.core (coreAt lin c)).l2.foldl (fun s (w, _) => s.l2WriteBack (coreAt lin c) w) s) s
    let c := fun l => l == lin
    ((s.wipeCreels c fun lpa => isDram lpa || isAgent lpa).clearCreels c).startFirmware lin)

/-! ### Firmware (R315, R390) -/

/-- The inactive slot, slot A when none is active, holds an image that has passed its checks or not. -/
def Module.putImage (x : Module) (img : Nat) (passed : Bool) : Module :=
  let i : Image := ⟨img, (Config.imageVersion img).toNat, passed⟩
  if x.active = 0 then { x with imageB := i } else { x with imageA := i }

/-- The writing of an image into the inactive slot begins: until it ends, the slot holds nothing that passes (R390). -/
def Module.startImage (x : Module) (img due : Nat) : Module := { x.putImage img false with writing := some (img, due) }

/-- The writing has ended: the image boots at the next reset when it passes, and the roles stay when it does not (R390). -/
def Module.takeImage (x : Module) (img : Nat) : Module :=
  let r := x.checkImage img (Config.imageVersion img).toNat
  let n := if x.active = 0 then 1 else 0
  { x.putImage img (r == 1) with
    writing := none, lastCheck := r, nextActive := if r = 1 then n else if x.active = 3 then 1 - n else x.active }

/-- The writing of an image into the inactive slot ends now. -/
def Module.written (x : Module) (img cycle : Nat) : Bool := x.writing.any fun (i, due) => i == img && decide (due ≤ cycle)

/-- R390: an image is written into the inactive slot, and checked when all of it is written. -/
def execFirmwareImageWrite (m img : Nat) (s : State) : Host.Outcome State Fault Refusal :=
  done (
    let x := s.module m
    if x.written img s.cycle then
      let r := x.checkImage img (Config.imageVersion img).toNat
      let s := s.updModule m (·.takeImage img)
      if r = 1 then s else s.houseRec m (if r = 2 then 0x10 else 0x11) 0x8
    else
      let (due, s) := s.laterCycle
      s.updModule m (·.startImage img due))

/-- The version of the active image. -/
def Module.activeVersion (x : Module) : Nat := if x.active = 0 then x.imageA.version else x.imageB.version

/-- R315, R390: the floor is raised, but not above the active image's version. -/
def execFloorRaise (m floor : Nat) (s : State) : Host.Outcome State Fault Refusal :=
  done (
    let x := s.module m
    if x.life ≠ .owned then s
    else if x.activeVersion < floor then s.houseRec m 0x12 0x8
    else s.updModule m fun x => { x with floor := max x.floor floor })

/-! ### Worlds (R306, R389) -/

/-- R306: a world is created with its attributes: bit 0 P, bit 1 HV. -/
def execWorldCreate (m world attr : Nat) (s : State) : Host.Outcome State Fault Refusal :=
  done (
    let x := s.module m
    let w := worldOf x world
    if x.life ≠ .owned ∨ world = 0 ∨ 64 ≤ world ∨ w.live then s
    else s.updModule m fun x => { x with worlds := mapPut x.worlds world ⟨true, attr.testBit 0, attr.testBit 1, w.gen⟩ })

/-- The slots of a module in a world. -/
def State.worldSlots (s : State) (m w : Nat) : List Nat :=
  (s.slots.filter fun (id, sl) => slotLin id / 128 == m && sl.world.toNat == w).map (·.1)

/-- A resident packet of a destroyed world is rejected: by its home, or through DRING for a levelled one (R34, R379, R389), under a code and a
detail that no rule gives (log 2). -/
def State.rejectResident (s : State) (lin k : Nat) (p : Packet) : State :=
  let s := s.updCreel lin fun c => { c with residents := mapDel c.residents k }
  match p.levelled with
  | some (serial, d) => s.publishLevelled lin d (2 ^ 63 + serial)
  | none =>
    let (code, s) := s.draw
    let (detail, s) := s.draw
    s.rejectPacket lin p (code % 256) (detail % 2 ^ 64)

/-- Packets of the world that are resident are rejected. -/
def State.rejectWorld (s : State) (m w : Nat) : State :=
  (s.creels.filter fun (lin, _) => lin / 128 == m).foldl (fun s (lin, c) =>
    (c.residents.filter fun (_, p) => p.world == w).foldl (fun s (k, p) => s.rejectResident lin k p) s) s

/-- The slots whose end a world's destruction waits for, with the weaves they were in. -/
def State.dyingSlots (s : State) (m w : Nat) : List (Nat × Nat) := mapGet (s.module m).dying [] w

/-- R389 steps 2 and 3: granules locked to the slots that the world had are scrubbed, the locks cleared and the key replaced. -/
def State.endWorld (s : State) (m w : Nat) : State :=
  let s := ((s.dyingSlots m w).filter fun x => (s.slot x.1).slock).foldl (fun s x =>
    (s.scrubPart x.1).updSlot x.1 fun sl => { sl with slock := false }) s
  s.updModule m fun x =>
    { x with dying := mapDel x.dying w, worlds := mapPut x.worlds w ⟨false, false, false, (worldOf x w).gen + 1⟩ }

/-- The slots that the world had when its destruction began have all ended: idle, or in another weave since. -/
def State.worldEnds (s : State) (m w : Nat) : Bool :=
  (mapFind (s.module m).dying w).isSome && (s.dyingSlots m w).all fun x => !(s.slot x.1).busy || (s.slot x.1).weave != x.2

/-- R389: a world is destroyed: its slots are terminated, and once they have ended its memory is scrubbed and its key replaced. -/
def execWorldDestroy (m world : Nat) (s : State) : Host.Outcome State Fault Refusal :=
  done (
    let x := s.module m
    if world = 0 ∨ 64 ≤ world then s
    else if (mapFind x.dying world).isSome then (if s.worldEnds m world then s.endWorld m world else s)
    else if x.life ≠ .owned ∨ !(worldOf x world).live then s
    else
      let ids := s.worldSlots m world
      let s := s.updModule m fun x => { x with dying := mapPut x.dying world (ids.map fun id => (id, (s.slot id).weave)) }
      let s := ids.foldl (fun s id => s.stopSlot id) s
      let s := (s.stopBound m world).rejectWorld m world
      if s.worldEnds m world then s.endWorld m world else s)

end Sys2Proof.Machine
end

