-- ==== Sys2Proof/Machine/VMem.lean ====
section
/-!
DEFINITION. Vector accesses: VMEM (R190, R191) and VBUCK (R205).

All active lanes are checked before any is accessed. A lane that misses the TLBs parks the slot for a walk, and the instruction reissues (R76).
-/

namespace Sys2Proof.Machine

/-- The active lanes checked in rising order (R191): the place of each with its lane number and address, or what stops the first one. -/
def State.checkLanes (s : State) (need : Need) : List (Nat × Nat) → State × Except Stop (List (Nat × Nat × Place))
  | [] => (s, .ok [])
  | (i, va) :: l =>
    match s.checkLocal s.cur va 4 4 need false with
    | (s, .ok p) =>
      match s.checkLanes need l with
      | (s, .ok ps) => (s, .ok ((i, va, p) :: ps))
      | (s, .error t) => (s, .error t)
    | (s, .trap t) => (s, .error (.trap t))
    | (s, .miss) => (s, .error (.miss false va))

/-- A part put in the order of the aligned 8-byte words touched, after the parts of the same word, so that a word has one place (R191, R92). -/
def insertPart (p : Part) : List Part → List Part
  | [] => [p]
  | q :: l => if p.gpa / 8 < q.gpa / 8 then p :: q :: l else q :: insertPart p l
def sortParts (ps : List Part) : List Part := ps.foldl (fun acc p => insertPart p acc) []

/-- Two parts of one aligned 8-byte word as one: `p` over `q`, at the lower lane's number and address (R92, R191). -/
def joinPart (q p : Part) : Part :=
  if q.size = 4 ∧ q.gpa = p.gpa then { q with data := p.data }
  else
    let lo := if p.gpa % 8 = 0 then p.data else if q.size = 8 then q.data % 2 ^ 32 else q.data
    let hi := if p.gpa % 8 ≠ 0 then p.data else if q.size = 8 then q.data / 2 ^ 32 else q.data
    { q with gpa := q.gpa / 8 * 8, size := 8, data := lo + 2 ^ 32 * hi }

/-- A 4-byte part joined to the part of its word, if there is one: a vector access has one place for each aligned 8-byte word that it
touches (R92), and a higher lane's value stays (R191). -/
def addPart (l : List Part) (p : Part) : List Part :=
  if l.any fun q => q.size ≤ 8 && q.gpa / 8 == p.gpa / 8 && q.home == p.home then
    l.map fun q => if q.size ≤ 8 && q.gpa / 8 == p.gpa / 8 && q.home == p.home then joinPart q p else q
  else l ++ [p]

/-- The parts of a vector store, one for each aligned 8-byte word (R92); a part of a whole block or sector stays. -/
def wordParts (ps : List Part) : List Part := ps.foldl (fun l p => if p.size = 4 then addPart l p else l ++ [p]) []

/-- One part of four bytes for each lane. -/
def laneParts (sl : Slot) (w : Nat) (l : List (Nat × Nat × Place)) : List Part :=
  l.map fun (i, va, p) => mkPart va 4 i (elemOf (sl.w w) 32 i) p

/-- The run of consecutive lanes at consecutive addresses at the head of a list, `n` lanes long, as one part. -/
def mergeRun (n : Nat) (l : List Part) : Option Part :=
  match l with
  | [] => none
  | p :: _ =>
    let run := l.take n
    if run.length == n && p.gpa % (4 * n) == 0 &&
        (List.range n).all fun k => match nth run k with
          | some q => q.gpa == p.gpa + 4 * k && q.lane == p.lane + k
          | none => false
    then some { p with size := 4 * n, data := (run.foldr (fun q acc => q.data + 2 ^ 32 * acc) 0) }
    else none

/-- R354: the active lanes of a VST that cover a whole DRAM sector or a whole 16-byte block write it as one. -/
def mergeParts : Nat → List Part → List Part
  | 0, l => l
  | n + 1, l =>
    match l with
    | [] => []
    | p :: r =>
      match (if p.home.isSome then mergeRun 32 l else none) with
      | some q => q :: mergeParts n (l.drop 32)
      | none =>
        match (if p.home.isNone then mergeRun 4 l else none) with
        | some q => q :: mergeParts n (l.drop 4)
        | none => p :: mergeParts n r

/-- The active lanes with their addresses, modulo 2^64. -/
def laneAddrs (sl : Slot) (m : Nat) (f : Nat → Nat) : List (Nat × Nat) :=
  ((List.range 128).filter fun i => (sl.m m).getLsbD i).map fun i => (i, f i % 2 ^ 64)

def opVload (fields : List (BitVec 7)) (w : BitVec 3) (m : BitVec 2) (addr : State → Nat → Nat) (s : State) :
    Host.Outcome State Fault Refusal :=
  done (issue fields fields (fun s =>
    match s.checkLanes .read (laneAddrs s.me m.toNat (addr s)) with
    | (s, .error t) => s.stopped t
    | (s, .ok l) => s.issueAccess (.vload w.toNat []) (sortParts (laneParts s.me w.toNat l)) 0 false false false false) s)

def opVstore (fields : List (BitVec 7)) (w : BitVec 3) (m : BitVec 2) (merge : Bool) (addr : State → Nat → Nat) (s : State) :
    Host.Outcome State Fault Refusal :=
  done (issue fields fields (fun s =>
    match s.checkLanes .write (laneAddrs s.me m.toNat (addr s)) with
    | (s, .error t) => s.stopped t
    | (s, .ok l) =>
      let ps := laneParts s.me w.toNat l
      let ps := wordParts (if merge then mergeParts 128 ps else ps)
      s.issueAccess .vstore ps 0 false false false false) s)

/-- a(i) of the three addressings (R190). -/
def addrRow (a : BitVec 7) (s : State) (i : Nat) : Nat := (s.x a.toNat).toNat + 4 * i
def addrStride (a b : BitVec 7) (s : State) (i : Nat) : Nat := (s.x a.toNat).toNat + i * (s.x b.toNat).toNat
def addrIndex (a : BitVec 7) (i : BitVec 3) (s : State) (k : Nat) : Nat :=
  (s.x a.toNat).toNat + 4 * elemOf (s.me.w i.toNat) 32 k

def execVld (w : BitVec 3) (a : BitVec 7) (m : BitVec 2) := opVload [a] w m (addrRow a)
def execVst (w : BitVec 3) (a : BitVec 7) (m : BitVec 2) := opVstore [a] w m true (addrRow a)
def execVlds (w : BitVec 3) (a b : BitVec 7) (m : BitVec 2) := opVload [a, b] w m (addrStride a b)
def execVsts (w : BitVec 3) (a b : BitVec 7) (m : BitVec 2) := opVstore [a, b] w m false (addrStride a b)
def execVldx (w : BitVec 3) (a : BitVec 7) (i : BitVec 3) (m : BitVec 2) := opVload [a] w m (addrIndex a i)
def execVstx (w : BitVec 3) (a : BitVec 7) (i : BitVec 3) (m : BitVec 2) := opVstore [a] w m false (addrIndex a i)

/-! ### VBUCK (R205) -/

/-- The active lanes with their bucket and their rank among the active lanes below them in it. -/
def buckRanks (bs : List (Nat × Nat)) : List (Nat × Nat × Nat) :=
  bs.map fun (i, b) => (i, b, (bs.filter fun (j, c) => j < i && c == b).length)

/-- R205: the counters are checked from the lowest, then the ones that active lanes name are updated in rising order, each at a place of its own.
Nothing changes when one of them is uncorrectable. STVAL of a bad bit 63 or [55:47] is the whole of x(x), since no rule says which address failed
(log 42). -/
def execVbuck (d : BitVec 3) (x : BitVec 7) (a : BitVec 3) (m : BitVec 2) (s : State) : Host.Outcome State Fault Refusal :=
  done (issue [x] [x] (fun s =>
    let v := s.x x.toNat
    let base := nbits v.toNat 46 0
    let bound := nbits v.toNat 63 56 + 1
    if 128 < bound || nbits v.toNat 55 47 != 0 then s.trapWith 0x05 v
    else if base % 4 ≠ 0 then s.trapWith 0x04 (BitVec.ofNat 64 base)
    else
      match s.checkLanes .both ((List.range bound).map fun b => (b, base + 4 * b)) with
      | (s, .error t) => s.stopped t
      | (s, .ok l) =>
        let sl := s.me
        let bs := ((List.range 128).filter fun i => (sl.m m.toNat).getLsbD i).map fun i => (i, elemOf (sl.w a.toNat) 32 i)
        let parts :=
          (l.map fun (b, va, p) => mkPart va 4 b (bs.filter fun (_, c) => c == b).length p).filter (·.data != 0)
        match parts.find? s.writeBad with
        | some p =>
          let u := s.unitRun true p
          (s.dataRec s.cur u.1 u.2 p.va).trapWith 0x09 (BitVec.ofNat 64 p.va)
        | none => s.issueAccess (.vbuck d.toNat bound (buckRanks bs) []) parts 0 false false false false) s)

end Sys2Proof.Machine
end

