-- ==== Sys2Proof/Machine/VPerm.lean ====
section
/-!
DEFINITION. Lane movement and reductions: VPERM (R202, R203, R126), and VCNT and VMOVM of VMISC (R204).
-/

namespace Sys2Proof.Machine

/-- The value of a general register as an element, and an element as a general register's value: zero-extended for floating-point types,
sign-extended for integer ones (R202). -/
def elemWord (y v : Nat) : Word :=
  if y ≤ 2 then BitVec.ofNat 64 (v % 2 ^ tyWidth y) else BitVec.ofInt 64 (signedElem (tyWidth y) v)

/-- The element number that register[40:32] names (R202). -/
def elemIndex (y : Nat) (x : Word) : Nat := nbits x.toNat 40 32 % tyCount y

def execVdup (d : BitVec 3) (x : BitVec 7) (m : BitVec 2) (y : BitVec 3) (s : State) : Host.Outcome State Fault Refusal :=
  done (issue [x] [x] (fun s =>
    let v := (s.x x.toNat).toNat
    (s.updMe fun sl => sl.setW d.toNat (mapElems (tyWidth y.toNat) (sl.m m.toNat) (sl.w d.toNat) fun _ => v)).retire 4) s)

def execVlane (x : BitVec 7) (a y : BitVec 3) (s : State) : Host.Outcome State Fault Refusal :=
  done (issue [x] [x] (fun s =>
    s.finish x (elemWord y.toNat (elemOf (s.me.w a.toNat) (tyWidth y.toNat) (elemIndex y.toNat (s.x x.toNat))))) s)

def execVins (d : BitVec 3) (x : BitVec 7) (y : BitVec 3) (s : State) : Host.Outcome State Fault Refusal :=
  done (issue [x] [x] (fun s =>
    let v := s.x x.toNat
    let w := tyWidth y.toNat
    (s.updMe fun sl => sl.setW d.toNat (ofElems w ((List.range (4096 / w)).map fun e =>
      if e = elemIndex y.toNat v then v.toNat else elemOf (sl.w d.toNat) w e))).retire 4) s)

/-- The indices are read before any lane is written. -/
def execVperm (d a : BitVec 3) (m : BitVec 2) (_y : BitVec 3) :=
  opLanes d m 32 fun sl i => elemOf (sl.w a.toNat) 32 (elemOf (sl.w d.toNat) 32 i % 128)

def execViota (d : BitVec 3) (x : BitVec 7) (m : BitVec 2) (y u : BitVec 3) (s : State) : Host.Outcome State Fault Refusal :=
  done (issue [x] [x] (fun s =>
    let v := (s.x x.toNat).toNat
    (s.updMe fun sl => sl.setW d.toNat (mapElems (tyWidth y.toNat) (sl.m m.toNat) (sl.w d.toNat) fun e =>
      v + e * (u.toNat + 1))).retire 4) s)

/-! ### Reductions (R126, R203) -/

/-- One level of the tree: neighbours combined. -/
def pairUp (op : Nat → Nat → Nat) : List Nat → List Nat
  | a :: b :: l => op a b :: pairUp op l
  | l => l

/-- The pairwise tree of R126. -/
def treeReduce (op : Nat → Nat → Nat) : Nat → List Nat → Nat
  | 0, l => l.headD 0
  | n + 1, l => treeReduce op n (pairUp op l)

/-- A reduction of wa into x(x): inactive lanes contribute the identity. The tree has 7, 8 or 9 levels. -/
def opReduce (x : BitVec 7) (a : BitVec 3) (m : BitVec 2) (y ident : Nat) (op : Nat → Nat → Nat) (s : State) :
    Host.Outcome State Fault Refusal :=
  done (issue [x] [] (fun s =>
    let w := tyWidth y
    let leaves := (List.range (4096 / w)).map fun e =>
      if (s.me.m m.toNat).getLsbD (w * e / 32) then elemOf (s.me.w a.toNat) w e else ident
    s.finish x (elemWord y (treeReduce op 9 leaves))) s)

/-- The identities of R126. -/
def sumIdentity (y : Nat) : Nat := if y ≤ 2 then 2 ^ (tyWidth y - 1) else 0
def minIdentity (y : Nat) : Nat :=
  if y ≤ 2 then (tyFmt y).emax * 2 ^ (tyFmt y).mb else 2 ^ (tyWidth y - 1) - 1
def maxIdentity (y : Nat) : Nat :=
  if y ≤ 2 then 2 ^ (tyWidth y - 1) + (tyFmt y).emax * 2 ^ (tyFmt y).mb else 2 ^ (tyWidth y - 1)

def execVrsum (x : BitVec 7) (a : BitVec 3) (m : BitVec 2) (y u : BitVec 3) :=
  opReduce x a m y.toNat (sumIdentity y.toNat) fun p q =>
    if y.toNat ≤ 2 then (tyFmt y.toNat).add u.toNat p q else (p + q) % 2 ^ tyWidth y.toNat
def execVrmax (x : BitVec 7) (a : BitVec 3) (m : BitVec 2) (y : BitVec 3) :=
  opReduce x a m y.toNat (maxIdentity y.toNat) fun p q =>
    if y.toNat ≤ 2 then (tyFmt y.toNat).minMax true p q
    else if signedElem (tyWidth y.toNat) p < signedElem (tyWidth y.toNat) q then q else p
def execVrmin (x : BitVec 7) (a : BitVec 3) (m : BitVec 2) (y : BitVec 3) :=
  opReduce x a m y.toNat (minIdentity y.toNat) fun p q =>
    if y.toNat ≤ 2 then (tyFmt y.toNat).minMax false p q
    else if signedElem (tyWidth y.toNat) q < signedElem (tyWidth y.toNat) p then q else p

/-! ### Masks and counts (R202, R204) -/

/-- A mask from its 128 bits. -/
def ofBits (f : Nat → Bool) : BitVec 128 :=
  BitVec.ofNat 128 ((List.range 128).foldr (fun i acc => (f i).toNat + 2 * acc) 0)

/-- Bits of inactive lanes keep their values. -/
def execVmsk (a : BitVec 3) (m u : BitVec 2) (s : State) : Host.Outcome State Fault Refusal :=
  done (issue [] [] (fun s =>
    (s.updMe fun sl => sl.setM u.toNat (ofBits fun i =>
      if (sl.m m.toNat).getLsbD i then elemOf (sl.w a.toNat) 32 i != 0 else (sl.m u.toNat).getLsbD i)).retire 4) s)

def execVcnt (d a : BitVec 3) (m : BitVec 2) (s : State) : Host.Outcome State Fault Refusal :=
  done (issue [] [] (fun s =>
    (s.updMe fun sl => sl.setW d.toNat (ofElems 32 ((List.range 128).map fun b =>
      ((List.range 128).filter fun i =>
        (sl.m m.toNat).getLsbD i && elemOf (sl.w a.toNat) 32 i == b).length))).retire 4) s)

def execVmovmToVector (d : BitVec 3) (u : BitVec 2) (s : State) : Host.Outcome State Fault Refusal :=
  done (issue [] [] (fun s =>
    (s.updMe fun sl => sl.setW d.toNat
      (BitVec.ofNat 4096 ((sl.w d.toNat).toNat / 2 ^ 128 * 2 ^ 128 + (sl.m u.toNat).toNat))).retire 4) s)

def execVmovmToMask (a : BitVec 3) (u : BitVec 2) (s : State) : Host.Outcome State Fault Refusal :=
  done (issue [] [] (fun s =>
    (s.updMe fun sl => sl.setM u.toNat ((sl.w a.toNat).setWidth 128)).retire 4) s)

end Sys2Proof.Machine
end

