-- ==== Sys2Proof/Machine/Dispatch.lean ====
section
/-!
DEFINITION. The meaning of every instruction and event: one arm per constructor of `Instr`.
-/

namespace Sys2Proof.Machine

def exec (i : Instr) (s : State) : Host.Outcome State Fault Refusal :=
  match i with
  | .add v_d v_a v_b => Sys2Proof.Machine.execAdd v_d v_a v_b s
  | .sub v_d v_a v_b => Sys2Proof.Machine.execSub v_d v_a v_b s
  | .and v_d v_a v_b => Sys2Proof.Machine.execAnd v_d v_a v_b s
  | .or v_d v_a v_b => Sys2Proof.Machine.execOr v_d v_a v_b s
  | .xor v_d v_a v_b => Sys2Proof.Machine.execXor v_d v_a v_b s
  | .andn v_d v_a v_b => Sys2Proof.Machine.execAndn v_d v_a v_b s
  | .sll v_d v_a v_b => Sys2Proof.Machine.execSll v_d v_a v_b s
  | .srl v_d v_a v_b => Sys2Proof.Machine.execSrl v_d v_a v_b s
  | .sra v_d v_a v_b => Sys2Proof.Machine.execSra v_d v_a v_b s
  | .rotr v_d v_a v_b => Sys2Proof.Machine.execRotr v_d v_a v_b s
  | .mins v_d v_a v_b => Sys2Proof.Machine.execMins v_d v_a v_b s
  | .maxs v_d v_a v_b => Sys2Proof.Machine.execMaxs v_d v_a v_b s
  | .minu v_d v_a v_b => Sys2Proof.Machine.execMinu v_d v_a v_b s
  | .maxu v_d v_a v_b => Sys2Proof.Machine.execMaxu v_d v_a v_b s
  | .slt v_d v_a v_b => Sys2Proof.Machine.execSlt v_d v_a v_b s
  | .sltu v_d v_a v_b => Sys2Proof.Machine.execSltu v_d v_a v_b s
  | .seq v_d v_a v_b => Sys2Proof.Machine.execSeq v_d v_a v_b s
  | .sne v_d v_a v_b => Sys2Proof.Machine.execSne v_d v_a v_b s
  | .addw v_d v_a v_b => Sys2Proof.Machine.execAddw v_d v_a v_b s
  | .subw v_d v_a v_b => Sys2Proof.Machine.execSubw v_d v_a v_b s
  | .sllw v_d v_a v_b => Sys2Proof.Machine.execSllw v_d v_a v_b s
  | .srlw v_d v_a v_b => Sys2Proof.Machine.execSrlw v_d v_a v_b s
  | .sraw v_d v_a v_b => Sys2Proof.Machine.execSraw v_d v_a v_b s
  | .sel v_d v_a v_b => Sys2Proof.Machine.execSel v_d v_a v_b s
  | .mul v_d v_a v_b => Sys2Proof.Machine.execMul v_d v_a v_b s
  | .mulh v_d v_a v_b => Sys2Proof.Machine.execMulh v_d v_a v_b s
  | .mulhu v_d v_a v_b => Sys2Proof.Machine.execMulhu v_d v_a v_b s
  | .mulw v_d v_a v_b => Sys2Proof.Machine.execMulw v_d v_a v_b s
  | .mad v_d v_a v_b => Sys2Proof.Machine.execMad v_d v_a v_b s
  | .div v_d v_a v_b => Sys2Proof.Machine.execDiv v_d v_a v_b s
  | .divu v_d v_a v_b => Sys2Proof.Machine.execDivu v_d v_a v_b s
  | .rem v_d v_a v_b => Sys2Proof.Machine.execRem v_d v_a v_b s
  | .remu v_d v_a v_b => Sys2Proof.Machine.execRemu v_d v_a v_b s
  | .divw v_d v_a v_b => Sys2Proof.Machine.execDivw v_d v_a v_b s
  | .remw v_d v_a v_b => Sys2Proof.Machine.execRemw v_d v_a v_b s
  | .clz v_d v_a => Sys2Proof.Machine.execClz v_d v_a s
  | .ctz v_d v_a => Sys2Proof.Machine.execCtz v_d v_a s
  | .popc v_d v_a => Sys2Proof.Machine.execPopc v_d v_a s
  | .brev v_d v_a => Sys2Proof.Machine.execBrev v_d v_a s
  | .bswap v_d v_a => Sys2Proof.Machine.execBswap v_d v_a s
  | .bfx v_d v_a v_b => Sys2Proof.Machine.execBfx v_d v_a v_b s
  | .bfxu v_d v_a v_b => Sys2Proof.Machine.execBfxu v_d v_a v_b s
  | .bfi v_d v_a v_b => Sys2Proof.Machine.execBfi v_d v_a v_b s
  | .sext v_d v_a v_b => Sys2Proof.Machine.execSext v_d v_a v_b s
  | .addi v_d v_a v_i => Sys2Proof.Machine.execAddi v_d v_a v_i s
  | .andi v_d v_a v_i => Sys2Proof.Machine.execAndi v_d v_a v_i s
  | .ori v_d v_a v_i => Sys2Proof.Machine.execOri v_d v_a v_i s
  | .xori v_d v_a v_i => Sys2Proof.Machine.execXori v_d v_a v_i s
  | .slti v_d v_a v_i => Sys2Proof.Machine.execSlti v_d v_a v_i s
  | .sltiu v_d v_a v_i => Sys2Proof.Machine.execSltiu v_d v_a v_i s
  | .slli v_d v_a v_s => Sys2Proof.Machine.execSlli v_d v_a v_s s
  | .srli v_d v_a v_s => Sys2Proof.Machine.execSrli v_d v_a v_s s
  | .srai v_d v_a v_s => Sys2Proof.Machine.execSrai v_d v_a v_s s
  | .rotri v_d v_a v_s => Sys2Proof.Machine.execRotri v_d v_a v_s s
  | .lea v_d v_a v_b v_s => Sys2Proof.Machine.execLea v_d v_a v_b v_s s
  | .mkg v_d v_a => Sys2Proof.Machine.execMkg v_d v_a s
  | .li v_d v_imm => Sys2Proof.Machine.execLi v_d v_imm s
  | .liu v_d v_imm => Sys2Proof.Machine.execLiu v_d v_imm s
  | .lihi v_d v_imm => Sys2Proof.Machine.execLihi v_d v_imm s
  | .addl v_d v_imm => Sys2Proof.Machine.execAddl v_d v_imm s
  | .andl v_d v_imm => Sys2Proof.Machine.execAndl v_d v_imm s
  | .orl v_d v_imm => Sys2Proof.Machine.execOrl v_d v_imm s
  | .xorl v_d v_imm => Sys2Proof.Machine.execXorl v_d v_imm s
  | .beq v_a v_b v_o => Sys2Proof.Machine.execBeq v_a v_b v_o s
  | .bne v_a v_b v_o => Sys2Proof.Machine.execBne v_a v_b v_o s
  | .blt v_a v_b v_o => Sys2Proof.Machine.execBlt v_a v_b v_o s
  | .bge v_a v_b v_o => Sys2Proof.Machine.execBge v_a v_b v_o s
  | .bltu v_a v_b v_o => Sys2Proof.Machine.execBltu v_a v_b v_o s
  | .bgeu v_a v_b v_o => Sys2Proof.Machine.execBgeu v_a v_b v_o s
  | .j v_o => Sys2Proof.Machine.execJ v_o s
  | .jal v_o => Sys2Proof.Machine.execJal v_o s
  | .jalr v_d v_a v_i => Sys2Proof.Machine.execJalr v_d v_a v_i s
  | .coil v_n v_r v_s v_t v_u => Sys2Proof.Machine.execCoil v_n v_r v_s v_t v_u s
  | .join => Sys2Proof.Machine.execJoin s
  | .leave => Sys2Proof.Machine.execLeave s
  | .detach => Sys2Proof.Machine.execDetach s
  | .lag v_d => Sys2Proof.Machine.execLag v_d s
  | .voteany v_d v_a => Sys2Proof.Machine.execVoteany v_d v_a s
  | .voteall v_d v_a => Sys2Proof.Machine.execVoteall v_d v_a s
  | .votecnt v_d v_a => Sys2Proof.Machine.execVotecnt v_d v_a s
  | .votemax v_d v_a => Sys2Proof.Machine.execVotemax v_d v_a s
  | .ld v_t v_b v_z v_o v_r => Sys2Proof.Machine.execLd v_t v_b v_z v_o v_r s
  | .st v_t v_b v_z v_o v_r => Sys2Proof.Machine.execSt v_t v_b v_z v_o v_r s
  | .ldf v_t v_b v_o v_r => Sys2Proof.Machine.execLdf v_t v_b v_o v_r s
  | .ldfe v_t v_b v_o v_r => Sys2Proof.Machine.execLdfe v_t v_b v_o v_r s
  | .stfe v_t v_b v_o v_r => Sys2Proof.Machine.execStfe v_t v_b v_o v_r s
  | .stf v_t v_b v_o v_r => Sys2Proof.Machine.execStf v_t v_b v_o v_r s
  | .sete v_b v_o v_r => Sys2Proof.Machine.execSete v_b v_o v_r s
  | .gld v_t v_b v_z v_o v_r => Sys2Proof.Machine.execGld v_t v_b v_z v_o v_r s
  | .aaddD v_d v_a v_v v_c => Sys2Proof.Machine.execAaddD v_d v_a v_v v_c s
  | .aandD v_d v_a v_v v_c => Sys2Proof.Machine.execAandD v_d v_a v_v v_c s
  | .aorD v_d v_a v_v v_c => Sys2Proof.Machine.execAorD v_d v_a v_v v_c s
  | .axorD v_d v_a v_v v_c => Sys2Proof.Machine.execAxorD v_d v_a v_v v_c s
  | .aminD v_d v_a v_v v_c => Sys2Proof.Machine.execAminD v_d v_a v_v v_c s
  | .amaxD v_d v_a v_v v_c => Sys2Proof.Machine.execAmaxD v_d v_a v_v v_c s
  | .aminuD v_d v_a v_v v_c => Sys2Proof.Machine.execAminuD v_d v_a v_v v_c s
  | .amaxuD v_d v_a v_v v_c => Sys2Proof.Machine.execAmaxuD v_d v_a v_v v_c s
  | .aswapD v_d v_a v_v => Sys2Proof.Machine.execAswapD v_d v_a v_v s
  | .acasD v_d v_a v_v => Sys2Proof.Machine.execAcasD v_d v_a v_v s
  | .aaddW v_d v_a v_v v_c => Sys2Proof.Machine.execAaddW v_d v_a v_v v_c s
  | .aandW v_d v_a v_v v_c => Sys2Proof.Machine.execAandW v_d v_a v_v v_c s
  | .aorW v_d v_a v_v v_c => Sys2Proof.Machine.execAorW v_d v_a v_v v_c s
  | .axorW v_d v_a v_v v_c => Sys2Proof.Machine.execAxorW v_d v_a v_v v_c s
  | .aminW v_d v_a v_v v_c => Sys2Proof.Machine.execAminW v_d v_a v_v v_c s
  | .amaxW v_d v_a v_v v_c => Sys2Proof.Machine.execAmaxW v_d v_a v_v v_c s
  | .aminuW v_d v_a v_v v_c => Sys2Proof.Machine.execAminuW v_d v_a v_v v_c s
  | .amaxuW v_d v_a v_v v_c => Sys2Proof.Machine.execAmaxuW v_d v_a v_v v_c s
  | .aswapW v_d v_a v_v => Sys2Proof.Machine.execAswapW v_d v_a v_v s
  | .acasW v_d v_a v_v => Sys2Proof.Machine.execAcasW v_d v_a v_v s
  | .afadd v_d v_a v_v v_c => Sys2Proof.Machine.execAfadd v_d v_a v_v v_c s
  | .afmin v_d v_a v_v v_c => Sys2Proof.Machine.execAfmin v_d v_a v_v v_c s
  | .afmax v_d v_a v_v v_c => Sys2Proof.Machine.execAfmax v_d v_a v_v v_c s
  | .bari v_a v_b => Sys2Proof.Machine.execBari v_a v_b s
  | .bara v_d v_a v_b => Sys2Proof.Machine.execBara v_d v_a v_b s
  | .barw v_d v_a v_b => Sys2Proof.Machine.execBarw v_d v_a v_b s
  | .bart v_d v_a v_b => Sys2Proof.Machine.execBart v_d v_a v_b s
  | .putx v_d v_a v_b => Sys2Proof.Machine.execPutx v_d v_a v_b s
  | .emptyx v_d v_a => Sys2Proof.Machine.execEmptyx v_d v_a s
  | .spawn v_d v_a v_b => Sys2Proof.Machine.execSpawn v_d v_a v_b s
  | .fence => Sys2Proof.Machine.execFence s
  | .fenceE => Sys2Proof.Machine.execFenceE s
  | .fenceI => Sys2Proof.Machine.execFenceI s
  | .vld v_w v_a v_m => Sys2Proof.Machine.execVld v_w v_a v_m s
  | .vst v_w v_a v_m => Sys2Proof.Machine.execVst v_w v_a v_m s
  | .vlds v_w v_a v_b v_m => Sys2Proof.Machine.execVlds v_w v_a v_b v_m s
  | .vsts v_w v_a v_b v_m => Sys2Proof.Machine.execVsts v_w v_a v_b v_m s
  | .vldx v_w v_a v_i v_m => Sys2Proof.Machine.execVldx v_w v_a v_i v_m s
  | .vstx v_w v_a v_i v_m => Sys2Proof.Machine.execVstx v_w v_a v_i v_m s
  | .vadd v_d v_a v_b v_m v_y v_r => Sys2Proof.Machine.execVadd v_d v_a v_b v_m v_y v_r s
  | .vsub v_d v_a v_b v_m v_y v_r => Sys2Proof.Machine.execVsub v_d v_a v_b v_m v_y v_r s
  | .vmul v_d v_a v_b v_m v_y v_r => Sys2Proof.Machine.execVmul v_d v_a v_b v_m v_y v_r s
  | .vfma v_d v_a v_b v_c v_m v_y v_r => Sys2Proof.Machine.execVfma v_d v_a v_b v_c v_m v_y v_r s
  | .vmin v_d v_a v_b v_m v_y => Sys2Proof.Machine.execVmin v_d v_a v_b v_m v_y s
  | .vmax v_d v_a v_b v_m v_y => Sys2Proof.Machine.execVmax v_d v_a v_b v_m v_y s
  | .vabs v_d v_a v_m v_y => Sys2Proof.Machine.execVabs v_d v_a v_m v_y s
  | .vneg v_d v_a v_m v_y => Sys2Proof.Machine.execVneg v_d v_a v_m v_y s
  | .vcmpeq v_d v_a v_b v_m v_y => Sys2Proof.Machine.execVcmpeq v_d v_a v_b v_m v_y s
  | .vcmplt v_d v_a v_b v_m v_y => Sys2Proof.Machine.execVcmplt v_d v_a v_b v_m v_y s
  | .vcmple v_d v_a v_b v_m v_y => Sys2Proof.Machine.execVcmple v_d v_a v_b v_m v_y s
  | .vsel v_d v_a v_b v_c v_m v_y => Sys2Proof.Machine.execVsel v_d v_a v_b v_c v_m v_y s
  | .vdiv v_d v_a v_b v_m v_y v_r => Sys2Proof.Machine.execVdiv v_d v_a v_b v_m v_y v_r s
  | .vsqrt v_d v_a v_m v_y v_r => Sys2Proof.Machine.execVsqrt v_d v_a v_m v_y v_r s
  | .vfms v_d v_a v_b v_c v_m v_y v_r => Sys2Proof.Machine.execVfms v_d v_a v_b v_c v_m v_y v_r s
  | .viadd v_d v_a v_b v_m v_y => Sys2Proof.Machine.execViadd v_d v_a v_b v_m v_y s
  | .visub v_d v_a v_b v_m v_y => Sys2Proof.Machine.execVisub v_d v_a v_b v_m v_y s
  | .vimul v_d v_a v_b v_m v_y => Sys2Proof.Machine.execVimul v_d v_a v_b v_m v_y s
  | .vimad v_d v_a v_b v_c v_m v_y => Sys2Proof.Machine.execVimad v_d v_a v_b v_c v_m v_y s
  | .vand v_d v_a v_b v_m v_y => Sys2Proof.Machine.execVand v_d v_a v_b v_m v_y s
  | .vor v_d v_a v_b v_m v_y => Sys2Proof.Machine.execVor v_d v_a v_b v_m v_y s
  | .vxor v_d v_a v_b v_m v_y => Sys2Proof.Machine.execVxor v_d v_a v_b v_m v_y s
  | .vshl v_d v_a v_b v_m v_y => Sys2Proof.Machine.execVshl v_d v_a v_b v_m v_y s
  | .vshr v_d v_a v_b v_m v_y => Sys2Proof.Machine.execVshr v_d v_a v_b v_m v_y s
  | .vsra v_d v_a v_b v_m v_y => Sys2Proof.Machine.execVsra v_d v_a v_b v_m v_y s
  | .vimin v_d v_a v_b v_m v_y => Sys2Proof.Machine.execVimin v_d v_a v_b v_m v_y s
  | .vimax v_d v_a v_b v_m v_y => Sys2Proof.Machine.execVimax v_d v_a v_b v_m v_y s
  | .vicmpeq v_d v_a v_b v_m v_y => Sys2Proof.Machine.execVicmpeq v_d v_a v_b v_m v_y s
  | .vicmplt v_d v_a v_b v_m v_y => Sys2Proof.Machine.execVicmplt v_d v_a v_b v_m v_y s
  | .vidot4 v_d v_a v_b v_c v_m => Sys2Proof.Machine.execVidot4 v_d v_a v_b v_c v_m s
  | .vcvt v_d v_a v_b v_c v_m v_y v_r => Sys2Proof.Machine.execVcvt v_d v_a v_b v_c v_m v_y v_r s
  | .vdec v_d v_a v_b v_c v_m => Sys2Proof.Machine.execVdec v_d v_a v_b v_c v_m s
  | .venc v_d v_a v_b v_c v_m v_r => Sys2Proof.Machine.execVenc v_d v_a v_b v_c v_m v_r s
  | .vscl v_d v_a v_b v_c v_m v_r => Sys2Proof.Machine.execVscl v_d v_a v_b v_c v_m v_r s
  | .vqnt v_d v_a v_b v_c v_m v_y v_r => Sys2Proof.Machine.execVqnt v_d v_a v_b v_c v_m v_y v_r s
  | .vsgn1 v_d v_a v_b v_c v_m => Sys2Proof.Machine.execVsgn1 v_d v_a v_b v_c v_m s
  | .vdup v_d v_x v_m v_y => Sys2Proof.Machine.execVdup v_d v_x v_m v_y s
  | .vlane v_x v_a v_y => Sys2Proof.Machine.execVlane v_x v_a v_y s
  | .vins v_d v_x v_y => Sys2Proof.Machine.execVins v_d v_x v_y s
  | .vperm v_d v_a v_m v_y => Sys2Proof.Machine.execVperm v_d v_a v_m v_y s
  | .viota v_d v_x v_m v_y v_u => Sys2Proof.Machine.execViota v_d v_x v_m v_y v_u s
  | .vrsum v_x v_a v_m v_y v_u => Sys2Proof.Machine.execVrsum v_x v_a v_m v_y v_u s
  | .vrmax v_x v_a v_m v_y => Sys2Proof.Machine.execVrmax v_x v_a v_m v_y s
  | .vrmin v_x v_a v_m v_y => Sys2Proof.Machine.execVrmin v_x v_a v_m v_y s
  | .vmsk v_a v_m v_u => Sys2Proof.Machine.execVmsk v_a v_m v_u s
  | .vexp2 v_d v_a v_m v_y v_r => Sys2Proof.Machine.execVexp2 v_d v_a v_m v_y v_r s
  | .vlog2 v_d v_a v_m v_y v_r => Sys2Proof.Machine.execVlog2 v_d v_a v_m v_y v_r s
  | .vrcp v_d v_a v_m v_y v_r => Sys2Proof.Machine.execVrcp v_d v_a v_m v_y v_r s
  | .vrsq v_d v_a v_m v_y v_r => Sys2Proof.Machine.execVrsq v_d v_a v_m v_y v_r s
  | .vexp v_d v_a v_m v_y v_r => Sys2Proof.Machine.execVexp v_d v_a v_m v_y v_r s
  | .vbuck v_d v_x v_a v_m => Sys2Proof.Machine.execVbuck v_d v_x v_a v_m s
  | .vcnt v_d v_a v_m => Sys2Proof.Machine.execVcnt v_d v_a v_m s
  | .vmovmToVector v_d v_u => Sys2Proof.Machine.execVmovmToVector v_d v_u s
  | .vmovmToMask v_a v_u => Sys2Proof.Machine.execVmovmToMask v_a v_u s
  | .mcfg v_a v_b => Sys2Proof.Machine.execMcfg v_a v_b s
  | .mzero v_c => Sys2Proof.Machine.execMzero v_c s
  | .mma v_a v_b v_c => Sys2Proof.Machine.execMma v_a v_b v_c s
  | .mmas v_a v_b v_c => Sys2Proof.Machine.execMmas v_a v_b v_c s
  | .mout v_a v_b v_c => Sys2Proof.Machine.execMout v_a v_b v_c s
  | .min v_a v_b v_c => Sys2Proof.Machine.execMin v_a v_b v_c s
  | .msave v_a v_b => Sys2Proof.Machine.execMsave v_a v_b s
  | .mrest v_a v_b => Sys2Proof.Machine.execMrest v_a v_b s
  | .msync => Sys2Proof.Machine.execMsync s
  | .tfpin v_a v_b v_c => Sys2Proof.Machine.execTfpin v_a v_b v_c s
  | .tfrel v_a => Sys2Proof.Machine.execTfrel v_a s
  | .pull v_a v_b v_c => Sys2Proof.Machine.execPull v_a v_b v_c s
  | .pullx v_a v_b v_c => Sys2Proof.Machine.execPullx v_a v_b v_c s
  | .pullr v_a v_b v_c => Sys2Proof.Machine.execPullr v_a v_b v_c s
  | .pullm v_a v_b v_c => Sys2Proof.Machine.execPullm v_a v_b v_c s
  | .cpull v_a v_b v_c => Sys2Proof.Machine.execCpull v_a v_b v_c s
  | .pub v_a v_b => Sys2Proof.Machine.execPub v_a v_b s
  | .puba v_a v_b => Sys2Proof.Machine.execPuba v_a v_b s
  | .watch v_a v_b v_c => Sys2Proof.Machine.execWatch v_a v_b v_c s
  | .wrange v_a v_b v_c => Sys2Proof.Machine.execWrange v_a v_b v_c s
  | .wwait v_a v_c => Sys2Proof.Machine.execWwait v_a v_c s
  | .wcancel v_c => Sys2Proof.Machine.execWcancel v_c s
  | .psync => Sys2Proof.Machine.execPsync s
  | .gupd v_a v_b v_c => Sys2Proof.Machine.execGupd v_a v_b v_c s
  | .gbel v_a v_b v_c => Sys2Proof.Machine.execGbel v_a v_b v_c s
  | .gadd v_a v_b v_c => Sys2Proof.Machine.execGadd v_a v_b v_c s
  | .gelim v_a v_b v_c => Sys2Proof.Machine.execGelim v_a v_b v_c s
  | .gdamp v_a v_b v_c => Sys2Proof.Machine.execGdamp v_a v_b v_c s
  | .gsolve v_a v_c => Sys2Proof.Machine.execGsolve v_a v_c s
  | .gres v_a v_b v_c => Sys2Proof.Machine.execGres v_a v_b v_c s
  | .gsync => Sys2Proof.Machine.execGsync s
  | .tqput v_a v_b v_c => Sys2Proof.Machine.execTqput v_a v_b v_c s
  | .tqget v_a v_b => Sys2Proof.Machine.execTqget v_a v_b s
  | .exit => Sys2Proof.Machine.execExit s
  | .yield => Sys2Proof.Machine.execYield s
  | .sleep v_a => Sys2Proof.Machine.execSleep v_a s
  | .trap v_a => Sys2Proof.Machine.execTrap v_a s
  | .eret => Sys2Proof.Machine.execEret s
  | .sret => Sys2Proof.Machine.execSret s
  | .csave v_a v_b => Sys2Proof.Machine.execCsave v_a v_b s
  | .crest v_a v_b => Sys2Proof.Machine.execCrest v_a v_b s
  | .brk => Sys2Proof.Machine.execBrk s
  | .scrub v_a => Sys2Proof.Machine.execScrub v_a s
  | .pause v_a => Sys2Proof.Machine.execPause v_a s
  | .l2wb v_a v_b => Sys2Proof.Machine.execL2wb v_a v_b s
  | .l2inv v_a v_b => Sys2Proof.Machine.execL2inv v_a v_b s
  | .l2wbi v_a v_b => Sys2Proof.Machine.execL2wbi v_a v_b s
  | .rinv v_a v_b => Sys2Proof.Machine.execRinv v_a v_b s
  | .l2hm v_a v_b => Sys2Proof.Machine.execL2hm v_a v_b s
  | .l2pf v_a v_b => Sys2Proof.Machine.execL2pf v_a v_b s
  | .mfs v_d v_s => Sys2Proof.Machine.execMfs v_d v_s s
  | .mts v_a v_s => Sys2Proof.Machine.execMts v_a v_s s
  | .illegalInstruction v_w => Sys2Proof.Machine.execIllegalInstruction v_w s
  | .registerWrite v_unit v_reg v_v => Sys2Proof.Machine.execRegisterWrite v_unit v_reg v_v s
  | .utimerWrite v_sl v_v => Sys2Proof.Machine.execUtimerWrite v_sl v_v s
  | .stimerWrite v_sl v_v => Sys2Proof.Machine.execStimerWrite v_sl v_v s
  | .slockWrite v_sl v_v => Sys2Proof.Machine.execSlockWrite v_sl v_v s
  | .hmaskWrite v_sl v_k v_v => Sys2Proof.Machine.execHmaskWrite v_sl v_k v_v s
  | .rootEntryWrite v_sl v_idx v_v => Sys2Proof.Machine.execRootEntryWrite v_sl v_idx v_v s
  | .treeTableWrite v_sl v_idx v_v => Sys2Proof.Machine.execTreeTableWrite v_sl v_idx v_v s
  | .translationInvalidate v_sl v_idx v_v => Sys2Proof.Machine.execTranslationInvalidate v_sl v_idx v_v s
  | .partitionRegisterWrite v_sl v_idx v_v => Sys2Proof.Machine.execPartitionRegisterWrite v_sl v_idx v_v s
  | .ttdataRead v_sl v_d => Sys2Proof.Machine.execTtdataRead v_sl v_d s
  | .invalidationComplete v_sl => Sys2Proof.Machine.execInvalidationComplete v_sl s
  | .slotTableEntryWrite v_sl v_idx v_v => Sys2Proof.Machine.execSlotTableEntryWrite v_sl v_idx v_v s
  | .taskParameterWrite v_sl v_idx v_v => Sys2Proof.Machine.execTaskParameterWrite v_sl v_idx v_v s
  | .slottabSelect v_sl v_v => Sys2Proof.Machine.execSlottabSelect v_sl v_v s
  | .worldWrite v_sl v_v => Sys2Proof.Machine.execWorldWrite v_sl v_v s
  | .contextWordWrite v_ag v_ctx v_word v_v => Sys2Proof.Machine.execContextWordWrite v_ag v_ctx v_word v_v s
  | .contextEnable v_ag v_ctx v_v => Sys2Proof.Machine.execContextEnable v_ag v_ctx v_v s
  | .errClear v_ag v_ctx => Sys2Proof.Machine.execErrClear v_ag v_ctx s
  | .kpendWrite v_port v_word v_v => Sys2Proof.Machine.execKpendWrite v_port v_word v_v s
  | .kctlRotWrite v_port => Sys2Proof.Machine.execKctlRotWrite v_port s
  | .lstatRetrain v_port => Sys2Proof.Machine.execLstatRetrain v_port s
  | .lstatFailClear v_port v_v => Sys2Proof.Machine.execLstatFailClear v_port v_v s
  | .mlostClear v_m v_lost => Sys2Proof.Machine.execMlostClear v_m v_lost s
  | .hostReadBar1 v_ag v_addr v_n => Sys2Proof.Machine.execHostReadBar1 v_ag v_addr v_n s
  | .hostReadBar2 v_ag v_off v_n => Sys2Proof.Machine.execHostReadBar2 v_ag v_off v_n s
  | .hostWriteDiscard v_ag v_bar v_addr => Sys2Proof.Machine.execHostWriteDiscard v_ag v_bar v_addr s
  | .channelPoll v_ag v_ctx => Sys2Proof.Machine.execChannelPoll v_ag v_ctx s
  | .launchRecord v_ag v_ctx => Sys2Proof.Machine.execLaunchRecord v_ag v_ctx s
  | .stageRecord v_ag v_ctx => Sys2Proof.Machine.execStageRecord v_ag v_ctx s
  | .markerRecord v_ag v_ctx => Sys2Proof.Machine.execMarkerRecord v_ag v_ctx s
  | .inboxPlace v_ag v_ctx => Sys2Proof.Machine.execInboxPlace v_ag v_ctx s
  | .inboxPull v_lin v_k => Sys2Proof.Machine.execInboxPull v_lin v_k s
  | .inboxPacketAccept v_lin v_k => Sys2Proof.Machine.execInboxPacketAccept v_lin v_k s
  | .placePacket v_lin => Sys2Proof.Machine.execPlacePacket v_lin s
  | .balancingInterval v_lin => Sys2Proof.Machine.execBalancingInterval v_lin s
  | .levellingClaim v_lin v_nb => Sys2Proof.Machine.execLevellingClaim v_lin v_nb s
  | .grantRound v_lin => Sys2Proof.Machine.execGrantRound v_lin s
  | .levelledStagePull v_lin v_nb => Sys2Proof.Machine.execLevelledStagePull v_lin v_nb s
  | .levelledAccept v_lin v_nb => Sys2Proof.Machine.execLevelledAccept v_lin v_nb s
  | .levelledCompletionUpdate v_lin v_nb => Sys2Proof.Machine.execLevelledCompletionUpdate v_lin v_nb s
  | .frontEndDeliver v_lin => Sys2Proof.Machine.execFrontEndDeliver v_lin s
  | .strandFetchFill v_sl => Sys2Proof.Machine.execStrandFetchFill v_sl s
  | .coilReplayIssue v_sl => Sys2Proof.Machine.execCoilReplayIssue v_sl s
  | .joinWatchdog v_sl => Sys2Proof.Machine.execJoinWatchdog v_sl s
  | .memoryReply v_id => Sys2Proof.Machine.execMemoryReply v_id s
  | .barwBoundExpire v_sl => Sys2Proof.Machine.execBarwBoundExpire v_sl s
  | .putxLand v_id => Sys2Proof.Machine.execPutxLand v_id s
  | .pageWalkComplete v_lin v_id => Sys2Proof.Machine.execPageWalkComplete v_lin v_id s
  | .sectorFill v_id => Sys2Proof.Machine.execSectorFill v_id s
  | .readPortRead v_id => Sys2Proof.Machine.execReadPortRead v_id s
  | .watchArmArrive v_id => Sys2Proof.Machine.execWatchArmArrive v_id s
  | .watchWithdrawArrive v_id => Sys2Proof.Machine.execWatchWithdrawArrive v_id s
  | .watchAnswer v_id => Sys2Proof.Machine.execWatchAnswer v_id s
  | .watchRefusal v_id => Sys2Proof.Machine.execWatchRefusal v_id s
  | .pullRequestIssue v_lin v_ch => Sys2Proof.Machine.execPullRequestIssue v_lin v_ch s
  | .pullSectorData v_id => Sys2Proof.Machine.execPullSectorData v_id s
  | .cpullPeerReady v_lin v_g => Sys2Proof.Machine.execCpullPeerReady v_lin v_g s
  | .treePullServe v_id => Sys2Proof.Machine.execTreePullServe v_id s
  | .cpullWatchdog v_lin v_g => Sys2Proof.Machine.execCpullWatchdog v_lin v_g s
  | .budgetPeriod v_lin => Sys2Proof.Machine.execBudgetPeriod v_lin s
  | .matrixCommandComplete v_core v_id => Sys2Proof.Machine.execMatrixCommandComplete v_core v_id s
  | .gaussCommandStart v_core => Sys2Proof.Machine.execGaussCommandStart v_core s
  | .gaussCommandComplete v_core => Sys2Proof.Machine.execGaussCommandComplete v_core s
  | .utimerExpire v_sl => Sys2Proof.Machine.execUtimerExpire v_sl s
  | .userInterruptDelivery v_sl => Sys2Proof.Machine.execUserInterruptDelivery v_sl s
  | .stimerExpire v_sl => Sys2Proof.Machine.execStimerExpire v_sl s
  | .supervisorTimerTrap v_sl => Sys2Proof.Machine.execSupervisorTimerTrap v_sl s
  | .slotTerminate v_sl => Sys2Proof.Machine.execSlotTerminate v_sl s
  | .sleepExpire v_sl => Sys2Proof.Machine.execSleepExpire v_sl s
  | .pauseEnd v_sl => Sys2Proof.Machine.execPauseEnd v_sl s
  | .dramScrubRead v_lin v_addr => Sys2Proof.Machine.execDramScrubRead v_lin v_addr s
  | .sramScrubRead v_lin v_addr => Sys2Proof.Machine.execSramScrubRead v_lin v_addr s
  | .agentScrubRead v_ag v_addr => Sys2Proof.Machine.execAgentScrubRead v_ag v_addr s
  | .flitArrival v_port v_k => Sys2Proof.Machine.execFlitArrival v_port v_k s
  | .replayRequest v_port v_k => Sys2Proof.Machine.execReplayRequest v_port v_k s
  | .widthNotice v_port v_width => Sys2Proof.Machine.execWidthNotice v_port v_width s
  | .replayRequestRepeat v_port => Sys2Proof.Machine.execReplayRequestRepeat v_port s
  | .ackTimeoutResend v_port => Sys2Proof.Machine.execAckTimeoutResend v_port s
  | .laneFailure v_port v_lane => Sys2Proof.Machine.execLaneFailure v_port v_lane s
  | .portRetrainComplete v_port => Sys2Proof.Machine.execPortRetrainComplete v_port s
  | .ivExhaustionWarning v_port => Sys2Proof.Machine.execIvExhaustionWarning v_port s
  | .ivLimitReached v_port => Sys2Proof.Machine.execIvLimitReached v_port s
  | .lossTimeout v_m v_lost => Sys2Proof.Machine.execLossTimeout v_m v_lost s
  | .hostLinkDown v_ag => Sys2Proof.Machine.execHostLinkDown v_ag s
  | .functionLevelReset v_ag => Sys2Proof.Machine.execFunctionLevelReset v_ag s
  | .hostLinkUp v_ag => Sys2Proof.Machine.execHostLinkUp v_ag s
  | .hostReadTimeout v_ag v_ctx => Sys2Proof.Machine.execHostReadTimeout v_ag v_ctx s
  | .droopDetect v_m => Sys2Proof.Machine.execDroopDetect v_m s
  | .droopRecover v_m => Sys2Proof.Machine.execDroopRecover v_m s
  | .powerLimitStep v_m => Sys2Proof.Machine.execPowerLimitStep v_m s
  | .thermalStep v_m => Sys2Proof.Machine.execThermalStep v_m s
  | .thermalRecover v_m => Sys2Proof.Machine.execThermalRecover v_m s
  | .thermalHold v_m => Sys2Proof.Machine.execThermalHold v_m s
  | .thermalReset v_m => Sys2Proof.Machine.execThermalReset v_m s
  | .supplyUndervoltReset v_m => Sys2Proof.Machine.execSupplyUndervoltReset v_m s
  | .stretchLimitReset v_m => Sys2Proof.Machine.execStretchLimitReset v_m s
  | .moduleReset v_m => Sys2Proof.Machine.execModuleReset v_m s
  | .unitWake v_core v_unit => Sys2Proof.Machine.execUnitWake v_core v_unit s
  | .firmwareImageWrite v_m v_img => Sys2Proof.Machine.execFirmwareImageWrite v_m v_img s
  | .floorRaise v_m v_floor => Sys2Proof.Machine.execFloorRaise v_m v_floor s
  | .worldCreate v_m v_world v_attr => Sys2Proof.Machine.execWorldCreate v_m v_world v_attr s
  | .worldDestroy v_m v_world => Sys2Proof.Machine.execWorldDestroy v_m v_world s
  | .provision v_m => Sys2Proof.Machine.execProvision v_m s
  | .ownerKeyInstall v_m => Sys2Proof.Machine.execOwnerKeyInstall v_m s
  | .ownerRelease v_m => Sys2Proof.Machine.execOwnerRelease v_m s
  | .retire v_m => Sys2Proof.Machine.execRetire v_m s
  | .storeCompletion v_id => Sys2Proof.Machine.execStoreCompletion v_id s
  | .powerGating v_core v_unit => Sys2Proof.Machine.execPowerGating v_core v_unit s
  | .creelReset v_lin => Sys2Proof.Machine.execCreelReset v_lin s

end Sys2Proof.Machine
end

