-- ==== Sys2Proof/Machine/Turn.lean ====
section
/-!
DEFINITION. What the step function runs: the turn of a slot (R44, R47, R58, R136, R163, R339), the events that are due in a cycle, and the end of
a cycle (R334; log 5, log 6).
-/

namespace Sys2Proof.Machine

abbrev Out := Host.Outcome State Fault Refusal

/-! ### The units that an instruction needs (R313) -/

/-- The gated unit's core and number that a word needs: the matrix engine, the Gaussian engine, the vector unit, a pull channel. -/
def State.unitFor (s : State) (id : Nat) (w : IWord) : Option (Nat × Nat) :=
  let op := code w 26 6
  let core := slotCore id
  if op = 0x30 then some (core, 0)
  else if op = 0x32 then some (core, 1)
  else if 0x29 ≤ op ∧ op ≤ 0x2F then some (core, 2)
  else if op = 0x31 ∧ code w 0 5 ≤ 4 then
    (pickChannel (s.creel (slotLin id)).pulls).map fun ch => (coreAt (slotLin id) ch, 3)
  else none

/-- The slot's world is the unit's last user (R313). -/
def State.useUnit (s : State) (id core unit : Nat) : State :=
  let w := (s.slot id).world.toNat
  if mapGet (s.core core).users 0 unit = w then s else s.updCore core fun k => { k with users := mapPut k.users unit w }

/-- The register fields that an instruction of majors 0x29 to 0x32 names, and those it reads (stages 4 and 5 of R339). -/
def unitRegs : Instr → List (BitVec 7) × List (BitVec 7)
  | .vld _ a _ | .vst _ a _ | .vldx _ a _ _ | .vstx _ a _ _ | .vdup _ a _ _ | .vlane a _ _ | .vins _ a _ | .viota _ a _ _ _
  | .vbuck _ a _ _ | .mzero a | .tfrel a => ([a], [a])
  | .vlds _ a b _ | .vsts _ a b _ | .mcfg a b | .msave a b | .mrest a b | .gsolve a b => ([a, b], [a, b])
  | .vrsum a _ _ _ _ | .vrmax a _ _ _ | .vrmin a _ _ _ => ([a], [])
  | .mma a b c | .mmas a b c | .mout a b c | .min a b c | .gadd a b c | .gelim a b c | .gdamp a b c => ([a, b, c], [a, b, c])
  | .tfpin a b c | .gres a b c => ([a, b, c], [a, b])
  | .pull a b c | .pullx a b c | .pullr a b c | .pullm a b c | .cpull a b c | .gupd a b c | .gbel a b c =>
    ([a, b, c, c + 1], [a, b, c, c + 1])
  | _ => ([], [])

/-- The instruction fails at a stage before it needs its unit (R340). -/
def State.failsEarly (s : State) (i : Instr) : Bool :=
  match i with
  | .illegalInstruction _ => true
  | i => (s.me.outside (unitRegs i).1).isSome || (s.me.rfault (unitRegs i).2).isSome

/-- An instruction goes on by `go` once the unit it needs is awake (R313). A unit that failed its check never is (R388). What fails at stages 2 to 5
raises at its slot's turn whatever the unit (R340). -/
def State.withUnit (s : State) (w : IWord) (i : Instr) (go : State → Out) : Out :=
  match s.unitFor s.cur w with
  | none => go s
  | some (core, unit) =>
    match mapFind (s.core core).gated unit with
    | none => go (s.useUnit s.cur core unit)
    | some k => if s.failsEarly i then go s else if k < 64 then execUnitWake core unit s else done s

/-- The slot issues an instruction. -/
def State.issueWord (s : State) (w x : IWord) : Out :=
  s.withUnit w (decodeOrIllegal w x) fun s => exec (decodeOrIllegal w x) s

/-! ### A slot's turn -/

/-- The next entry of the slack queue that the slot may issue: two cycles after its delivery (R44). -/
def State.queueHead (s : State) : Option QEntry :=
  match s.me.queue with
  | e :: _ => if e.at_ + 2 ≤ s.cycle then some e else none
  | [] => none

/-- The slot issues at an instruction boundary: its frame's next word, the oldest entry of its queue, or the word that strand fetch gives. -/
def State.issueTurn (s : State) : Out :=
  let sl := s.me
  match sl.replay with
  | some w =>
    s.withUnit w (decodeOrIllegal w 0) fun s => execCoilReplayIssue s.cur s
  | none =>
    if sl.member = .attached then
      match s.queueHead with
      | none => done s
      | some e =>
        match e.fault with
        | some t => done (s.trap t)
        | none => s.issueWord e.word e.ext
    else
      match s.strandFetch s.cur with
      | (s, .error t) => done (s.trap t)
      | (s, .ok none) => done s
      | (s, .ok (some (w, x))) => s.issueWord w x

/-- A wait that its slot's turns count or end: one that has raised a trap, YIELD, PAUSE, a range form's next page (R293), and a trap entry whose save
waits for the slot's accesses (R327). A slot with any other misses its turn (R44). -/
def State.waitTurn (s : State) : Out :=
  match s.me.wait with
  | .trapping t => done (s.trap t)
  | .yield n => done (if n ≤ 1 then s.retire 4 else s.wait (.yield (n - 1)))
  | .pause n => if n ≤ 1 then execPauseEnd s.cur s else done (s.wait (.pause (n - 1)))
  | .sweep w => done (s.sweepTurn w)
  | .entry a t att =>
    done (if !(s.outstanding s.cur).isEmpty then s
      else if s.unhandled s.cur then s.terminate s.cur a t
      else s.enterTrap s.cur a t att)
  | _ => done s

/-- R44, R339: the turn of a slot. Events come first: the supervisor timer, then a user interrupt. A member that another slot's turn of the same cycle
released uses its own turn of that cycle when it is still to come: turns of one cycle come in rising order of slots (log 54). -/
def State.slotTurn (s : State) (id : Nat) : Out :=
  let s := { s with cur := id }
  let sl := s.me
  if !sl.busy || sl.terminating then done s
  else if s.timerTakes id then execSupervisorTimerTrap id s
  else if s.userTakes id then execUserInterruptDelivery id s
  else if sl.wait.boundary then s.issueTurn
  else s.waitTurn

/-! ### Steps from outside -/

/-- The steps that a host, a link, a sensor or the housekeeping controller causes, and those whose moment the spec leaves to the part (log 6). -/
def fromOutside : Instr → Bool
  | .registerWrite _ r _ => decide (0x10000 ≤ r)
  | .contextWordWrite _ _ _ _ | .contextEnable _ _ _ | .errClear _ _ | .kpendWrite _ _ _ | .kctlRotWrite _ | .lstatRetrain _
  | .lstatFailClear _ _ | .mlostClear _ _ | .hostReadBar1 _ _ _ | .hostReadBar2 _ _ _ | .hostWriteDiscard _ _ _
  | .flitArrival _ _ | .laneFailure _ _ | .hostLinkDown _ | .functionLevelReset _ | .hostLinkUp _
  | .hostReadTimeout _ _ | .droopDetect _ | .droopRecover _ | .powerLimitStep _ | .thermalStep _ | .thermalRecover _
  | .thermalHold _ | .thermalReset _ | .supplyUndervoltReset _ | .stretchLimitReset _ | .moduleReset _ | .unitWake _ _
  | .firmwareImageWrite _ _ | .floorRaise _ _ | .worldCreate _ _ _ | .worldDestroy _ _ | .provision _ | .ownerKeyInstall _
  | .ownerRelease _ | .retire _ | .powerGating _ _ | .creelReset _ | .dramScrubRead _ _ | .sramScrubRead _ _
  | .agentScrubRead _ _ => true
  | _ => false

/-! ### Events that are due -/

/-- The first event of a list that is due. -/
def firstDue {α : Type} (l : List α) (f : α → Option Out) : Option Out := l.findSome? f

/-- A condition and the meaning that it calls for. -/
def due (c : Bool) (o : Unit → Out) : Option Out := if c then some (o ()) else none

/-- Accesses and sector fills (R80, R99, R168). -/
def State.accessEvent (s : State) : Option Out :=
  (firstDue s.fills fun f => due (decide (f.due ≤ s.cycle)) fun _ => execSectorFill f.id s).orElse fun _ =>
    firstDue s.accesses fun a =>
      if !a.ready s then none
      else
        match a.kind, a.parts with
        | .gld _ _, p :: _ => due (s.gldServes a p) fun _ => execReadPortRead a.id s
        | .gld _ _, [] => none
        | k, _ => some (if isStore k then execStoreCompletion a.id s else execMemoryReply a.id s)

/-- Watch arms (R232 to R234). The answer to a CPULL's internal watch is taken by its node. -/
def State.armEvent (s : State) : Option Out :=
  firstDue s.arms fun a =>
    match a.stage with
    | .sent | .queued =>
      due (s.armAdmits a && s.answers (slotLin a.slot) (linOf a.gpa)) fun _ => execWatchArmArrive a.id s
    | .answered _ => due (decide (a.due ≤ s.cycle ∧ a.reg < 16)) fun _ => execWatchAnswer a.id s
    | .refused => due (decide (a.due ≤ s.cycle ∧ a.reg < 16)) fun _ => execWatchRefusal a.id s
    | .withdrawn _ => due (decide (a.due ≤ s.cycle)) fun _ => execWatchWithdrawArrive a.id s
    | _ => none

/-- Requests of the pull engines in flight (R240, R250). -/
def State.requestEvent (s : State) : Option Out :=
  firstDue s.preqs fun r =>
    match s.findPull r.lin r.cmd with
    | none => none
    | some cmd =>
      if r.answered then due (decide (r.due ≤ s.cycle)) fun _ => execPullSectorData r.id s
      else due (s.reqServes r) fun _ => if cmd.fn = 4 then execTreePullServe r.id s else execReadPortRead r.id s

/-- A channel can issue a request, or ask for a walk that it needs (R76, R240, R251). -/
def State.channelMoves (s : State) (lin ch : Nat) : Bool :=
  let cmds := (s.creel lin).pulls
  match cmds.find? fun p => p.ch == ch && !p.issued with
  | none => false
  | some cmd =>
    let out := (s.preqs.filter fun r => r.lin == lin && cmds.any fun p => p.id == r.cmd && p.ch == ch).length
    decide (out < 64) && !s.unitWaits lin (unitReq cmd.id) &&
      match s.nextPull cmd with
      | (_, .wait) => false
      | (s, .chunk _ _ va _ _) =>
        match s.pullSource cmd va with
        | (s, .ok p) => linOf p.gpa == lin || s.budgetOpen lin (if cmd.fn = 4 then 2 else 1)
        | _ => true
      | _ => true

/-- A CPULL's internal watch can be sent, or has its answer (R249, R251). -/
def State.peerReady (s : State) (lin : Nat) (cmd : PullCmd) : Bool :=
  match cmd.awaited (s.creel lin) with
  | none => false
  | some (rank, _) =>
    if cmd.phase = 0 ∧ rank = noParent then true
    else
      match s.treeArm cmd with
      | some a =>
        decide (a.due ≤ s.cycle) &&
          match a.stage with
          | .answered _ | .refused => true
          | _ => false
      | none =>
        (cmd.awaited (s.creel lin)).all (fun x => decide (x.2 < 2 ^ 64)) && !s.unitWaits lin (unitReq cmd.id) &&
          match s.pullSource cmd (treeAddr (s.creel lin) cmd.group rank (treeIseq (s.creel lin) cmd.group)) with
          | (s, .ok p) => linOf p.gpa == lin || s.budgetOpen lin 2
          | _ => true

/-- Commands of a creel's pull engine (R240, R249, R376). -/
def State.pullEvent (s : State) (lin : Nat) (c : Creel) : Option Out :=
  if c.pulls.isEmpty then none
  else
    (firstDue (c.pulls.filter (·.fn == 4)) fun p =>
      (due (s.peerReady lin p) fun _ => execCpullPeerReady lin p.group s).orElse fun _ =>
        due ((p.awaited c).isSome && decide (p.since + 2 ^ c.params.jwd < s.cycle)) fun _ => execCpullWatchdog lin p.group s).orElse
      fun _ => firstDue (List.range 8) fun ch => due (s.channelMoves lin ch) fun _ => execPullRequestIssue lin ch s

/-- The task unit of a creel (R22 to R27, R274, R281 to R284). -/
def State.taskEvent (s : State) (lin : Nat) (c : Creel) : Option Out :=
  [ (fun _ => due (s.intervalDue lin) fun _ => execBalancingInterval lin s : Unit → Option Out),
    fun _ => due (s.grantDue lin) fun _ => execGrantRound lin s,
    fun _ => firstDue [0, 1, 2, 3] fun d => due (s.granted lin d).isSome fun _ => execLevelledStagePull lin d s,
    fun _ => firstDue [0, 1, 2, 3] fun d => due (s.arrived lin d).isSome fun _ => execLevelledAccept lin d s,
    fun _ => firstDue c.inboxes fun (k, b) =>
      due (b.due != 0 && decide (b.due ≤ s.cycle) && c.freeEntry.isSome) fun _ => execInboxPacketAccept lin k s,
    fun _ => due (s.placeable lin).isSome fun _ => execPlacePacket lin s ].findSome? fun f => f ()

/-- Levelling between a creel that has offered and its neighbours (R282, R284). -/
def State.levelEvent (s : State) (lin : Nat) : Option Out :=
  firstDue [0, 1, 2, 3] fun d =>
    match neighbour lin d with
    | none => none
    | some y =>
      (due (s.mayClaim y (opposite d)) fun _ => execLevellingClaim y (opposite d) s).orElse fun _ =>
        due (s.levelledDone lin d) fun _ => execLevelledCompletionUpdate lin d s

/-- A creel's walks, pulls, budget and task unit. -/
def State.creelEvent (s : State) : Option Out :=
  firstDue s.creels fun (lin, c) =>
    [ (fun _ => firstDue c.walks fun w => due (s.walkDone lin w.id).isSome fun _ => execPageWalkComplete lin w.id s : Unit → Option Out),
      fun _ => due (decide (c.periodEnd ≤ s.cycle)) fun _ => execBudgetPeriod lin s,
      fun _ => s.pullEvent lin c,
      fun _ => s.taskEvent lin c,
      fun _ => s.levelEvent lin ].findSome? fun f => f ()

/-- Engines of the cores (R213, R257, R260). -/
def State.engineEvent (s : State) : Option Out :=
  firstDue s.cores fun (core, k) =>
    ((firstDue k.mq fun c => due (s.matrixDue core c) fun _ => execMatrixCommandComplete core c.id s).orElse
      fun _ => due (k.gq.any fun c => c.started && decide (c.due ≤ s.cycle)) fun _ => execGaussCommandComplete core s).orElse
      fun _ => due (!k.gq.isEmpty && (s.gaussNext core).isSome) fun _ => execGaussCommandStart core s

/-- A wait of a slot that something other than its turn ends. -/
def State.waitEvent (s : State) (id : Nat) (sl : Slot) : Option Out :=
  match sl.wait with
  | .ifill _ t => due (decide (t ≤ s.cycle)) fun _ => execStrandFetchFill id s
  | .barw b => due (b != 0 && decide (b ≤ s.cycle)) fun _ => execBarwBoundExpire id s
  | .sleep t => due (t != 0 && decide (t ≤ s.cycle)) fun _ => execSleepExpire id s
  | .join _ d => due (decide (d ≤ s.cycle)) fun _ => execJoinWatchdog id s
  | .inval _ _ => due (s.invalDone id || s.invalShrinks id) fun _ => execInvalidationComplete id s
  | _ => none

/-- Timers, ended waits and terminations of the busy slots (R36, R51, R279, R287, R328). -/
def State.slotEvent (s : State) : Option Out :=
  firstDue s.running fun id =>
    let sl := s.slot id
    [ (fun _ => due (sl.utimerDue s.cycle) fun _ => execUtimerExpire id s : Unit → Option Out),
      fun _ => due (sl.stimerDue s.cycle) fun _ => execStimerExpire id s,
      fun _ => due (s.terminates id) fun _ => execSlotTerminate id s,
      fun _ => s.waitEvent id sl ].findSome? fun f => f ()

/-- Delivery by the front ends (R43). -/
def State.frontEvent (s : State) : Option Out :=
  firstDue (s.weaves.filter fun (_, w) => w.ctx) fun (_, w) =>
    due (s.nextServed w.lin).isSome fun _ => execFrontEndDeliver w.lin s

/-- Submission records of a host port (R298, R299). A context whose record is being read comes first among those polled. -/
def State.agentEvent (s : State) (m k : Nat) (a : Agent) : Option Out :=
  let ag := 2 * m + k
  let order := a.ctxs.filter (fun (h, _) => decide (a.polled < h)) ++ a.ctxs.filter fun (h, _) => decide (h ≤ a.polled)
  ((firstDue a.placed fun (cr, _) => due (s.inboxReady (128 * m + cr) k) fun _ => execInboxPull (128 * m + cr) k s).orElse fun _ =>
    firstDue order fun (h, _) =>
      [ (fun _ => due (s.launchReady ag h).isSome fun _ => execLaunchRecord ag h s : Unit → Option Out),
        fun _ => due (s.stageReady ag h).isSome fun _ => execStageRecord ag h s,
        fun _ => due (s.markerReady ag h).isSome fun _ => execMarkerRecord ag h s,
        fun _ => due (s.placeReady ag h).isSome fun _ => execInboxPlace ag h s ].findSome? fun f => f ()).orElse fun _ =>
    firstDue (order.filter (·.2.hseq.isSome) ++ order) fun (h, c) => due (c.en && (!a.link || s.pollReady ag h)) fun _ => execChannelPoll ag h s

/-- Cerern ports (R365, R366, R368, R385). -/
def State.linkEvent (s : State) (m : Nat) (x : Module) : Option Out :=
  firstDue x.ports fun (k, p) =>
    let port := 32 * m + k
    [ (fun _ => firstDue p.control fun c =>
        (due (controlOp c == 1) fun _ => execReplayRequest port c s).orElse fun _ =>
          due (controlOp c == 2) fun _ => execWidthNotice port (nbits (controlWord c 1) 1 0) s : Unit → Option Out),
      fun _ => due (s.retrainDone port) fun _ => execPortRetrainComplete port s,
      fun _ => due (s.repeatDue port) fun _ => execReplayRequestRepeat port s,
      fun _ => due (s.ackDue port) fun _ => execAckTimeoutResend port s,
      fun _ => due (s.ivWarns port) fun _ => execIvExhaustionWarning port s,
      fun _ => due (s.ivLimit port) fun _ => execIvLimitReached port s ].findSome? fun f => f ()

/-- Host ports, Cerern ports, worlds and losses of a module. -/
def State.moduleEvent (s : State) : Option Out :=
  firstDue s.mods fun (m, x) =>
    [ (fun _ => firstDue x.agents fun (k, a) => s.agentEvent m k a : Unit → Option Out),
      fun _ => s.linkEvent m x,
      fun _ => x.writing.bind fun (img, _) => due (x.written img s.cycle) fun _ => execFirmwareImageWrite m img s,
      fun _ => firstDue x.dying fun (w, _) => due (s.worldEnds m w) fun _ => execWorldDestroy m w s,
      fun _ => ((s.cutOff m).orElse fun _ => s.overdue m).map fun lost => execLossTimeout m lost s ].findSome? fun f => f ()

/-- The first event that is due, in a fixed order (log 6). -/
def State.dueEvent (s : State) : Option Out :=
  [ (fun _ => s.accessEvent : Unit → Option Out), fun _ => s.armEvent, fun _ => s.requestEvent, fun _ => s.creelEvent,
    fun _ => s.engineEvent, fun _ => s.slotEvent, fun _ => s.moduleEvent, fun _ => s.frontEvent ].findSome? fun f => f ()

/-! ### The end of a cycle -/

/-- The busy slots whose turn the next cycle is: CYCLE mod 16 of their module is their slot number (R44). -/
def State.nextTurns (s : State) : List Nat :=
  s.running.filter fun id =>
    let x := s.module (slotLin id / 128)
    decide (x.resetAt ≤ s.cycle) && (s.cycle - x.resetAt) % 16 == slotNo id

/-- The creel that counts a corrected error in an entry, and the source of its record (R334, R335; log 29). -/
def EntryMark.creel : EntryMark → Nat
  | .coreTlb core _ => core / 32
  | .creelTlb lin _ | .readPort lin _ | .resident lin _ => lin
  | .window port _ | .reorder port _ => 128 * (port / 32)
def EntryMark.source : EntryMark → Nat
  | .coreTlb _ _ | .creelTlb _ _ => 0x07
  | .readPort _ _ => 0x05
  | .resident _ _ => 0x06
  | .window _ _ | .reorder _ _ => 0x0A

/-- The entry that a mark names is in use. -/
def State.entryLive (s : State) : EntryMark → Bool
  | .coreTlb core i => decide (i < (s.core core).tlb.length)
  | .creelTlb lin i => decide (i < (s.creel lin).tlb.length)
  | .window port i => decide (i < (s.link port).window.length)
  | .reorder port i => decide (i < (s.link port).held.length)
  | .readPort lin i => decide (i < s.portArms lin)
  | .resident lin i => decide (i < (s.creel lin).residents.length)

/-- R351, R352: a correctable error in an entry in use is corrected and counted at the end of the cycle, since these arrays are read in every cycle
(log 29). -/
def State.correctEntries (s : State) : State :=
  (s.entrySoft.filter s.entryLive).foldl (fun s r => s.countCorrected r.creel r.source 0 0 1)
    { s with entrySoft := [] }

/-- The records of the cycle are written (R334), and the next cycle begins. -/
def State.tick (s : State) : State :=
  let s := s.correctEntries
  let s := (s.creels.filter fun (_, c) => !c.recs.isEmpty).foldl (fun s (lin, _) => s.flushRecs lin) s
  let s := { s with cycle := s.cycle + 1 }
  { s with turnq := s.nextTurns }

/-- After the turns of a cycle: PUTX values land (R184), and the next cycle begins. -/
def State.endCycle (s : State) : Out :=
  match s.putxs.find? fun p => decide (p.due ≤ s.cycle) with
  | some p => execPutxLand p.id s
  | none => done s.tick

/-! ### Placing an instruction where the next step runs it -/

/-- The slot whose turn is next. -/
def State.nextSlot (s : State) : Nat := (s.turnq.head?).getD s.cur

/-- The core's TLB translates the slot's next address: as it does already, or to the same local physical address (log 1). -/
def State.mapFetch (s : State) (id : Nat) : State × Nat :=
  let sl := s.slot id
  let core := slotCore id
  match (s.core core).tlb.find? (·.hit sl.asid.toNat false sl.world.toNat sl.pc) with
  | some e => (s, (e.phys (slotLin id) sl.pc).gpa)
  | none =>
    let e : Tlb := ⟨sl.asid.toNat, false, sl.world.toNat, sl.pc / 2 ^ 16, 16, sl.pc / 2 ^ 16 * 2 ^ 16, 0, false, false, true, true, true, true⟩
    (s.updCore core fun c => { c with tlb := e :: c.tlb }, gpaOf (slotLin id) sl.pc)

/-- Eight bytes of code at the next address of the slot whose turn is next, in memory and in the core's strand instruction cache (R48, R308), and
its turn made the next step (log 1). -/
def State.placeCode (s : State) (v : Nat) : State :=
  let id := s.nextSlot
  let core := slotCore id
  let (s, g) := s.mapFetch id
  let key := s.slotKey id
  let bs := natBytes v 8
  let s := (s.writeAs key g bs).writeAs key (strandLoc core g) bs
  let s := s.updCore core fun c =>
    { c with icache := [g / 8, (g + 4) / 8].foldl (fun l n => if l.contains n then l else n :: l) c.icache }
  { s with inputs := [], turnq := id :: s.turnq.tail }

end Sys2Proof.Machine
end

