-- ==== Sys2Proof/Machine/Step.lean ====
section
/-!
DEFINITION. One step of the machine, and an instruction placed where the next step runs it.
-/

namespace Sys2Proof.Machine

/-- One step: a step from outside that stands in `inputs`; else the first event that is due; else the next turn of the cycle; else the end of
the cycle (log 6). -/
def step (s : State) : Host.Outcome State Fault Refusal :=
  match s.inputs with
  | i :: rest => if fromOutside i then exec i { s with inputs := rest } else .fault .strayInput
  | [] =>
    match s.dueEvent with
    | some o => o
    | none =>
      match s.turnq with
      | id :: rest => { s with turnq := rest }.slotTurn id
      | [] => s.endCycle

/-- The state with the instruction whose bits are `w` at the address that the next slot's turn fetches: bits from `nbits` up are 0 (log 1). -/
def State.withFetchWord (s : State) (nbits w : Nat) : State := s.placeCode (w % 2 ^ nbits)

end Sys2Proof.Machine
end

