-- ==== Sys2Proof/Safety.lean ====
section
/-!
DEFINITION. What claims about runs are stated in: when an instruction passes the checks before its own effect, and what it leaves unchanged.
-/

namespace Sys2Proof.Safety

open Sys2Proof.Machine

/-! ### Before the effect -/

/-- Stages 4 to 6 of R339 let an instruction of the slot whose turn it is pass: the register fields lie in its window (R30), no relaxed-load
fault is pending on a register it reads (R169), and every register it reads is present (R136). -/
def Issues (s : State) (fields srcs : List (BitVec 7)) : Prop :=
  (∀ n ∈ fields, s.me.base + n.toNat < s.me.limit) ∧
  (∀ f ∈ s.me.rfaults, ∀ n ∈ srcs, n.toNat ≠ f.1) ∧
  (∀ n ∈ srcs, s.presOf s.cur n.toNat = true)

/-- Stages 4 to 6 of R339 for a FENCE form and EXIT (R175): no relaxed-load fault is pending. -/
def NoFault (s : State) : Prop := s.me.rfaults = []

/-- The slot has no access in flight (R168). -/
def Quiet (s : State) : Prop := ∀ a ∈ s.accesses, a.slot ≠ s.cur

/-! ### What stays -/

/-- Every byte of memory reads as before, under every key and in every copy. -/
def SameMemory (s t : State) : Prop := ∀ key loc, t.byteAs key loc = s.byteAs key loc

/-- The slots other than `id` are as before. -/
def OtherSlots (s t : State) (id : Nat) : Prop := ∀ k, k ≠ id → t.slot k = s.slot k

/-- The register-file entries that `p` does not name are as before. -/
def OtherEntries (s t : State) (p : Nat → Prop) : Prop := ∀ e, ¬p e → t.entry e = s.entry e

/-- Nothing outside the register file and the slots has changed. -/
def OnlySlots (s t : State) : Prop := t = { s with regs := t.regs, slots := t.slots }

/-- Two creels differ at most in their note of the requests of a cycle to SRAM rows (R68), and two cores in that of the last users of their
units and L2 ways (R80, R313). -/
def SameCreel (c c' : Creel) : Prop := c' = { c with rowsAt := c'.rowsAt, rows := c'.rows }
def SameCore (c c' : Core) : Prop := c' = { c with recent := c'.recent, users := c'.users }

/-- As `OnlySlots`, but for those notes of use. -/
def OnlyUse (s t : State) : Prop :=
  t = { s with regs := t.regs, slots := t.slots, creels := t.creels, cores := t.cores } ∧
    (∀ lin, SameCreel (s.creel lin) (t.creel lin)) ∧ ∀ c, SameCore (s.core c) (t.core c)

/-- A slot's place in the program and its coil position may differ, and nothing else of the slot. -/
def SameSlot (sl sl' : Slot) : Prop :=
  sl' = { sl with pc := sl'.pc, queue := sl'.queue, wait := sl'.wait, xfer := sl'.xfer, coil := sl'.coil }

/-! ### Completing -/

/-- `i` answers a next state in which x(d) of the slot holds `v` and its presence bit is set, the slot has completed an instruction of `n`
bytes, and nothing else has changed: no other register, no other slot, no memory, no other unit. x0 stays zero. -/
def Writes (s : State) (i : Instr) (d : BitVec 7) (v : Word) (n : Nat) : Prop :=
  ∃ t, exec i s = .next t ∧
    t.x d.toNat = (if d = 0 then 0 else v) ∧
    t.presOf s.cur d.toNat = true ∧
    OtherEntries s t (fun e => d ≠ 0 ∧ e = s.entryOf s.cur d.toNat) ∧
    t.slot s.cur = s.me.advance n ∧ OtherSlots s t s.cur ∧ SameMemory s t ∧ OnlySlots s t

/-- `i` answers a next state in which the slot has completed an instruction of 4 bytes and nothing else has changed. -/
def Passes (s : State) (i : Instr) : Prop :=
  ∃ t, exec i s = .next t ∧ t.slot s.cur = s.me.advance 4 ∧ OtherSlots s t s.cur ∧ t = { s with slots := t.slots }

/-- `i` answers the state in which the slot has taken a trap of its cause with STVAL `v` (R327). -/
def Traps (s : State) (i : Instr) (cause : Nat) (v : Word) : Prop := exec i s = .next (s.trapWith cause v)

/-- The first of some conditions that does not hold decides the trap that `i` takes, by its cause and STVAL. -/
def FirstTraps (s : State) (i : Instr) (checks : List (Prop × Nat × Word)) : Prop :=
  ∀ pre c post, checks = pre ++ c :: post → (∀ p ∈ pre, p.1) → ¬c.1 → Traps s i c.2.1 c.2.2

/-- `i` answers a next state in which the slot goes on at `pc` after a control transfer, and nothing else has changed. -/
def GoesTo (s : State) (i : Instr) (pc : Nat) : Prop :=
  ∃ t, exec i s = .next t ∧ t.slot s.cur = s.me.jump pc ∧ OtherSlots s t s.cur ∧ t = { s with slots := t.slots }

/-- As `GoesTo`, with `v` written to x(d). -/
def Links (s : State) (i : Instr) (d : BitVec 7) (v : Word) (pc : Nat) : Prop :=
  ∃ t, exec i s = .next t ∧
    t.x d.toNat = (if d = 0 then 0 else v) ∧ t.presOf s.cur d.toNat = true ∧
    OtherEntries s t (fun e => d ≠ 0 ∧ e = s.entryOf s.cur d.toNat) ∧
    t.slot s.cur = s.me.jump pc ∧ OtherSlots s t s.cur ∧ SameMemory s t ∧ OnlySlots s t

/-! ### Memory -/

/-- As `Writes`, for an instruction whose translation may have refilled the core's own buffer: outside the register file and the slots the
next state is `s1`, but for its notes of use. -/
def WritesFrom (s s1 : State) (i : Instr) (d : BitVec 7) (v : Word) (n : Nat) : Prop :=
  ∃ t, exec i s = .next t ∧
    t.x d.toNat = (if d = 0 then 0 else v) ∧
    t.presOf s.cur d.toNat = true ∧
    OtherEntries s t (fun e => d ≠ 0 ∧ e = s.entryOf s.cur d.toNat) ∧
    t.slot s.cur = s.me.advance n ∧ OtherSlots s t s.cur ∧ SameMemory s t ∧ OnlyUse s1 t

/-- As `Traps`, for an instruction whose translation may have refilled the core's own buffer: the trap is taken in a state that differs from `s1` in its
notes of use alone. -/
def TrapsFrom (s s1 : State) (i : Instr) (cause : Nat) (v : Word) : Prop :=
  ∃ s2 : State, exec i s = .next (s2.trapWith cause v) ∧ s2.regs = s.regs ∧ s2.slots = s.slots ∧ SameMemory s s2 ∧ OnlyUse s1 s2

/-- The bytes of `t` are those of `s` but for `bs` from `loc` upward, as the key that wrote them reads memory; and under every key the blocks
that `bs` does not touch are as before (R308). -/
def Stored (s t : State) (key loc : Nat) (bs : List Byte) : Prop :=
  (∀ a, t.byteAs key a = if loc ≤ a ∧ a < loc + bs.length then bs.getD (a - loc) 0 else s.byteAs key a) ∧
  (∀ key' a, a / 16 < loc / 16 ∨ (loc + bs.length - 1) / 16 < a / 16 → t.byteAs key' a = s.byteAs key' a)

/-- `i` answers a next state in which `bs` is stored at `loc` under the slot's key, and no register, no full/empty bit and no other slot
has changed. -/
def Stores (s : State) (i : Instr) (loc : Nat) (bs : List Byte) : Prop :=
  ∃ t, exec i s = .next t ∧ Stored s t (s.slotKey s.cur) loc bs ∧ t.regs = s.regs ∧ t.empties = s.empties ∧
    t.slot s.cur = s.me.advance 4 ∧ OtherSlots s t s.cur

/-- What an access needs is at hand: creel SRAM, or a valid sector of its home slice (R80). -/
def AtHand (s : State) (p : Place) : Prop := ∀ c, p.home = some c → s.l2Valid (coreAt (linOf p.gpa) c) p.gpa = true

/-- No code word of `n` bytes at a location has an error (R351). -/
def Clean (s : State) (loc n : Nat) : Prop := ∀ k, k < n → setHas s.bad (unitOf (loc + k)) = false ∧ unitOf (loc + k) ∉ s.soft

/-- No code word of `n` bytes at a location holds a correctable error (R351). -/
def NoSoft (s : State) (loc n : Nat) : Prop := ∀ k, k < n → unitOf (loc + k) ∉ s.soft

/-- No access in flight of the slot touches `n` bytes at an address (R90). -/
def Alone (s : State) (gpa n : Nat) : Prop :=
  ∀ a ∈ s.accesses, a.slot = s.cur → ∀ q ∈ a.parts, ¬(q.gpa < gpa + n ∧ gpa < q.gpa + q.size)

/-- No slot waits on a barrier object that `n` bytes at an address touch (R176). -/
def NoBarrierWait (s : State) (gpa n : Nat) : Prop :=
  ∀ b ∈ (s.creel (linOf gpa)).bwaits, ¬(gpa < b.gpa + 16 ∧ b.gpa < gpa + n)

/-- No slot waits on a barrier object over a word that counts a creel's corrected errors, which a read of a word with a correctable error
writes (R335, R352). -/
def Steady (s : State) : Prop :=
  ∀ c ∈ s.creels, ∀ b ∈ c.2.bwaits, b.gpa % 2 ^ 45 + 16 ≤ 0xBF0008 ∨ 0xBF0010 ≤ b.gpa % 2 ^ 45

/-- The address of a memory operand (R165): x(base) + sext(off7, 7) × size. -/
def operandAddr (s : State) (b : BitVec 7) (off : BitVec 7) (size : Nat) : Nat :=
  (s.x b.toNat + BitVec.ofInt 64 (off.toInt * size)).toNat

/-- Numbers in strictly rising order, as the model keeps its sets. -/
def Rising (l : List Nat) : Prop := l.Pairwise (· < ·)

/-! ### Vectors (R188, R189) -/

/-- `t` is `s` but for vector register d of the slot, whose instruction is done. -/
def OnlyVector (s t : State) (d : BitVec 3) : Prop :=
  t.slot s.cur = { s.me.advance 4 with vec := (t.slot s.cur).vec } ∧ (∀ n, n ≠ d.toNat → (t.slot s.cur).w n = s.me.w n) ∧
    OtherSlots s t s.cur ∧ t = { s with slots := t.slots }

/-- `i` answers a next state in which every element of width `w` of vector register d is the low w bits of `f e` where its lane is active
under m(m), and as before elsewhere. Nothing else has changed. -/
def WritesLanes (s : State) (i : Instr) (d : BitVec 3) (m : BitVec 2) (w : Nat) (f : Nat → Nat) : Prop :=
  ∃ t, exec i s = .next t ∧ OnlyVector s t d ∧
    ∀ e, e < 4096 / w → elemOf ((t.slot s.cur).w d.toNat) w e =
      if (s.me.m m.toNat).getLsbD (w * e / 32) then f e % 2 ^ w else elemOf (s.me.w d.toNat) w e

/-- As `WritesLanes`, with `f` for every element, whatever the mask. -/
def WritesElems (s : State) (i : Instr) (d : BitVec 3) (w : Nat) (f : Nat → Nat) : Prop :=
  ∃ t, exec i s = .next t ∧ OnlyVector s t d ∧ ∀ e, e < 4096 / w → elemOf ((t.slot s.cur).w d.toNat) w e = f e % 2 ^ w

/-- `i` answers a next state in which mask u of the slot holds the bits of `f`, or nothing for m0, and nothing else has changed (R137). -/
def WritesMask (s : State) (i : Instr) (u : BitVec 2) (f : Nat → Bool) : Prop :=
  ∃ t, exec i s = .next t ∧ OtherSlots s t s.cur ∧ t = { s with slots := t.slots } ∧
    t.slot s.cur = { s.me.advance 4 with masks := (t.slot s.cur).masks } ∧
    (∀ n, n ≠ u.toNat → (t.slot s.cur).m n = s.me.m n) ∧ (t.slot s.cur).m 0 = BitVec.allOnes 128 ∧
    (u ≠ 0 → ∀ k, k < 128 → ((t.slot s.cur).m u.toNat).getLsbD k = f k)

/-! ### Words (R131) -/

/-- Format RRR: the major opcode in place, three registers and the function code. -/
def wordRRR (op : Nat) (d a b : BitVec 7) (fn : Nat) : IWord :=
  BitVec.ofNat 32 (op + d.toNat * 2 ^ 19 + a.toNat * 2 ^ 12 + b.toNat * 2 ^ 5 + fn)

/-- Format V: four vector registers, mask, type, rounding and the function code. -/
def wordV (op : Nat) (d a b c : BitVec 3) (m : BitVec 2) (y : BitVec 4) (r : BitVec 3) (fn : Nat) : IWord :=
  BitVec.ofNat 32 (op + d.toNat * 2 ^ 23 + a.toNat * 2 ^ 20 + b.toNat * 2 ^ 17 + c.toNat * 2 ^ 14 + m.toNat * 2 ^ 12 +
    y.toNat * 2 ^ 8 + r.toNat * 2 ^ 5 + fn)

/-- Format VX: a vector and a general register, a vector register, mask, type, the auxiliary field and the function code. -/
def wordVX (op : Nat) (d : BitVec 3) (x : BitVec 7) (a : BitVec 3) (m : BitVec 2) (y u : BitVec 3) (fn : Nat) : IWord :=
  BitVec.ofNat 32 (op + d.toNat * 2 ^ 23 + x.toNat * 2 ^ 16 + a.toNat * 2 ^ 13 + m.toNat * 2 ^ 11 + y.toNat * 2 ^ 8 +
    u.toNat * 2 ^ 5 + fn)

/-- Format RI, and format B with the two registers that it compares: the major opcode in place, two registers and the low 12 bits. -/
def wordRI (op : Nat) (d a : BitVec 7) (low : Nat) : IWord :=
  BitVec.ofNat 32 (op + d.toNat * 2 ^ 19 + a.toNat * 2 ^ 12 + low)

/-! ### Events -/

/-- `i` answers a next state in which slot `id` is `sl`, and nothing else has changed. -/
def SlotGets (s : State) (i : Instr) (id : Nat) (sl : Slot) : Prop :=
  ∃ t, exec i s = .next t ∧ t.slot id = sl ∧ OtherSlots s t id ∧ t = { s with slots := t.slots }

/-- As `SlotGets`, for a core beside its slots. -/
def CoreGets (s : State) (i : Instr) (core : Nat) (c : Core) : Prop :=
  ∃ t, exec i s = .next t ∧ t.core core = c ∧ (∀ k, k ≠ core → t.core k = s.core k) ∧ t = { s with cores := t.cores }

/-- As `SlotGets`, for a creel beside its cores. -/
def CreelGets (s : State) (i : Instr) (lin : Nat) (c : Creel) : Prop :=
  ∃ t, exec i s = .next t ∧ t.creel lin = c ∧ (∀ k, k ≠ lin → t.creel k = s.creel k) ∧ t = { s with creels := t.creels }

/-- As `SlotGets`, for a module beside its creels. -/
def ModuleGets (s : State) (i : Instr) (m : Nat) (x : Module) : Prop :=
  ∃ t, exec i s = .next t ∧ t.module m = x ∧ (∀ k, k ≠ m → t.module k = s.module k) ∧ t = { s with mods := t.mods }

/-- As `SlotGets`, for a host port (its number is 2 × module + port). -/
def PortGets (s : State) (i : Instr) (ag : Nat) (a : Agent) : Prop :=
  ModuleGets s i (ag / 2) { s.module (ag / 2) with agents := mapPut (s.module (ag / 2)).agents (ag % 2) a }

/-- One record has joined those that a creel writes at the end of the cycle: its source, class, code and detail (R334, R335). -/
def Logs (s t : State) (lin source cls code detail : Nat) : Prop :=
  ∃ r : Rec, (t.creel lin).recs = (s.creel lin).recs ++ [r] ∧ r.source = source ∧
    r.words.getD 0 0 = cls * 2 ^ 24 + source * 2 ^ 16 + code * 2 ^ 8 + 1 ∧ r.words.getD 7 0 = detail

/-- As `SlotGets`, for a channel context of a host port. -/
def CtxGets (s : State) (i : Instr) (ag h : Nat) (c : Ctx) : Prop := PortGets s i ag ((s.port ag).putCtx h c)

/-- A host port whose context h is `c` with ERR = 1. When ERR was 0 in `c`, an MSI-X message has gone out, unless the link is down (R300,
R383). -/
def withErr (a : Agent) (h : Nat) (c : Ctx) : Agent :=
  if c.err then a.putCtx h c
  else { a.putCtx h { c with err := true } with msix := if a.link then c.vec.toNat :: a.msix else a.msix }

/-- `i` answers a next state in which the one record `r` of channel context h is finished with a code and a detail: STAT, then DONE are
published in the context's page, a code other than 0 has written a record, and DONE at or above IRQTHR has sent the MSI-X message (R298 to
R300). -/
def Finishes (s : State) (i : Instr) (ag h : Nat) (r : HRec) (code detail : Nat) : Prop :=
  let lin := 128 * (ag / 2) + 64 * (ag % 2)
  let c := s.ctxOf ag h
  let hits := c.irqthr.toNat ≤ (r.num + 1) % 2 ^ 32
  ∃ t : State, exec i s = .next t ∧ (t.ctxOf ag h).recs = [] ∧ (t.ctxOf ag h).finished = r.num + 1 ∧
    (t.ctxOf ag h).cons = c.cons ∧ (t.ctxOf ag h).en = c.en ∧
    t.agentRead (ag / 2) (ag % 2) (256 * h + 16 + 8 * (r.num % 16)) = (r.num % 2 ^ 32 * 2 ^ 32 + detail * 2 ^ 8 + code) % 2 ^ 64 ∧
    t.agentRead (ag / 2) (ag % 2) (256 * h + 8) = (r.num + 1) % 2 ^ 64 ∧
    (code ≠ 0 → Logs s t lin 0x0B 0x3 code detail) ∧ (code = 0 → (t.creel lin).recs = (s.creel lin).recs) ∧
    (hits → (t.ctxOf ag h).irqthr = 0xFFFFFFFF ∧
      (t.port ag).msix = if (s.port ag).link then c.vec.toNat :: (s.port ag).msix else (s.port ag).msix) ∧
    (¬hits → (t.ctxOf ag h).irqthr = c.irqthr ∧ (t.port ag).msix = (s.port ag).msix) ∧
    t.regs = s.regs ∧ t.slots = s.slots

/-- As `SlotGets`, for a Cerern port (its number is 32 × module + port). -/
def LinkGets (s : State) (i : Instr) (port : Nat) (p : Port) : Prop :=
  ModuleGets s i (port / 32) { s.module (port / 32) with ports := mapPut (s.module (port / 32)).ports (port % 32) p }

/-- `i` answers the state in which slot `id` has taken a trap of its cause with STVAL 0 (R327). -/
def TrapsAt (s : State) (i : Instr) (id cause : Nat) : Prop := exec i s = .next (s.takeTrap id (s.slot id).pc ⟨cause, 0, false⟩)

/-- No slot of a creel waits on a barrier object. -/
def NoBarriers (s : State) (lin : Nat) : Prop := (s.creel lin).bwaits = []

/-! ### The Gaussian engine (R259, R260, R265) -/

/-- The largest difference of two lists of FP32 values, in units of 2^−149. -/
def largestGap (a b : List Nat) : Nat := ((a.zip b).map fun x => (fpUnits x.1 - fpUnits x.2).natAbs).foldl max 0

/-- What R260's output step makes of `new`, d values of η and then the packed Λ: the old entries of the record, and the values it writes. -/
def oldEntries (o : GRec) (d : Nat) : List Nat := if o.d = 0 then List.replicate (d + d * (d + 1) / 2) 0 else o.entries d
def dampedEntries (o : GRec) (d : Nat) (new : List Nat) (damped : Bool) : List Nat :=
  if damped = false ∨ o.beta = 0 then new
  else (new.zip (oldEntries o d)).map fun x =>
    fp32.round 0 (Fv.add false (Fv.mul (fp32.decode x.1) (.fin false (256 - o.beta) (-8))) (Fv.mul (fp32.decode x.2) (.fin false o.beta (-8))))
def gapOf (a b : List Nat) : Nat := fp32.round 0 (.fin false (largestGap a b) (-149))

/-- The writes of the output step: η and Λ each padded with +0, the residual, and the header last. -/
def outputWrites (o : GRec) (d : Nat) (new : List Nat) (damped : Bool) (kind : Nat) : List (Nat × Nat × Nat) :=
  let out := dampedEntries o d new damped
  [(o.gpa + 8, 176, wordsNat (out.take d ++ List.replicate (8 - d) 0 ++ out.drop d ++ List.replicate (36 - (out.length - d)) 0)),
   (o.gpa + 248, 8, gapOf out (oldEntries o d)),
   (o.gpa, 8, d + kind * 2 ^ 4 + o.beta * 2 ^ 8 + o.node * 2 ^ 16 + (o.ver + 1) % 2 ^ 32 * 2 ^ 32)]

/-- The record takes dimension d, `new` has its length, and every value of the step is finite. -/
def OutputOk (o : GRec) (d : Nat) (new : List Nat) (damped : Bool) : Prop :=
  (o.d = 0 ∨ o.d = d) ∧ d ≤ 8 ∧ new.length = d + d * (d + 1) / 2 ∧
    (∀ v ∈ oldEntries o d ++ new ++ dampedEntries o d new damped, fpFinite v = true) ∧
    fpFinite (gapOf (dampedEntries o d new damped) (oldEntries o d)) = true

/-- x − l × y with one rounding. -/
def lessProduct (x l y : Nat) : Nat := fp32.round 0 (Fv.add false (fp32.decode x) (Fv.mul (fp32.decode l) (fp32.decode y)).neg)

/-- The elimination of R259 and R265 over n indices, but for those of J: A p and H p are Λ (its upper triangle) and η before index p. Every pivot is
above max(τ, +0) and every value finite. -/
def Eliminates (n tau : Nat) (inJ : Nat → Bool) (A : Nat → Nat → Nat → Nat) (H : Nat → Nat → Nat) : Prop :=
  ∀ p, p < n →
    let row := fun r => if p ≤ r then A p p r else A p r p
    let l := fun r => fp32.div 0 (row r) (row p)
    let u := fun r => decide (r < n) && (inJ r || decide (p < r))
    if inJ p then (∀ r q, A (p + 1) r q = A p r q) ∧ ∀ r, H (p + 1) r = H p r
    else pivotPasses tau (row p) = true ∧
      (∀ r q, r ≤ q → A (p + 1) r q = if u r && u q then lessProduct (A p r q) (l r) (row q) else A p r q) ∧
      (∀ r, H (p + 1) r = if u r then lessProduct (H p r) (l r) (H p p) else H p r) ∧
      (∀ r, u r = true → fpFinite (l r) = true ∧ fpFinite (H (p + 1) r) = true) ∧
      (∀ r q, r ≤ q → u r = true → u q = true → fpFinite (A (p + 1) r q) = true)

/-- The η and packed Λ entries of d indices from o on. -/
def blockOf (A : Nat → Nat → Nat) (H : Nat → Nat) (o d : Nat) : List Nat :=
  (List.range d).map (fun r => H (o + r)) ++ (pairsOf (List.range d)).map fun x => A (o + x.1) (o + x.2)

/-- Every value that a fold passes through is finite. -/
def FoldFinite (f : Nat → Nat → Nat) (x : Nat) (l : List Nat) : Prop := ∀ k, fpFinite ((l.take k).foldl f x) = true

/-! ### Invariants -/

/-- Memory and host memory keep their canonical form. -/
def MemoryOk (s : State) : Prop := Memory.wf s.mem = true ∧ Memory.wf s.hostMem = true

end Sys2Proof.Safety
end

