-- ==== Sys2Proof/Certificates/Slice0/Obligations.lean ====
section
/-!
DEFINITION. The statements for the provers, one for each entry of OBLIGATIONS.json. Each docstring names the rules of spec/ that it formalises.
-/

open Sys2Proof Sys2Proof.Machine Sys2Proof.Safety

/-! ### Arithmetic on registers (R150 to R157) -/

/-- R150: the word and the result of every ALU instruction. -/
def Obligations.AluResults : Prop :=
  ∀ (s : State) (d a b : BitVec 7),
    let x := s.x a.toNat
    let y := s.x b.toNat
    let forms : List (Nat × Instr × Word) :=
      [(0x00, .add d a b, x + y), (0x01, .sub d a b, x - y), (0x02, .and d a b, x &&& y), (0x03, .or d a b, x ||| y),
       (0x04, .xor d a b, x ^^^ y), (0x05, .andn d a b, x &&& ~~~y),
       (0x06, .sll d a b, BitVec.ofNat 64 (x.toNat * 2 ^ (y.toNat % 64))),
       (0x07, .srl d a b, BitVec.ofNat 64 (x.toNat / 2 ^ (y.toNat % 64))),
       (0x08, .sra d a b, BitVec.ofInt 64 (x.toInt / 2 ^ (y.toNat % 64))),
       (0x09, .rotr d a b, x >>> (y.toNat % 64) ||| x <<< (64 - y.toNat % 64)),
       (0x0A, .mins d a b, if x.toInt < y.toInt then x else y), (0x0B, .maxs d a b, if x.toInt < y.toInt then y else x),
       (0x0C, .minu d a b, if x.toNat < y.toNat then x else y), (0x0D, .maxu d a b, if x.toNat < y.toNat then y else x),
       (0x0E, .slt d a b, if x.toInt < y.toInt then 1 else 0), (0x0F, .sltu d a b, if x.toNat < y.toNat then 1 else 0),
       (0x10, .seq d a b, if x = y then 1 else 0), (0x11, .sne d a b, if x = y then 0 else 1),
       (0x12, .addw d a b, BitVec.ofInt 64 (x.setWidth 32 + y.setWidth 32).toInt),
       (0x13, .subw d a b, BitVec.ofInt 64 (x.setWidth 32 - y.setWidth 32).toInt),
       (0x14, .sllw d a b, BitVec.ofInt 64 (BitVec.ofNat 32 (x.toNat % 2 ^ 32 * 2 ^ (y.toNat % 32))).toInt),
       (0x15, .srlw d a b, BitVec.ofInt 64 (BitVec.ofNat 32 (x.toNat % 2 ^ 32 / 2 ^ (y.toNat % 32))).toInt),
       (0x16, .sraw d a b, BitVec.ofInt 64 ((x.setWidth 32).toInt / 2 ^ (y.toNat % 32)))]
    (∀ f ∈ forms, encode f.2.1 = [wordRRR 0x04000000 d a b f.1]) ∧
    encode (.sel d a b) = [wordRRR 0x04000000 d a b 0x17] ∧
    (Issues s [d, a, b] [a, b] → ∀ f ∈ forms, Writes s f.2.1 d f.2.2 4) ∧
    (Issues s [d, a, b] [d, a, b] → Writes s (.sel d a b) d (if s.x d.toNat ≠ 0 then x else y) 4)

/-- R151, R109: the word and the result of every MULDIV instruction. -/
def Obligations.MulDivResults : Prop :=
  ∀ (s : State) (d a b : BitVec 7),
    let x := s.x a.toNat
    let y := s.x b.toNat
    let x32 : BitVec 32 := x.setWidth 32
    let y32 : BitVec 32 := y.setWidth 32
    let forms : List (Nat × Instr × Word) :=
      [(0x00, .mul d a b, BitVec.ofNat 64 (x.toNat * y.toNat)),
       (0x01, .mulh d a b, BitVec.ofInt 64 (x.toInt * y.toInt / 2 ^ 64)),
       (0x02, .mulhu d a b, BitVec.ofNat 64 (x.toNat * y.toNat / 2 ^ 64)),
       (0x03, .mulw d a b, BitVec.ofInt 64 (x32 * y32).toInt),
       (0x05, .div d a b, if y = 0 then BitVec.allOnes 64 else BitVec.ofInt 64 (x.toInt.tdiv y.toInt)),
       (0x06, .divu d a b, if y = 0 then BitVec.allOnes 64 else BitVec.ofNat 64 (x.toNat / y.toNat)),
       (0x07, .rem d a b, if y = 0 then x else BitVec.ofInt 64 (x.toInt.tmod y.toInt)),
       (0x08, .remu d a b, if y = 0 then x else BitVec.ofNat 64 (x.toNat % y.toNat)),
       (0x09, .divw d a b,
        if y32 = 0 then BitVec.allOnes 64 else BitVec.ofInt 64 (BitVec.ofInt 32 (x32.toInt.tdiv y32.toInt)).toInt),
       (0x0A, .remw d a b, if y32 = 0 then BitVec.ofInt 64 x32.toInt else BitVec.ofInt 64 (x32.toInt.tmod y32.toInt))]
    (∀ f ∈ forms, encode f.2.1 = [wordRRR 0x08000000 d a b f.1]) ∧
    encode (.mad d a b) = [wordRRR 0x08000000 d a b 0x04] ∧
    (Issues s [d, a, b] [a, b] → ∀ f ∈ forms, Writes s f.2.1 d f.2.2 4) ∧
    (Issues s [d, a, b] [d, a, b] → Writes s (.mad d a b) d (s.x d.toNat + x * y) 4)

/-- R152: the word and the result of every BIT instruction. The control word y gives w, p, w′, f and M. The unary forms hold b = 0, and a word
of the major with an unassigned function code or with b in a unary form is no instruction. -/
def Obligations.BitResults : Prop :=
  ∀ (s : State) (d a b : BitVec 7),
    let x := s.x a.toNat
    let y := s.x b.toNat
    let w := y.toNat / 2 ^ 8 % 2 ^ 6 + 1
    let p := y.toNat % 2 ^ 6
    let w' := min w (64 - p)
    let f := x.toNat / 2 ^ p % 2 ^ w'
    let m : Word := BitVec.ofNat 64 ((2 ^ w - 1) * 2 ^ p)
    let forms : List (Nat × Instr × Word) :=
      [(0x05, .bfx d a b, BitVec.ofInt 64 (BitVec.ofNat w' f).toInt), (0x06, .bfxu d a b, BitVec.ofNat 64 f),
       (0x08, .sext d a b, BitVec.ofInt 64 (BitVec.ofNat w x.toNat).toInt)]
    (∀ g ∈ forms, encode g.2.1 = [wordRRR 0x0C000000 d a b g.1]) ∧
    encode (.bfi d a b) = [wordRRR 0x0C000000 d a b 0x07] ∧
    (∀ g ∈ ([(0x00, .clz d a), (0x01, .ctz d a), (0x02, .popc d a), (0x03, .brev d a), (0x04, .bswap d a)] :
        List (Nat × Instr)), encode g.2 = [wordRRR 0x0C000000 d a 0 g.1]) ∧
    (Issues s [d, a, b] [a, b] → ∀ g ∈ forms, Writes s g.2.1 d g.2.2 4) ∧
    (Issues s [d, a, b] [d, a, b] →
      Writes s (.bfi d a b) d ((s.x d.toNat &&& ~~~m) ||| (BitVec.ofNat 64 (x.toNat * 2 ^ p) &&& m)) 4) ∧
    (Issues s [d, a] [a] →
      (∃ n : Nat, n ≤ 64 ∧ Writes s (.clz d a) d (BitVec.ofNat 64 n) 4 ∧
        (∀ i, 64 - n ≤ i → i < 64 → x.getLsbD i = false) ∧ (n < 64 → x.getLsbD (63 - n) = true)) ∧
      (∃ n : Nat, n ≤ 64 ∧ Writes s (.ctz d a) d (BitVec.ofNat 64 n) 4 ∧
        (∀ i, i < n → x.getLsbD i = false) ∧ (n < 64 → x.getLsbD n = true)) ∧
      Writes s (.popc d a) d (BitVec.ofNat 64 ((List.range 64).filter (x.getLsbD ·)).length) 4 ∧
      (∃ v : Word, Writes s (.brev d a) d v 4 ∧ ∀ i, i < 64 → v.getLsbD i = x.getLsbD (63 - i)) ∧
      (∃ v : Word, Writes s (.bswap d a) d v 4 ∧
        ∀ i, i < 8 → v.extractLsb' (8 * i) 8 = x.extractLsb' (8 * (7 - i)) 8)) ∧
    (∀ (v : BitVec 32) (i : Instr), v.toNat / 2 ^ 26 = 0x03 → decodeWord v 0 = .ok i →
      v.toNat % 2 ^ 5 ≤ 0x08 ∧ (v.toNat % 2 ^ 5 < 0x05 → v.toNat / 2 ^ 5 % 2 ^ 7 = 0))

/-- R153 to R156: the word and the result of the immediate forms, the shifts by an amount, LEA, and MKG, which names the executing creel's
window and traps on an address of 2^45 or more. A word with a nonzero reserved bit is no instruction. -/
def Obligations.ImmediateResults : Prop :=
  (∀ (s : State) (d a b : BitVec 7) (i : BitVec 12) (h : BitVec 6) (k : BitVec 3),
    let x := s.x a.toNat
    let ri : List (Nat × Instr × Word) :=
      [(0x04, .addi d a i, x + BitVec.ofInt 64 i.toInt), (0x05, .andi d a i, x &&& BitVec.ofNat 64 i.toNat),
       (0x06, .ori d a i, x ||| BitVec.ofNat 64 i.toNat), (0x07, .xori d a i, x ^^^ BitVec.ofNat 64 i.toNat),
       (0x08, .slti d a i, if x.toInt < i.toInt then 1 else 0), (0x09, .sltiu d a i, if x.toNat < i.toNat then 1 else 0)]
    let sh : List (Nat × Instr × Word) :=
      [(0, .slli d a h, BitVec.ofNat 64 (x.toNat * 2 ^ h.toNat)), (1, .srli d a h, BitVec.ofNat 64 (x.toNat / 2 ^ h.toNat)),
       (2, .srai d a h, BitVec.ofInt 64 (x.toInt / 2 ^ h.toNat)),
       (3, .rotri d a h, x >>> h.toNat ||| x <<< (64 - h.toNat))]
    (∀ f ∈ ri, encode f.2.1 = [wordRI (f.1 * 2 ^ 26) d a i.toNat]) ∧
    (∀ f ∈ sh, encode f.2.1 = [wordRI 0x28000000 d a (f.1 * 2 ^ 10 + h.toNat)]) ∧
    encode (.lea d a b k) = [wordRRR 0x2C000000 d a b k.toNat] ∧
    (Issues s [d, a] [a] → ∀ f ∈ ri ++ sh, Writes s f.2.1 d f.2.2 4) ∧
    (Issues s [d, a, b] [a, b] →
      Writes s (.lea d a b k) d (BitVec.ofNat 64 (x.toNat + (s.x b.toNat).toNat * 2 ^ k.toNat)) 4)) ∧
  (∀ (s : State) (d a : BitVec 7),
    let x := s.x a.toNat
    encode (.mkg d a) = [wordRRR 0x30000000 d a 0 0] ∧
    (Issues s [d, a] [a] →
      (2 ^ 45 ≤ x.toNat → Traps s (.mkg d a) 0x05 x) ∧
      (x.toNat < 2 ^ 45 →
        Writes s (.mkg d a) d
          (BitVec.ofNat 64 (s.cur / 512 / 128 * 2 ^ 52 + s.cur / 512 % 128 * 2 ^ 45 + x.toNat)) 4))) ∧
  (∀ (v : BitVec 32) (i : Instr), decodeWord v 0 = .ok i →
    (v.toNat / 2 ^ 26 = 0x0A → v.toNat / 2 ^ 6 % 2 ^ 4 = 0) ∧ (v.toNat / 2 ^ 26 = 0x0B → v.toNat / 2 ^ 3 % 2 ^ 2 = 0) ∧
    (v.toNat / 2 ^ 26 = 0x0C → v.toNat % 2 ^ 12 = 0))

/-- R157: the words and the result of every LONG form; the slot goes on 8 bytes further. A first word with an unassigned function code or a
nonzero reserved bit is no instruction. -/
def Obligations.LongResults : Prop :=
  ∀ (s : State) (d : BitVec 7) (imm : BitVec 32),
    let x := s.x d.toNat
    let fresh : List (Nat × Instr × Word) :=
      [(0x00, .li d imm, BitVec.ofInt 64 imm.toInt), (0x01, .liu d imm, BitVec.ofNat 64 imm.toNat)]
    let reads : List (Nat × Instr × Word) :=
      [(0x02, .lihi d imm, BitVec.ofNat 64 (imm.toNat * 2 ^ 32 + x.toNat % 2 ^ 32)),
       (0x03, .addl d imm, x + BitVec.ofInt 64 imm.toInt), (0x04, .andl d imm, x &&& BitVec.ofInt 64 imm.toInt),
       (0x05, .orl d imm, x ||| BitVec.ofInt 64 imm.toInt), (0x06, .xorl d imm, x ^^^ BitVec.ofInt 64 imm.toInt)]
    (∀ f ∈ fresh ++ reads,
      encode f.2.1 = [BitVec.ofNat 32 (0x34000000 + d.toNat * 2 ^ 19 + f.1 * 2 ^ 14), imm]) ∧
    (Issues s [d] [] → ∀ f ∈ fresh, Writes s f.2.1 d f.2.2 8) ∧
    (Issues s [d] [d] → ∀ f ∈ reads, Writes s f.2.1 d f.2.2 8) ∧
    (∀ (v x : BitVec 32) (i : Instr), v.toNat / 2 ^ 26 = 0x0D → decodeWord v x = .ok i →
      v.toNat / 2 ^ 14 % 2 ^ 5 ≤ 0x06 ∧ v.toNat % 2 ^ 14 = 0)

/-! ### Control flow (R56, R158 to R160) -/

/-- R158: a compare-branch of a slot that is no attached member goes on at its target when its condition holds, traps when that target is
out of range, and goes on at the next address otherwise. Nothing but the slot's place changes. -/
def Obligations.BranchResults : Prop :=
  ∀ (s : State) (a b : BitVec 7) (o : BitVec 12),
    let x := s.x a.toNat
    let y := s.x b.toNat
    let t : Int := s.me.pc + 4 * o.toInt
    let forms : List (Nat × Instr × Prop) :=
      [(0x10, .beq a b o, x = y), (0x11, .bne a b o, x ≠ y), (0x12, .blt a b o, x.toInt < y.toInt),
       (0x13, .bge a b o, y.toInt ≤ x.toInt), (0x14, .bltu a b o, x.toNat < y.toNat), (0x15, .bgeu a b o, y.toNat ≤ x.toNat)]
    (∀ f ∈ forms, encode f.2.1 = [wordRI (f.1 * 2 ^ 26) a b o.toNat]) ∧
    (Issues s [a, b] [a, b] → s.me.member ≠ .attached → ∀ f ∈ forms,
      (f.2.2 → (t < 0 ∨ 2 ^ 47 ≤ t) → Traps s f.2.1 0x05 (BitVec.ofInt 64 t)) ∧
      (f.2.2 → 0 ≤ t → t < 2 ^ 47 → GoesTo s f.2.1 t.toNat) ∧
      (¬f.2.2 → Passes s f.2.1))

/-- R46, R47, R158: an attached member that its weave's pilot has outrun compares its own next address with the one the weave took. It goes on
there when they agree, and otherwise becomes a strand at its own. A branch that is not taken resolves in the same way, and so does JALR, which
writes its link in both cases. The pilot's own branch resolves it: the pilot goes on there, and so does the weave; each member that waits at the branch goes
on there or becomes a strand at its own next address; and a member that still holds the branch in its queue learns the address. Any other attached
member that comes to a branch before its weave's pilot has issued it waits there, with its own next address, and JALR has then written its link. -/
def Obligations.AttachedBranch : Prop :=
  ∀ (s : State) (a b : BitVec 7) (o : BitVec 12) (n : Nat) (e : QEntry) (q : List QEntry),
    let x := s.x a.toNat
    let y := s.x b.toNat
    let t : Int := s.me.pc + 4 * o.toInt
    let forms : List (Instr × Prop) :=
      [(.beq a b o, x = y), (.bne a b o, x ≠ y), (.blt a b o, x.toInt < y.toInt),
       (.bge a b o, y.toInt ≤ x.toInt), (.bltu a b o, x.toNat < y.toNat), (.bgeu a b o, y.toNat ≤ x.toNat)]
    let r := s.x b.toNat + BitVec.ofInt 64 o.toInt
    let detaches := fun (i : Instr) (next : Nat) => ∃ u, exec i s = .next u ∧ (u.slot s.cur).member = .strand ∧
      (u.slot s.cur).pc = next ∧ (u.slot s.cur).queue = []
    (Issues s [a, b] [a, b] → s.me.member = .attached → s.me.queue = e :: q → e.resolved = some n → 0 ≤ t → t < 2 ^ 47 →
      (∀ f ∈ forms, ∀ next : Nat, (f.2 → (next : Int) = t) → (¬f.2 → next = s.me.pc + 4) →
        (next = n → GoesTo s f.1 next) ∧ (next ≠ n → detaches f.1 next))) ∧
    (Issues s [a, b] [b] → s.me.member = .attached → s.me.queue = e :: q → e.resolved = some n → r.toNat % 4 = 0 → r.toNat < 2 ^ 47 →
      (r.toNat = n → Links s (.jalr a b o) a (BitVec.ofNat 64 (s.me.pc + 4)) n) ∧
      (r.toNat ≠ n → detaches (.jalr a b o) r.toNat) ∧
      (r.toNat ≠ n → (∀ m ∈ s.liveMembers s.me.weave, waitIsVote (s.slot m).wait = false) →
        ∃ u, exec (.jalr a b o) s = .next u ∧ u.x a.toNat = if a = 0 then 0 else BitVec.ofNat 64 (s.me.pc + 4))) ∧
    (∀ (w : Weave) (ms : List Nat),
      Issues s [a, b] [a, b] → s.me.member = .attached → s.me.queue = e :: q → e.resolved = none → 0 ≤ t → t < 2 ^ 47 →
        mapFind s.weaves s.me.weave = some w → w.ctx = true → w.cstate = .branch →
        s.attachedMembers s.me.weave = s.cur :: ms → (s.cur :: ms).Nodup →
        ∀ f ∈ forms, ∀ next : Nat, (f.2 → (next : Int) = t) → (¬f.2 → next = s.me.pc + 4) →
          ∃ u w', exec f.1 s = .next u ∧ (u.slot s.cur).member = .attached ∧ (u.slot s.cur).pc = next ∧
            (u.slot s.cur).wait = .none ∧ mapFind u.weaves s.me.weave = some w' ∧ w'.cstate = .run ∧ w'.fetchPc = next ∧
            ∀ m ∈ ms,
              ((s.slot m).wait = .branch next →
                (u.slot m).member = .attached ∧ (u.slot m).pc = next ∧ (u.slot m).wait = .none) ∧
              (∀ n', n' ≠ next → (s.slot m).wait = .branch n' →
                (u.slot m).member = .strand ∧ (u.slot m).queue = [] ∧ (u.slot m).pc = n' ∧ (u.slot m).wait = .none) ∧
              (∀ e' q', (∀ n', (s.slot m).wait ≠ .branch n') → (s.slot m).queue = q' ++ [e'] →
                (u.slot m).member = .attached ∧ (u.slot m).queue = q' ++ [{ e' with resolved := some next }])) ∧
    (∀ (w : Weave) (p : Nat) (ms : List Nat),
      s.me.member = .attached → s.me.queue = e :: q → e.resolved = none → mapFind s.weaves s.me.weave = some w → w.ctx = true →
        w.cstate = .branch → s.attachedMembers s.me.weave = p :: ms → p ≠ s.cur → s.cur ∈ ms → (∀ n', (s.slot p).wait ≠ .branch n') →
        (Issues s [a, b] [a, b] → 0 ≤ t → t < 2 ^ 47 → ∀ f ∈ forms, ∀ next : Nat, (f.2 → (next : Int) = t) →
          (¬f.2 → next = s.me.pc + 4) → SlotGets s f.1 s.cur (s.me.park (.branch next))) ∧
        (Issues s [a, b] [b] → r.toNat % 4 = 0 → r.toNat < 2 ^ 47 →
          ∃ u, exec (.jalr a b o) s = .next u ∧ u.slot s.cur = s.me.park (.branch r.toNat) ∧ OtherSlots s u s.cur ∧
            u.x a.toNat = if a = 0 then 0 else BitVec.ofNat 64 (s.me.pc + 4)))

/-- R159, R160: J, JAL and JALR of a slot that is no attached member. The link is pc + 4; JALR reads x(a) before it writes x(d). -/
def Obligations.JumpResults : Prop :=
  ∀ (s : State) (d a : BitVec 7) (i : BitVec 12) (o : BitVec 26),
    let t : Int := s.me.pc + 4 * o.toInt
    let r := s.x a.toNat + BitVec.ofInt 64 i.toInt
    let link : Word := BitVec.ofNat 64 (s.me.pc + 4)
    encode (.j o) = [BitVec.ofNat 32 (0x58000000 + o.toNat)] ∧
    encode (.jal o) = [BitVec.ofNat 32 (0x5C000000 + o.toNat)] ∧
    encode (.jalr d a i) = [wordRI 0x60000000 d a i.toNat] ∧
    ((t < 0 ∨ 2 ^ 47 ≤ t) → Traps s (.j o) 0x05 (BitVec.ofInt 64 t) ∧ Traps s (.jal o) 0x05 (BitVec.ofInt 64 t)) ∧
    (0 ≤ t → t < 2 ^ 47 → GoesTo s (.j o) t.toNat ∧ Links s (.jal o) 1 link t.toNat) ∧
    (Issues s [d, a] [a] →
      (r.toNat % 4 ≠ 0 → Traps s (.jalr d a i) 0x04 r) ∧
      (r.toNat % 4 = 0 → 2 ^ 47 ≤ r.toNat → Traps s (.jalr d a i) 0x05 r) ∧
      (r.toNat % 4 = 0 → r.toNat < 2 ^ 47 → s.me.member ≠ .attached → Links s (.jalr d a i) d link r.toNat))

/-- R55, R56: where a slot goes on after an instruction of `n` bytes: at the next address outside a frame; in a frame at its next word, at its
first word for the next pass, or, after the last pass, behind the frame. -/
def Obligations.PlaceInProgram : Prop :=
  ∀ (sl : Slot) (n : Nat), sl.member ≠ .attached →
    (sl.coil = none → sl.advance n = { sl with pc := sl.pc + n, wait := .none, xfer := false }) ∧
    (∀ c, sl.coil = some c → c.suspended = true → sl.advance n = { sl with pc := sl.pc + n, wait := .none, xfer := false }) ∧
    (∀ c, sl.coil = some c → c.suspended = false →
      (c.i + 1 < c.words.length →
        sl.advance n = { sl with coil := some { c with i := c.i + 1 }, pc := c.base + 4 * (c.i + 1), wait := .none, xfer := false }) ∧
      (c.words.length ≤ c.i + 1 → c.k + 1 < c.reps →
        sl.advance n = { sl with coil := some { c with k := c.k + 1, i := 0 }, pc := c.base, wait := .none, xfer := false }) ∧
      (c.words.length ≤ c.i + 1 → c.reps ≤ c.k + 1 →
        sl.advance n = { sl with coil := none, pc := c.base + 4 * c.words.length, wait := .none, xfer := false }))
/-! ### Weaves and frames (R50 to R56) -/

/-- R50, R52: JOIN in a LEFT member completes at once. LEAVE makes the member LEFT with an empty queue. DETACH makes an attached member a
strand with an empty queue, and has no effect on any other. LAG writes the number of entries behind it in the queue, or all ones. -/
def Obligations.WeaveForms : Prop :=
  ∀ (s : State) (d : BitVec 7),
    (s.me.member = .left → Quiet s → Passes s .join) ∧
    (∃ t, exec .leave s = .next t ∧ t.slot s.cur = { s.me.advance 4 with member := .left, queue := [] }) ∧
    (s.me.member = .strand ∨ s.me.member = .left → Passes s .detach) ∧
    (s.me.member = .attached →
      ∃ t, exec .detach s = .next t ∧ t.slot s.cur = { s.me.advance 4 with member := .strand, queue := [] }) ∧
    (Issues s [d] [] →
      (s.me.member = .attached → Writes s (.lag d) d (BitVec.ofNat 64 (s.me.queue.length - 1)) 4) ∧
      (s.me.member ≠ .attached → Writes s (.lag d) d 0xFFFFFFFFFFFFFFFF 4))

/-- R50, R51: a strand's JOIN in a weave with an attached member waits in JWAIT at its own address, whether the context delivers, waits at a branch
or holds at another address, and an attached member's JOIN waits while another attached member has not issued it; the watchdog is set for one cycle
more than the limit. The last member that a JOIN waits for completes it, in a weave whose context holds at the JOIN: when every other live member is LEFT, is
attached and waits at that JOIN, or is in JWAIT at it. Every member but the LEFT ones goes on attached, with an empty queue, at the next address, and
the context delivers from there. In a weave whose context is EMPTY a strand's JOIN makes it an attached member that waits and the context hold there, or
completes when no other member is to join. R396: in a weave without a context a strand's JOIN waits in JWAIT until every member that is not LEFT is in JWAIT
there. Then they all go on at the next address: attached, with the context of their slot index if no other weave holds it, and as strands
otherwise. -/
def Obligations.JoinResults : Prop :=
  (∀ (s : State) (w : Weave) (b p : Nat),
    let limit := s.cycle + 2 ^ (s.creel (s.cur / 512)).params.jwd + 1
    Quiet s → mapFind s.weaves s.me.weave = some w → w.ctx = true → w.cstate = .hold b → p ∈ s.attachedMembers s.me.weave →
      p ≠ s.cur → (∀ v, waitJoin (s.slot p).wait ≠ some v) → (∀ f e v, (s.slot p).wait ≠ .vote f e v) →
      (s.me.member = .strand →
        ∃ t, exec .join s = .next t ∧
          t.slot s.cur = { s.me with member := .jwait s.me.pc, wait := .join s.me.pc limit }) ∧
      (s.me.member = .attached →
        ∃ t, exec .join s = .next t ∧ (t.slot s.cur).member = .attached ∧ (t.slot s.cur).pc = s.me.pc ∧
          (t.slot s.cur).wait = .join s.me.pc limit)) ∧
  (∀ (s : State) (w : Weave) (p : Nat) (ms : List Nat),
    let limit := s.cycle + 2 ^ (s.creel (s.cur / 512)).params.jwd + 1
    Quiet s → mapFind s.weaves s.me.weave = some w → w.ctx = true → w.cstate = .run ∨ w.cstate = .branch → s.me.member = .strand →
      s.attachedMembers s.me.weave = p :: ms → (∀ f e v, (s.slot p).wait ≠ .vote f e v) → (∀ n, (s.slot p).wait ≠ .branch n) →
      SlotGets s .join s.cur { s.me with member := .jwait s.me.pc, wait := .join s.me.pc limit }) ∧
  (∀ (s : State) (w : Weave),
    let live := s.liveMembers s.me.weave
    let limit := s.cycle + 2 ^ (s.creel (s.cur / 512)).params.jwd + 1
    Quiet s → mapFind s.weaves s.me.weave = some w → w.ctx = true → s.attachedMembers s.me.weave = [] → s.me.member = .strand →
      s.cur ∈ live → (∀ m ∈ live, memberJwait (s.slot m).member = none) →
      ((∃ m ∈ live, m ≠ s.cur ∧ (s.slot m).member ≠ .left) →
        ∃ t w', exec .join s = .next t ∧ (t.slot s.cur).member = .attached ∧ (t.slot s.cur).pc = s.me.pc ∧
          (t.slot s.cur).wait = .join s.me.pc limit ∧ OtherSlots s t s.cur ∧
          mapFind t.weaves s.me.weave = some w' ∧ w'.cstate = .hold s.me.pc) ∧
      ((∀ m ∈ live, m ≠ s.cur → (s.slot m).member = .left) →
        ∃ t w', exec .join s = .next t ∧ (t.slot s.cur).member = .attached ∧ (t.slot s.cur).pc = s.me.pc + 4 ∧
          (t.slot s.cur).wait = .none ∧ OtherSlots s t s.cur ∧
          mapFind t.weaves s.me.weave = some w' ∧ w'.cstate = .run ∧ w'.fetchPc = s.me.pc + 4)) ∧
  (∀ (s : State) (w : Weave),
    let live := s.liveMembers s.me.weave
    let limit := s.cycle + 2 ^ (s.creel (s.cur / 512)).params.jwd + 1
    Quiet s → mapFind s.weaves s.me.weave = some w → w.ctx = false → s.me.member = .strand → s.cur ∈ live →
      ((∃ m ∈ live, m ≠ s.cur ∧ (s.slot m).member ≠ .left ∧ memberJwait (s.slot m).member ≠ some s.me.pc) →
        SlotGets s .join s.cur { s.me with member := .jwait s.me.pc, wait := .join s.me.pc limit }) ∧
      ((∀ m ∈ live, m ≠ s.cur → (s.slot m).member = .left ∨ memberJwait (s.slot m).member = some s.me.pc) →
        ∃ t w', exec .join s = .next t ∧ mapFind t.weaves s.me.weave = some w' ∧
          (∀ m ∈ live, (s.slot m).member ≠ .left → (t.slot m).queue = [] ∧ (t.slot m).pc = s.me.pc + 4 ∧ (t.slot m).wait = .none ∧
            (t.slot m).member = if s.ctxTaken w.lin w.idx s.me.weave then .strand else .attached) ∧
          (s.ctxTaken w.lin w.idx s.me.weave = true → w' = w) ∧
          (s.ctxTaken w.lin w.idx s.me.weave = false → w'.ctx = true ∧ w'.cstate = .run ∧ w'.fetchPc = s.me.pc + 4))) ∧
  (∀ (s : State) (w : Weave),
    Quiet s → mapFind s.weaves s.me.weave = some w → w.ctx = true → w.cstate = .hold s.me.pc →
      s.me.member = .attached ∨ s.me.member = .strand ∧ s.attachedMembers s.me.weave ≠ [] →
      s.cur ∈ s.liveMembers s.me.weave →
      (∀ m ∈ s.liveMembers s.me.weave, m ≠ s.cur → (s.slot m).member = .left ∨
        (s.slot m).member = .attached ∧ waitJoin (s.slot m).wait = some s.me.pc ∨ memberJwait (s.slot m).member = some s.me.pc) →
      ∃ t w', exec .join s = .next t ∧
        (∀ m ∈ s.liveMembers s.me.weave, (s.slot m).member ≠ .left →
          (t.slot m).member = .attached ∧ (t.slot m).queue = [] ∧ (t.slot m).pc = s.me.pc + 4 ∧ (t.slot m).wait = .none) ∧
        (∀ m, (s.slot m).member = .left → t.slot m = s.slot m) ∧
        mapFind t.weaves s.me.weave = some w' ∧ w'.cstate = .run ∧ w'.fetchPc = s.me.pc + 4)

/-- R52, R53, R164: a VOTE of a strand or LEFT member has that member as its only participant. The last attached member to issue a VOTE
completes it, and receives the result over the values that the participants read when they issued it. -/
def Obligations.VoteResults : Prop :=
  (∀ (s : State) (d a : BitVec 7),
    let x := s.x a.toNat
    Issues s [d, a] [a] → Quiet s → s.me.member ≠ .attached →
      Writes s (.voteany d a) d (if x = 0 then 0 else 1) 4 ∧
      Writes s (.voteall d a) d (if x = 0 then 0 else 1) 4 ∧
      Writes s (.votecnt d a) d (if x = 0 then 0 else 1) 4 ∧
      Writes s (.votemax d a) d x 4) ∧
  (∀ (s : State) (w : Weave) (d a : BitVec 7),
    let ids := s.attachedMembers s.me.weave
    let val := fun id => if id = s.cur then s.x a.toNat else match (s.slot id).wait with
      | .vote _ _ v => v
      | _ => 0
    let vs : List Word := ids.map val
    let gets := fun (i : Instr) (v : Word) => ∃ t, exec i s = .next t ∧ t.x d.toNat = (if d = 0 then 0 else v) ∧
      ∀ id ∈ ids, (t.slot id).wait = .none
    let others := fun (fn : Nat) => ∀ id ∈ ids, id ≠ s.cur → ∃ e v, (s.slot id).wait = .vote fn e v ∧
      s.entryOf id e ≠ s.entryOf s.cur d.toNat
    Issues s [d, a] [a] → Quiet s → mapFind s.weaves s.me.weave = some w → w.ctx = true → s.cur ∈ ids →
      (others 4 → gets (.voteany d a) (if ∃ v ∈ vs, v ≠ 0 then 1 else 0)) ∧
      (others 5 → gets (.voteall d a) (if ∀ v ∈ vs, v ≠ 0 then 1 else 0)) ∧
      (others 6 → gets (.votecnt d a) (BitVec.ofNat 64 (vs.filter (· != 0)).length)) ∧
      (others 7 → ∃ v ∈ vs, gets (.votemax d a) v ∧ ∀ v' ∈ vs, v'.toInt ≤ v.toInt))

/-- R55: COIL captures its frame, from the queue or from memory, once all its words are there, and its first word issues next; a second COIL and a
frame word without a class raise 0x16, the latter with the word's address. A branch or a followed jump ends the words that the queue can hold
after it (log 36), and a frame word that could not be fetched raises its own fault (R163). R55, R56: pass k of a captured `ADD xd, xa, xb` adds with each
register number raised by k times its stride. That the whole frame is in place at COIL's own step is the model's choice (log 36); R56 has the first pass
capture the words as they issue. -/
def Obligations.CoilForms : Prop :=
  (∀ (s s' : State) (n : BitVec 4) (r : BitVec 6) (sd sa sb : BitVec 5) (ws : List IWord),
      let strides := [sd.toNat, sa.toNat, sb.toNat]
      let captured := fun (t : State) => (t.slot s.cur).pc = s.me.pc + 4 ∧ (t.slot s.cur).wait = .none ∧
        (t.slot s.cur).coil = some ⟨ws, r.toNat + 1, sd.toNat, sa.toNat, sb.toNat, 0, 0, s.me.pc + 4, false⟩
      (s.me.coil = none → s.me.member = .attached →
        queueFrame strides (r.toNat + 1) (n.toNat + 1) s.me.queue.tail = .words ws →
        ∃ t, exec (.coil n r sd sa sb) s = .next t ∧ captured t ∧ t = { s with slots := t.slots }) ∧
      (s.me.coil = none → s.me.member ≠ .attached →
        s.strandFrame s.cur strides (r.toNat + 1) (n.toNat + 1) (s.me.pc + 4) = (s', .words ws) →
        s'.cur = s.cur → (s'.slot s.cur) = s.me →
        ∃ t, exec (.coil n r sd sa sb) s = .next t ∧ captured t) ∧
      (s.me.coil ≠ none → Traps s (.coil n r sd sa sb) 0x16 (BitVec.ofNat 64 s.me.pc)) ∧
      (∀ q q', s.me.coil = none → s.me.member = .attached → s.me.queue.tail = q ++ q' → q.length = n.toNat + 1 →
        (∀ e ∈ q, e.fault = none ∧ endsFrame e.addr e.word = false ∧ isLongMajor e.word = false) →
        ∀ e ∈ q.head?, frameFields e.word = none → Traps s (.coil n r sd sa sb) 0x16 (BitVec.ofNat 64 e.addr)) ∧
      (∀ e q, s.me.coil = none → s.me.member = .attached → s.me.queue.tail = e :: q →
        (e.fault = none → endsFrame e.addr e.word = true → frameFields e.word = none →
          Traps s (.coil n r sd sa sb) 0x16 (BitVec.ofNat 64 e.addr)) ∧
        (∀ tr, e.fault = some tr → n ≠ 0 ∨ tr.val.toNat ≠ e.addr + 4 → exec (.coil n r sd sa sb) s = .next (s.trap tr))) ∧
      (s.me.coil = none → s.me.member = .attached → s.me.queue.tail.length < n.toNat + 1 →
        (∀ e ∈ s.me.queue.tail, e.fault = none ∧ endsFrame e.addr e.word = false ∧ isLongMajor e.word = false) →
        exec (.coil n r sd sa sb) s = .next s)) ∧
  (∀ (s : State) (c : Coil) (d a b : BitVec 7),
      let d' : BitVec 7 := BitVec.ofNat 7 (d.toNat + c.k * c.sd)
      let a' : BitVec 7 := BitVec.ofNat 7 (a.toNat + c.k * c.sa)
      let b' : BitVec 7 := BitVec.ofNat 7 (b.toNat + c.k * c.sb)
      s.me.coil = some c → c.suspended = false → s.me.wait.boundary = true →
        nth c.words c.i = some (wordRRR 0x04000000 d a b 0x00) →
        d.toNat + c.k * c.sd < 128 → a.toNat + c.k * c.sa < 128 → b.toNat + c.k * c.sb < 128 →
        Issues s [d', a', b'] [a', b'] →
        Writes s (.coilReplayIssue s.cur) d' (s.x a'.toNat + s.x b'.toNat) 4)
/-! ### Memory (R165 to R181) -/

/-- R165, R166: a plain or acquire load whose data is at hand writes x(t) as its size code says. -/
def Obligations.LoadResults : Prop :=
  ∀ (s s1 : State) (t b : BitVec 7) (z : BitVec 3) (o : BitVec 7) (r : BitVec 2) (p : Place),
    let n := 2 ^ (z.toNat / 2)
    let va := operandAddr s b o n
    let loc := s1.dataLoc p.gpa p.home
    let v := s1.readAs (s.slotKey s.cur) loc n
    z ≠ 7 → r = 0 ∨ r = 2 → Issues s [t, b] [b] → s.checkLocal s.cur va n n .read false = (s1, .ok p) →
      AtHand s1 p → Clean s1 loc n → Alone s p.gpa n →
      WritesFrom s s1 (.ld t b z o r) t
        (if z = 1 ∨ z = 3 ∨ z = 5 ∨ z = 6 then BitVec.ofNat 64 v else BitVec.ofInt 64 (BitVec.ofNat (8 * n) v).toInt) 4

/-- R167: a plain store, and a release store with no access of its slot in flight, stores the low bytes of x(t) and changes no other byte,
no register and no full/empty bit. -/
def Obligations.StoreResults : Prop :=
  ∀ (s s1 : State) (t b : BitVec 7) (z : BitVec 3) (o : BitVec 7) (r : BitVec 2) (p : Place),
    let n := 2 ^ (z.toNat / 2)
    let va := operandAddr s b o n
    let loc := s1.dataLoc p.gpa p.home
    z = 0 ∨ z = 2 ∨ z = 4 ∨ z = 6 → r = 0 ∧ Alone s p.gpa n ∨ r = 2 ∧ Quiet s → Issues s [t, b] [t, b] →
      s.checkLocal s.cur va n n .write false = (s1, .ok p) → Memory.wf s.mem = true →
      p.gpa < 2 ^ 64 → AtHand s1 p → Clean s1 (loc / 128 * 128) 256 → NoBarrierWait s p.gpa n →
      Stores s (.st t b z o r) loc ((List.range n).map fun i => (s.x t.toNat).extractLsb' (8 * i) 8)

/-- R165: the checks that fail before an access leaves its slot, in their order, for loads, stores, LSYNC forms and atomics: an address of 2^47 or
more, a misaligned one, no translation for the home of an empty mask (R79), a missing permission bit or user bit, the DRAM slice for an LSYNC form,
a write to the system area, and a byte locked to another slot. An address that the buffers do not translate waits for a walk (R76). An instruction
that traps here changes nothing but its slot's trap entry. -/
def Obligations.AccessChecks : Prop :=
  ∀ (s : State) (t b v : BitVec 7) (z : BitVec 3) (o : BitVec 7) (r : BitVec 2) (c : BitVec 1),
    let n := 2 ^ (z.toNat / 2)
    let a := operandAddr s b o n
    let f := operandAddr s b o 8
    let x := (s.x b.toNat).toNat
    let plain : List (Instr × Nat × Nat × Need × List (BitVec 7) × List (BitVec 7)) :=
      [(.ld t b z o r, n, a, .read, [t, b], [b]), (.st t b z o r, n, a, .write, [t, b], [t, b])] ++
      ([.aaddD t b v c, .aandD t b v c, .aorD t b v c, .axorD t b v c, .aminD t b v c, .amaxD t b v c, .aminuD t b v c, .amaxuD t b v c,
        .aswapD t b v].map fun i : Instr => (i, 8, x, .both, [t, b, v], [b, v])) ++
      ([.aaddW t b v c, .aandW t b v c, .aorW t b v c, .axorW t b v c, .aminW t b v c, .amaxW t b v c, .aminuW t b v c, .amaxuW t b v c,
        .aswapW t b v, .afadd t b v c, .afmin t b v c, .afmax t b v c].map fun i : Instr => (i, 4, x, .both, [t, b, v], [b, v])) ++
      [(.acasD t b v, 8, x, .both, [t, b, v], [t, b, v]), (.acasW t b v, 4, x, .both, [t, b, v], [t, b, v])]
    let lsync : List (Instr × Nat × Nat × Need × List (BitVec 7) × List (BitVec 7)) :=
      [(.ldf t b o r, 8, f, .read, [t, b], [b]), (.ldfe t b o r, 8, f, .both, [t, b], [b]), (.stfe t b o r, 8, f, .both, [t, b], [t, b]),
       (.stf t b o r, 8, f, .write, [t, b], [t, b]), (.sete b o r, 8, f, .write, [b], [b])]
    ∀ g ∈ plain.map (·, false) ++ lsync.map (·, true),
      let i := g.1.1
      let size := g.1.2.1
      let va := g.1.2.2.1
      let need := g.1.2.2.2.1
      let sram := g.2
      Issues s g.1.2.2.2.2.1 g.1.2.2.2.2.2 →
        (2 ^ 47 ≤ va → Traps s i 0x05 (BitVec.ofNat 64 va)) ∧
        (va < 2 ^ 47 → va % size ≠ 0 → Traps s i 0x04 (BitVec.ofNat 64 va)) ∧
        (∀ s1, va < 2 ^ 47 → va % size = 0 → s.xlate s.cur false va = (s1, none) → exec i s = .next (s1.parkWalk s.cur false va)) ∧
        (∀ s1 e, va < 2 ^ 47 → va % size = 0 → s.xlate s.cur false va = (s1, some e) →
          let p := e.phys (s.cur / 512) va
          let lpa := p.gpa % 2 ^ 45
          let fails := fun (cause : Nat) => exec i s = .next (s1.trapWith cause (BitVec.ofNat 64 va))
          let empty := isDram lpa = true ∧ s1.homeOf (s.cur / 512) p.hk p.home lpa = none
          let allowed := (need = .read ∨ e.w = true) ∧ (need = .write ∨ e.rd = true) ∧ (s.me.mode = true ∨ e.u = true)
          let onDram := sram = true ∧ isDram lpa = true
          let system := need ≠ .read ∧ isSystemArea lpa = true
          (empty → e.global = false → fails 0x05) ∧
          (¬empty → ¬allowed → fails 0x08) ∧
          (¬empty → allowed → onDram → fails 0x08) ∧
          (¬empty → allowed → ¬onDram → system → fails 0x07) ∧
          (¬empty → allowed → ¬onDram → ¬system → p.gpa % size = 0 → isSram lpa = true →
            s1.lockedElsewhere (linOf p.gpa) (lpa / 4096) s.cur = true → fails 0x07))

/-- R168, R174: a relaxed load or atomic leaves its slot: the slot goes on, the presence bit of x(t) is 0, its value stays, and no byte has
changed. A relaxed store leaves its slot with no register changed. Each is one more access in flight, and one of creel SRAM takes its place before
the slot's next turn, later by the requests of the cycle to other rows of its bank that stand ahead of it (R68). -/
def Obligations.RelaxedAccess : Prop :=
  ∀ (s s1 : State) (t b v : BitVec 7) (z : BitVec 3) (o : BitVec 7) (p : Place),
    let n := 2 ^ (z.toNat / 2)
    let leaves := fun (i : Instr) (clears : Bool) => ∃ u a, exec i s = .next u ∧ u.accesses = s.accesses ++ [a] ∧
      a.slot = s.cur ∧ a.relaxed = true ∧ u.slot s.cur = s.me.advance 4 ∧ OtherSlots s u s.cur ∧ SameMemory s u ∧
      (∀ e, (u.entry e).val = (s.entry e).val) ∧
      OtherEntries s u (fun e => clears = true ∧ e = s.entryOf s.cur t.toNat) ∧
      (clears = true → u.presOf s.cur t.toNat = false) ∧ s.cycle < a.due ∧
      (p.home = none → a.due ≤ s.cycle + 15 + s1.bankAhead p.gpa)
    let clean := Clean s1 (s1.dataLoc p.gpa p.home / 128 * 128) 256
    (s.relaxedOut s.cur < 8) → t ≠ 0 →
      (z ≠ 7 → Issues s [t, b] [b] → Alone s p.gpa n →
        s.checkLocal s.cur (operandAddr s b o n) n n .read false = (s1, .ok p) → leaves (.ld t b z o 1) true) ∧
      (z = 0 ∨ z = 2 ∨ z = 4 ∨ z = 6 → Issues s [t, b] [t, b] → Alone s p.gpa n → clean →
        s.checkLocal s.cur (operandAddr s b o n) n n .write false = (s1, .ok p) → leaves (.st t b z o 1) false) ∧
      (Issues s [t, b, v] [b, v] → Alone s p.gpa 8 → clean →
        s.checkLocal s.cur (s.x b.toNat).toNat 8 8 .both false = (s1, .ok p) → leaves (.aaddD t b v 1) true)

/-- R173: what each atomic without .c writes to x(d) and to its word. `old` is the word at its place. A failed ACAS writes nothing. -/
def Obligations.AtomicResults : Prop :=
  ∀ (s s1 : State) (d a v : BitVec 7) (p : Place) (n : Nat),
    let va := (s.x a.toNat).toNat
    let loc := s1.dataLoc p.gpa p.home
    let old := s1.readAs (s.slotKey s.cur) loc n
    let x := (s.x v.toNat).toNat % 2 ^ (8 * n)
    let e := (s.x d.toNat).toNat % 2 ^ (8 * n)
    let so := (BitVec.ofNat (8 * n) old).toInt
    let sx := (BitVec.ofNat (8 * n) x).toInt
    let does := fun (i : Instr) (new : Nat) => ∃ t, exec i s = .next t ∧
      t.x d.toNat = (if d = 0 then 0 else BitVec.ofNat 64 old) ∧ t.presOf s.cur d.toNat = true ∧
      OtherEntries s t (fun e => d ≠ 0 ∧ e = s.entryOf s.cur d.toNat) ∧ Stored s t (s.slotKey s.cur) loc (natBytes new n) ∧
      t.slot s.cur = s.me.advance 4 ∧ OtherSlots s t s.cur ∧ t.empties = s.empties
    let forms : List (Nat × Instr × Instr × Nat) :=
      [(0, .aaddD d a v 0, .aaddW d a v 0, (old + x) % 2 ^ (8 * n)), (1, .aandD d a v 0, .aandW d a v 0, old &&& x),
       (2, .aorD d a v 0, .aorW d a v 0, old ||| x), (3, .axorD d a v 0, .axorW d a v 0, old ^^^ x),
       (4, .aminD d a v 0, .aminW d a v 0, if sx < so then x else old),
       (5, .amaxD d a v 0, .amaxW d a v 0, if so < sx then x else old),
       (6, .aminuD d a v 0, .aminuW d a v 0, if x < old then x else old),
       (7, .amaxuD d a v 0, .amaxuW d a v 0, if old < x then x else old), (8, .aswapD d a v, .aswapW d a v, x)]
    s.checkLocal s.cur va n n .both false = (s1, .ok p) → Memory.wf s.mem = true → p.gpa < 2 ^ 64 → AtHand s1 p →
      Clean s1 (loc / 128 * 128) 256 → Alone s p.gpa n → NoBarrierWait s p.gpa n →
      (Issues s [d, a, v] [a, v] →
        (∀ f ∈ forms, (n = 8 → does f.2.1 f.2.2.2) ∧ (n = 4 → does f.2.2.1 f.2.2.2)) ∧
        (n = 4 → does (.afadd d a v 0) (fp32.add 0 old x) ∧ does (.afmin d a v 0) (fp32.minMax false old x) ∧
          does (.afmax d a v 0) (fp32.minMax true old x))) ∧
      (Issues s [d, a, v] [d, a, v] →
        (n = 8 → does (.acasD d a v) (if old = e then x else old)) ∧ (n = 4 → does (.acasW d a v) (if old = e then x else old)))

/-- R170: an LSYNC form whose condition holds, on a word of creel SRAM that no slot waits on: what it writes to x(t), to the word and to its
full/empty bit. R171: one whose condition does not hold joins the tail of its word's wait list with nothing written. -/
def Obligations.LsyncForms : Prop :=
  (∀ (s s1 : State) (t b o : BitVec 7) (r : BitVec 2) (p : Place),
      let va := operandAddr s b o 8
      let key := s.slotKey s.cur
      let word := BitVec.ofNat 64 (s1.readAs key p.gpa 8)
      let bytes := (List.range 8).map fun i => (s.x t.toNat).extractLsb' (8 * i) 8
      let reads := fun (i : Instr) (full : Bool) => ∃ u, exec i s = .next u ∧ u.x t.toNat = (if t = 0 then 0 else word) ∧
        OtherEntries s u (fun e => t ≠ 0 ∧ e = s.entryOf s.cur t.toNat) ∧ SameMemory s u ∧ u.fe p.gpa = full ∧
        (∀ g, g / 8 ≠ p.gpa / 8 → u.fe g = s.fe g) ∧ u.slot s.cur = s.me.advance 4 ∧ OtherSlots s u s.cur
      let writes := fun (i : Instr) => ∃ u, exec i s = .next u ∧ Stored s u key p.gpa bytes ∧ u.regs = s.regs ∧ u.fe p.gpa = true ∧
        (∀ g, g / 8 ≠ p.gpa / 8 → u.fe g = s.fe g) ∧ u.slot s.cur = s.me.advance 4 ∧ OtherSlots s u s.cur
      let at_ := fun (need : Need) => s.checkLocal s.cur va 8 8 need true = (s1, .ok p)
      Memory.wf s.mem = true → Rising s.empties → Clean s1 (p.gpa / 128 * 128) 256 → Quiet s → NoBarrierWait s p.gpa 8 →
        p.gpa < 2 ^ 64 → (∀ l ∈ (s.creel (linOf p.gpa)).lwaits, l.gpa / 8 ≠ p.gpa / 8) →
        (Issues s [t, b] [b] → s.fe p.gpa = true → (at_ .read → reads (.ldf t b o r) true) ∧ (at_ .both → reads (.ldfe t b o r) false)) ∧
        (Issues s [t, b] [t, b] → (s.fe p.gpa = false → at_ .both → writes (.stfe t b o r)) ∧ (at_ .write → writes (.stf t b o r))) ∧
        (Issues s [b] [b] → at_ .write → ∃ u, exec (.sete b o r) s = .next u ∧ u.regs = s.regs ∧ SameMemory s u ∧ u.fe p.gpa = false ∧
          (∀ g, g / 8 ≠ p.gpa / 8 → u.fe g = s.fe g) ∧ u.slot s.cur = s.me.advance 4 ∧ OtherSlots s u s.cur)) ∧
  (∀ (s s1 : State) (t b o : BitVec 7) (r : BitVec 2) (p : Place),
      let va := operandAddr s b o 8
      let waits := fun (i : Instr) (form : Nat) => ∃ u, exec i s = .next u ∧ u.regs = s.regs ∧ SameMemory s u ∧ u.empties = s.empties ∧
        (u.creel (s.cur / 512)).lwaits = (s.creel (s.cur / 512)).lwaits ++ [⟨s.cur, form, p.gpa, va, p.bits, t.toNat, s.x t.toNat⟩] ∧
        (u.slot s.cur).pc = s.me.pc ∧ (u.slot s.cur).wait = .lsync
      Quiet s → Clean s1 (p.gpa / 128 * 128) 256 →
        (Issues s [t, b] [b] → s.fe p.gpa = false →
          (s.checkLocal s.cur va 8 8 .read true = (s1, .ok p) → waits (.ldf t b o r) 0) ∧
          (s.checkLocal s.cur va 8 8 .both true = (s1, .ok p) → waits (.ldfe t b o r) 1)) ∧
        (Issues s [t, b] [t, b] → s.fe p.gpa = true → s.checkLocal s.cur va 8 8 .both true = (s1, .ok p) →
          waits (.stfe t b o r) 2))

/-- R172, R63: a GLD that names the executing creel is a plain load of its memory through the global tables; one that names another creel
sends a request and parks its slot, with nothing written. -/
def Obligations.GldForms : Prop :=
  ∀ (s s1 : State) (t b : BitVec 7) (z : BitVec 3) (o : BitVec 7) (r : BitVec 2) (e : Tlb) (q : Place),
    let n := 2 ^ (z.toNat / 2)
    let va := operandAddr s b o n
    let ph := e.phys (s.cur / 512) va
    let loc := s1.dataLoc q.gpa q.home
    let v := s1.readAs (s.slotKey s.cur) loc n
    z ≠ 7 → r ≠ 3 → Issues s [t, b] [b] → va % n = 0 → s.xlate s.cur true va = (s1, some e) →
      (linOf ph.gpa = s.cur / 512 → s1.checkPlace s.cur va n .read false e = .ok q → AtHand s1 q → Clean s1 loc n →
        Alone s q.gpa n →
        WritesFrom s s1 (.gld t b z o r) t
          (if z = 1 ∨ z = 3 ∨ z = 5 ∨ z = 6 then BitVec.ofNat 64 v else BitVec.ofInt 64 (BitVec.ofNat (8 * n) v).toInt) 4) ∧
      (linOf ph.gpa ≠ s.cur / 512 → permitted e .read s.me.mode = true → s.isLost (s.cur / 512) (linOf ph.gpa / 128) = false →
        r ≠ 0 → s.budgetOpen (s.cur / 512) 0 = true →
        ∃ u a, exec (.gld t b z o r) s = .next u ∧ u.accesses = s.accesses ++ [a] ∧ a.slot = s.cur ∧
          a.kind = .gld z.toNat r.toNat ∧ a.reg = t.toNat ∧ u.regs = s.regs ∧ SameMemory s u ∧ (u.slot s.cur).pc = s.me.pc ∧
          (u.slot s.cur).wait = .access a.id)
/-! ### Barrier objects (R176 to R180) -/

/-- R178: BARI writes E and zeros; a count of 0 or above 4,095 raises 0x0D and writes nothing. -/
def Obligations.BariResults : Prop :=
  ∀ (s s1 : State) (a b : BitVec 7) (p : Place),
    let va := (s.x a.toNat).toNat
    let e := (s.x b.toNat).toNat
    Issues s [a, b] [a, b] → Quiet s → s.checkLocal s.cur va 16 16 .both true = (s1, .ok p) →
      (1 ≤ e → e ≤ 4095 → Memory.wf s.mem = true → p.gpa < 2 ^ 64 → NoBarrierWait s p.gpa 16 →
        Stores s (.bari a b) p.gpa (natBytes e 8 ++ natBytes 0 8)) ∧
      (e = 0 ∨ 4095 < e → TrapsFrom s s1 (.bari a b) 0x0D (BitVec.ofNat 64 va))

/-- R176, R179: an arrival. `w0` and `w1` are the object's words; `count q` is the field that counts arrivals for the phase q ahead, at bit
`place q` of word 0, and `lead c` is LEAD of core c. The arrival raises its phase's count and its core's LEAD. Then every phase that is complete, up to
four in a row, ends: the phase advances, the counts move down, and each LEAD falls by one. A parked arrival for which there is room now arrives in
its turn, and a parked wait whose phase has completed returns 1. -/
def Obligations.BaraResults : Prop :=
  ∀ (s s1 : State) (d a b : BitVec 7) (p : Place),
    let i := Instr.bara d a b
    let va := (s.x a.toNat).toNat
    let x := (s.x b.toNat).toNat
    let k := x / 2 ^ 4 % 2 ^ 12
    let key := s.slotKey s.cur
    let w0 := s1.readAs key p.gpa 8
    let w1 := s1.readAs key (p.gpa + 8) 8
    let place := fun (q : Nat) => if q = 0 then 12 else if q = 1 then 28 else if q = 2 then 40 else 52
    let count := fun (q : Nat) => w0 / 2 ^ place q % 2 ^ 12
    let lead := fun (w c : Nat) => w / 2 ^ (2 * c) % 4
    let e := w0 % 2 ^ 12
    let phase := w0 / 2 ^ 24 % 16
    let δ := (x % 16 + 16 - phase) % 16
    let count' := fun (q : Nat) => if 4 ≤ q then 0 else if q = δ then count q + k else count q
    let ends := fun (n : Nat) => n ≤ 4 ∧ (∀ q, q < n → count' q = e) ∧ (n < 4 → count' n ≠ e)
    let word := fun (n : Nat) => e + count' n * 2 ^ 12 + (phase + n) % 16 * 2 ^ 24 + count' (n + 1) * 2 ^ 28 + count' (n + 2) * 2 ^ 40 +
      count' (n + 3) * 2 ^ 52
    let set := fun (bit : Nat) => if w1.testBit bit then w1 else w1 + 2 ^ bit
    let flags := fun (cause bit : Nat) => ∃ s2, exec i s = .next (s2.trapWith cause (BitVec.ofNat 64 va)) ∧
      Stored s s2 key p.gpa (natBytes w0 8 ++ natBytes (set bit) 8) ∧ s2.regs = s.regs ∧ s2.slots = s.slots
    let lin := s.cur / 512
    Issues s [d, a, b] [a, b] → Quiet s → s.checkLocal s.cur va 16 16 .both true = (s1, .ok p) →
      Memory.wf s.mem = true → Clean s1 (p.gpa / 128 * 128) 256 →
      ((∀ w ∈ (s.creel lin).bwaits, w.gpa ≠ p.gpa) →
        (e = 0 → flags 0x0D 48) ∧
        (e ≠ 0 → 8 ≤ δ → flags 0x0E 49) ∧
        (e ≠ 0 → δ < 4 → e < count δ + k → flags 0x0D 48) ∧
        (e ≠ 0 → 4 ≤ δ → δ < 8 → ∃ t, exec i s = .next t ∧ t.regs = s.regs ∧ (t.slot s.cur).wait = .bara ∧
          (t.slot s.cur).pc = s.me.pc ∧ Stored s t key p.gpa (natBytes w0 8 ++ natBytes (set 50) 8) ∧
          (t.creel lin).bwaits = (s.creel lin).bwaits ++ [⟨s.cur, true, p.gpa, va, p.bits, x % 16, k, d.toNat⟩]) ∧
        (∀ n, e ≠ 0 → δ < 4 → count δ + k ≤ e → ends n → ∃ t, exec i s = .next t ∧
          t.x d.toNat = (if d = 0 then 0 else BitVec.ofNat 64 (word n)) ∧ t.readAs key p.gpa 8 = word n ∧
          t.readAs key (p.gpa + 8) 8 / 2 ^ 48 = w1 / 2 ^ 48 ∧
          (∀ c, c < 24 → lead (t.readAs key (p.gpa + 8) 8) c =
            (if c = s.cur / 16 % 32 then max (lead w1 c) δ else lead w1 c) - n) ∧
          (∀ g, g < p.gpa ∨ p.gpa + 16 ≤ g → t.byteAs key g = s.byteAs key g) ∧
          OtherEntries s t (fun e => d ≠ 0 ∧ e = s.entryOf s.cur d.toNat) ∧ t.slot s.cur = s.me.advance 4 ∧
          OtherSlots s t s.cur)) ∧
      (∀ n w, (s.creel lin).bwaits = [w] → w.gpa = p.gpa → w.slot ≠ s.cur → s.slotKey w.slot = key →
        s.entryOf w.slot w.reg ≠ s.entryOf s.cur d.toNat → e ≠ 0 → δ < 4 → count δ + k ≤ e → ends n → 1 ≤ n →
        let δ' := (w.phase % 16 + 16 - (phase + n) % 16) % 16
        let goesOn := fun (v : Nat) => ∃ t, exec i s = .next t ∧ t.regOf w.slot w.reg = (if w.reg = 0 then 0 else BitVec.ofNat 64 v) ∧
          t.presOf w.slot w.reg = true ∧ t.slot w.slot = (s.slot w.slot).advance 4 ∧ (t.creel lin).bwaits = [] ∧
          t.x d.toNat = (if d = 0 then 0 else BitVec.ofNat 64 (word n)) ∧ t.slot s.cur = s.me.advance 4 ∧
          (w.arrive = true → t.readAs key p.gpa 8 = v ∧ t.readAs key (p.gpa + 8) 8 / 2 ^ 50 % 2 = 0)
        (w.arrive = false → 8 ≤ δ' → goesOn 1) ∧
        (w.arrive = true → δ' < 4 → count' (n + δ') + w.count ≤ e →
          (if δ' = 0 then count' n + w.count else count' n) ≠ e → goesOn (word n + w.count * 2 ^ place δ')))

/-- R180: BARW and BART of a phase that has completed write 1; BART of any other writes 0, and BARW parks, with the cycle at which its bound
ends. -/
def Obligations.BarWaitResults : Prop :=
  ∀ (s s1 : State) (d a b : BitVec 7) (p : Place),
    let va := (s.x a.toNat).toNat
    let x := (s.x b.toNat).toNat
    let phase := s1.readAs (s.slotKey s.cur) p.gpa 8 / 2 ^ 24 % 16
    let completed := 8 ≤ (x % 16 + 16 - phase) % 16
    let bound := x / 2 ^ 32
    Issues s [d, a, b] [a, b] → s.checkLocal s.cur va 16 16 .both true = (s1, .ok p) →
      Clean s1 p.gpa 16 → Alone s p.gpa 16 →
      (completed → WritesFrom s s1 (.barw d a b) d 1 4 ∧ WritesFrom s s1 (.bart d a b) d 1 4) ∧
      (¬completed → WritesFrom s s1 (.bart d a b) d 0 4 ∧
        ∃ t, exec (.barw d a b) s = .next t ∧ t.regs = s.regs ∧ SameMemory s t ∧ (t.slot s.cur).pc = s.me.pc ∧
          (t.slot s.cur).wait = .barw (if bound = 0 then 0 else s.cycle + bound) ∧
          (t.creel (s.cur / 512)).bwaits =
            (s.creel (s.cur / 512)).bwaits ++ [⟨s.cur, false, p.gpa, va, p.bits, x % 16, 0, d.toNat⟩])

/-! ### Register messages (R183 to R186) -/

/-- R183, R184: PUTX. The target is slot x(a)[3:0] of the same core and register n = x(a)[10:4] of its window. A slot that became idle in this
cycle counts as busy (R187). A delivered message clears the target's presence bit now and lands 8 cycles later. -/
def Obligations.PutxResults : Prop :=
  ∀ (s : State) (d a b : BitVec 7),
    let x := s.x a.toNat
    let k := s.cur / 16 * 16 + x.toNat % 16
    let n := x.toNat / 16 % 128
    let tg := s.slot k
    let busy := tg.busy = true ∨ tg.idleAt = s.cycle + 1
    let same := tg.world = s.me.world ∧ tg.asid = s.me.asid
    Issues s [d, a, b] [a, b] →
      (busy → ¬same → Traps s (.putx d a b) 0x07 x) ∧
      (¬busy → Writes s (.putx d a b) d 1 4) ∧
      (busy → same → n = 0 ∨ tg.limit ≤ tg.base + n → Writes s (.putx d a b) d 2 4) ∧
      (busy → same → 0 < n → tg.base + n < tg.limit →
        ∃ t, exec (.putx d a b) s = .next t ∧ t.x d.toNat = 0 ∧
          (∃ id, t.putxs = s.putxs ++ [⟨id, k, tg.weave, s.entryOf k n, s.x b.toNat, s.cycle + 8⟩]) ∧
          (t.entry (s.entryOf k n)).pres = false ∧
          OtherEntries s t (fun e => e = s.entryOf k n ∨ d ≠ 0 ∧ e = s.entryOf s.cur d.toNat) ∧
          t.slot s.cur = s.me.advance 4 ∧ OtherSlots s t s.cur ∧ SameMemory s t)

/-- R184, R185: a message lands with its value, and tells an interrupting entry's slot. EMPTYX clears the presence bit of x(d) and may mark
the entry as interrupting; EMPTYX x0 has no effect. A reply that the register awaits is kept, by a message that lands (log 27) and by EMPTYX (log
45): those are the model's choices. -/
def Obligations.MessageLands : Prop :=
  (∀ (s : State) (p : Putx) (rest : List Putx),
    s.putxs = p :: rest → p.due ≤ s.cycle → ∃ t, exec (.putxLand p.id) s = .next t ∧ p ∉ t.putxs ∧ SameMemory s t ∧
      ((s.slot p.slot).busy = true → (s.slot p.slot).weave = p.weave →
        t.entry p.entry = ⟨p.value, true, false, (s.entry p.entry).tok⟩ ∧ OtherEntries s t (· = p.entry) ∧
        (t.slot p.slot).upend = (if (s.entry p.entry).mark then (s.slot p.slot).upend ||| 2 else (s.slot p.slot).upend)) ∧
      ((s.slot p.slot).busy = false ∨ (s.slot p.slot).weave ≠ p.weave → t.regs = s.regs ∧ t.slots = s.slots)) ∧
  (∀ (s : State) (d a : BitVec 7),
    Issues s [d, a] [a] →
      (d = 0 → Passes s (.emptyx d a)) ∧
      (d ≠ 0 → ∃ t, exec (.emptyx d a) s = .next t ∧ t.presOf s.cur d.toNat = false ∧
        (let r := s.entry (s.entryOf s.cur d.toNat)
         t.entry (s.entryOf s.cur d.toNat) = ⟨r.val, false, r.mark || (s.x a.toNat).getLsbD 0, r.tok⟩) ∧
        OtherEntries s t (· = s.entryOf s.cur d.toNat) ∧ t.slot s.cur = s.me.advance 4 ∧ OtherSlots s t s.cur ∧ SameMemory s t))

/-- R186: SPAWN. The status of each row of its table, the two traps, and what a started slot holds. That x3 to x8 are copied whatever their presence
bits is the model's choice (log 52). -/
def Obligations.SpawnResults : Prop :=
  ∀ (s : State) (d a b : BitVec 7),
    let i := Instr.spawn d a b
    let x := (s.x a.toNat).toNat
    let ent := s.x b.toNat
    let core := s.cur / 16
    let k := 16 * core + x % 16
    let ws := x / 2 ^ 4 % 2 ^ 5
    let busy := (s.slot k).busy = true ∨ (s.slot k).idleAt = s.cycle + 1
    let entryOk := ent.toNat % 4 = 0 ∧ ent.toNat < 2 ^ 47
    let row := ((s.core core).slotEntry (x % 16))
    let admits := row / 2 ^ 15 % 2 = 1 ∧ row / 2 ^ 9 % 2 ^ 6 = s.me.world.toNat ∧
      (row / 2 ^ 16 % 2 = 1 ∨ row % 2 ^ 9 = s.me.asid.toNat)
    Issues s [d, a, b] [a, b] → Quiet s →
      (ws = 0 ∨ 16 < ws → Traps s i 0x01 (wordOf i)) ∧
      (1 ≤ ws → ws ≤ 16 → ¬entryOk → Traps s i 0x05 ent) ∧
      (1 ≤ ws → ws ≤ 16 → entryOk → busy → Writes s i d 1 4) ∧
      (1 ≤ ws → ws ≤ 16 → entryOk → ¬busy → ¬admits → Writes s i d 3 4) ∧
      (1 ≤ ws → ws ≤ 16 → entryOk → ¬busy → admits → s.freeRun core (8 * ws) = none → Writes s i d 2 4) ∧
      (∀ base, 1 ≤ ws → ws ≤ 16 → entryOk → ¬busy → admits → s.freeRun core (8 * ws) = some base → s.me.busy = true →
        ∃ t, exec i s = .next t ∧ t.x d.toNat = 0 ∧ SameMemory s t ∧ t.slot s.cur = s.me.advance 4 ∧
          (t.slot k).busy = true ∧ (t.slot k).base = base ∧ (t.slot k).limit = base + 8 * ws ∧ (t.slot k).pc = ent.toNat ∧
          (t.slot k).memb = 0 ∧ (t.slot k).width = 1 ∧ (t.slot k).world = s.me.world ∧ (t.slot k).asid = s.me.asid ∧
          (t.slot k).fa = s.me.fa ∧ (t.slot k).fb = s.me.fb ∧ (t.slot k).fc = s.me.fc ∧ (t.slot k).sa = s.me.sa ∧
          (t.slot k).sb = s.me.sb ∧ (t.slot k).gtau = s.me.gtau ∧
          (∀ n, 1 ≤ n → n < 8 * ws → t.presOf k n = true ∧
            t.regOf k n = if 3 ≤ n ∧ n ≤ 8 ∧ s.me.base + n < s.me.limit then s.x n else 0))

/-! ### Fences (R93, R175) -/

/-- R93, R175: a fence with nothing to wait for and no fault pending completes; one with an access in flight waits at the boundary and changes nothing
else, and the wait of FENCE.E is one that events end (R373). FENCE.I discards the fetched lines of the core and its creel; in an attached member it
acts like a conditional branch to the next address (R46, R47): the pilot resolves it, and its weave goes on there, and a later member waits at it.
FENCE.E raises the pending failure of the lowest ticket. A pending relaxed-load fault is raised first. -/
def Obligations.FenceResults : Prop :=
  ∀ (s : State),
    let drops := fun (t : State) => (t.core (s.cur / 16)).icache = [] ∧ (t.creel (s.cur / 16 / 32)).icache = [] ∧ t.regs = s.regs ∧
      SameMemory s t
    (NoFault s → Quiet s →
      Passes s .fence ∧
      (s.enginesOut s.cur = false → s.me.failures = [] → Passes s .fenceE) ∧
      (∀ f ∈ s.me.failures, s.enginesOut s.cur = false → (∀ g ∈ s.me.failures, g ≠ f → f.ticket < g.ticket) → ∃ t : State,
        exec .fenceE s = .next (t.trap ⟨f.cause, BitVec.ofNat 64 f.ticket, true⟩) ∧
          t.slot s.cur = { s.me with failures := s.me.failures.erase f } ∧ t.cur = s.cur) ∧
      (s.me.member ≠ .attached → ∃ t, exec .fenceI s = .next t ∧ t.slot s.cur = s.me.advance 4 ∧ drops t) ∧
      (∀ e q, s.me.member = .attached → s.me.queue = e :: q → e.resolved = some (s.me.pc + 4) →
        ∃ t, exec .fenceI s = .next t ∧ drops t ∧ t.slot s.cur = s.me.jump (s.me.pc + 4)) ∧
      (∀ e q n, s.me.member = .attached → s.me.queue = e :: q → e.resolved = some n → n ≠ s.me.pc + 4 →
        ∃ t, exec .fenceI s = .next t ∧ (t.core (s.cur / 16)).icache = [] ∧ (t.slot s.cur).member = .strand ∧
          (t.slot s.cur).pc = s.me.pc + 4 ∧ (t.slot s.cur).queue = []) ∧
      (∀ e q w p ms, s.me.member = .attached → s.me.queue = e :: q → e.resolved = none → mapFind s.weaves s.me.weave = some w →
        w.ctx = true → w.cstate = .branch → s.attachedMembers s.me.weave = p :: ms →
        (p = s.cur → ∃ t w', exec .fenceI s = .next t ∧ drops t ∧ (t.slot s.cur).member = .attached ∧ (t.slot s.cur).wait = .none ∧
          (t.slot s.cur).pc = s.me.pc + 4 ∧ mapFind t.weaves s.me.weave = some w' ∧ w'.cstate = .run ∧ w'.fetchPc = s.me.pc + 4) ∧
        (p ≠ s.cur → s.cur ∈ ms → (∀ n', (s.slot p).wait ≠ .branch n') → ∃ t, exec .fenceI s = .next t ∧ drops t ∧
          t.slot s.cur = s.me.park (.branch (s.me.pc + 4)) ∧ OtherSlots s t s.cur))) ∧
    (NoFault s → ∀ a ∈ s.accesses, a.slot = s.cur →
      (∀ i ∈ [Instr.fence, .fenceI],
        ∃ t, exec i s = .next t ∧ t.slot s.cur = { s.me with wait := .hold } ∧ t = { s with slots := t.slots }) ∧
      ∃ t, exec .fenceE s = .next t ∧ t.slot s.cur = { s.me with wait := .none } ∧ t = { s with slots := t.slots }) ∧
    (∀ f rest, s.me.rfaults = f :: rest → ∀ i ∈ [Instr.fence, .fenceE, .fenceI],
      ∃ t : State, exec i s = .next (t.trap ⟨0x09, f.2, true⟩) ∧ t.slot s.cur = { s.me with rfaults := rest } ∧ t.cur = s.cur)
/-! ### Vectors (R188 to R205) -/

/-- R192, R201: the word and the elements of every VFP and VSPEC instruction. A result of R122 is the exact one, rounded once in the element's
format. `F.exp2`, `F.log2` and `F.exp` compute VEXP2, VLOG2 and VEXP with a working precision that is the model's choice (log 22); R124 asks for the
correctly rounded value. -/
def Obligations.VfpResults : Prop :=
  ∀ (s : State) (d a b c : BitVec 3) (m : BitVec 2) (y : BitVec 4) (r : BitVec 3),
    let F := tyFmt y.toNat
    let w := if y = 0 then 32 else 16
    let A := fun e => elemOf (s.me.w a.toNat) w e
    let B := fun e => elemOf (s.me.w b.toNat) w e
    let C := fun e => elemOf (s.me.w c.toNat) w e
    let va := fun e => F.decode (A e)
    let vb := fun e => F.decode (B e)
    let vc := fun e => F.decode (C e)
    let down := r.toNat == 2
    let ones := fun (p : Bool) => if p then 2 ^ w - 1 else 0
    let forms : List (IWord × Instr × (Nat → Nat)) :=
      [(wordV 0xA8000000 d a b 0 m y r 0x00, .vadd d a b m y r, fun e => F.round r.toNat (Fv.add down (va e) (vb e))),
       (wordV 0xA8000000 d a b 0 m y r 0x01, .vsub d a b m y r, fun e => F.round r.toNat (Fv.add down (va e) (vb e).neg)),
       (wordV 0xA8000000 d a b 0 m y r 0x02, .vmul d a b m y r, fun e => F.round r.toNat (Fv.mul (va e) (vb e))),
       (wordV 0xA8000000 d a b c m y r 0x03, .vfma d a b c m y r,
        fun e => F.round r.toNat (Fv.add down (Fv.mul (va e) (vb e)) (vc e))),
       (wordV 0xA8000000 d a b 0 m y 0 0x04, .vmin d a b m y, fun e => F.minMax false (A e) (B e)),
       (wordV 0xA8000000 d a b 0 m y 0 0x05, .vmax d a b m y, fun e => F.minMax true (A e) (B e)),
       (wordV 0xA8000000 d a 0 0 m y 0 0x06, .vabs d a m y, fun e => if (va e).isNan then F.nan else A e % 2 ^ (w - 1)),
       (wordV 0xA8000000 d a 0 0 m y 0 0x07, .vneg d a m y, fun e => if (va e).isNan then F.nan else A e + 2 ^ (w - 1)),
       (wordV 0xA8000000 d a b 0 m y 0 0x08, .vcmpeq d a b m y,
        fun e => ones (!(va e).isNan && !(vb e).isNan && (va e).cmp (vb e) == 0)),
       (wordV 0xA8000000 d a b 0 m y 0 0x09, .vcmplt d a b m y,
        fun e => ones (!(va e).isNan && !(vb e).isNan && (va e).cmp (vb e) == -1)),
       (wordV 0xA8000000 d a b 0 m y 0 0x0A, .vcmple d a b m y,
        fun e => ones (!(va e).isNan && !(vb e).isNan && (va e).cmp (vb e) != 1)),
       (wordV 0xA8000000 d a b c m y 0 0x0B, .vsel d a b c m y, fun e => if C e = 0 then B e else A e),
       (wordV 0xA8000000 d a b 0 m y r 0x0C, .vdiv d a b m y r, fun e => F.divFv r.toNat (va e) (vb e)),
       (wordV 0xA8000000 d a 0 0 m y r 0x0D, .vsqrt d a m y r, fun e => F.sqrt r.toNat (A e)),
       (wordV 0xA8000000 d a b c m y r 0x0E, .vfms d a b c m y r,
        fun e => F.round r.toNat (Fv.add down (Fv.mul (va e) (vb e)) (vc e).neg)),
       (wordV 0xB8000000 d a 0 0 m y r 0x00, .vexp2 d a m y r, fun e => F.exp2 r.toNat (A e)),
       (wordV 0xB8000000 d a 0 0 m y r 0x01, .vlog2 d a m y r, fun e => F.log2 r.toNat (A e)),
       (wordV 0xB8000000 d a 0 0 m y r 0x02, .vrcp d a m y r, fun e => F.divFv r.toNat (.fin false 1 0) (va e)),
       (wordV 0xB8000000 d a 0 0 m y r 0x03, .vrsq d a m y r, fun e => F.rsqrt r.toNat (A e)),
       (wordV 0xB8000000 d a 0 0 m y r 0x04, .vexp d a m y r, fun e => F.exp r.toNat (A e))]
    y.toNat < 3 → ∀ f ∈ forms, encode f.2.1 = [f.1] ∧ WritesLanes s f.2.1 d m w f.2.2

/-- R193: the word and the elements of every VINT instruction. `sA` and `sB` are the sources read as signed numbers. -/
def Obligations.VintResults : Prop :=
  ∀ (s : State) (d a b c : BitVec 3) (m : BitVec 2) (y : BitVec 4),
    let w := if y = 3 then 32 else if y = 4 then 16 else 8
    let A := fun e => elemOf (s.me.w a.toNat) w e
    let B := fun e => elemOf (s.me.w b.toNat) w e
    let C := fun e => elemOf (s.me.w c.toNat) w e
    let sA := fun e => (BitVec.ofNat w (A e)).toInt
    let sB := fun e => (BitVec.ofNat w (B e)).toInt
    let wrap := fun (v : Int) => (v % 2 ^ w).toNat
    let prod := fun e => (BitVec.ofNat 8 (elemOf (s.me.w a.toNat) 8 e)).toInt * (BitVec.ofNat 8 (elemOf (s.me.w b.toNat) 8 e)).toInt
    let lane := fun e => (BitVec.ofNat 32 (elemOf (s.me.w c.toNat) 32 e)).toInt
    let word := fun (c : BitVec 3) (fn : Nat) => wordV 0xAC000000 d a b c m y 0 fn
    let forms : List (IWord × Instr × (Nat → Nat)) :=
      [(word 0 0x00, .viadd d a b m y, fun e => wrap (sA e + sB e)), (word 0 0x01, .visub d a b m y, fun e => wrap (sA e - sB e)),
       (word 0 0x02, .vimul d a b m y, fun e => wrap (sA e * sB e)),
       (word c 0x03, .vimad d a b c m y, fun e => wrap (sA e * sB e + C e)),
       (word 0 0x04, .vand d a b m y, fun e => A e &&& B e), (word 0 0x05, .vor d a b m y, fun e => A e ||| B e),
       (word 0 0x06, .vxor d a b m y, fun e => A e ^^^ B e),
       (word 0 0x07, .vshl d a b m y, fun e => A e * 2 ^ (B e % w)), (word 0 0x08, .vshr d a b m y, fun e => A e / 2 ^ (B e % w)),
       (word 0 0x09, .vsra d a b m y, fun e => wrap (sA e / 2 ^ (B e % w))),
       (word 0 0x0A, .vimin d a b m y, fun e => wrap (min (sA e) (sB e))),
       (word 0 0x0B, .vimax d a b m y, fun e => wrap (max (sA e) (sB e))),
       (word 0 0x0C, .vicmpeq d a b m y, fun e => if sA e = sB e then 2 ^ w - 1 else 0),
       (word 0 0x0D, .vicmplt d a b m y, fun e => if sA e < sB e then 2 ^ w - 1 else 0)]
    (y = 3 ∨ y = 4 ∨ y = 5 → ∀ f ∈ forms, encode f.2.1 = [f.1] ∧ WritesLanes s f.2.1 d m w f.2.2) ∧
    encode (.vidot4 d a b c m) = [wordV 0xAC000000 d a b c m 5 0 0x0E] ∧
    WritesLanes s (.vidot4 d a b c m) d m 32
      (fun i => ((lane i + prod (4 * i) + prod (4 * i + 1) + prod (4 * i + 2) + prod (4 * i + 3)) % 2 ^ 32).toNat)

/-- R194 to R200: the words and the elements of the VCVT group. -/
def Obligations.VcvtResults : Prop :=
  ∀ (s : State) (d a b c : BitVec 3) (m : BitVec 2) (y : BitVec 4) (r : BitVec 3),
    let A := fun w e => elemOf (s.me.w a.toNat) w e
    let B := fun w e => elemOf (s.me.w b.toNat) w e
    let int := fun w v => (BitVec.ofNat w v).toInt
    let bits := fun w (v : Int) => (v % 2 ^ w).toNat
    let two := fun w n e => if e < n then A w e else B w (e - n)
    let clamp := fun (w : Nat) (v : Int) => max (-2 ^ (w - 1)) (min (2 ^ (w - 1) - 1) v)
    let cvt := fun (w : Nat) (y : BitVec 4) (b c r : BitVec 3) (f : Nat → Nat) =>
      encode (.vcvt d a b c m y r) = [wordV 0xB0000000 d a b c m y r 0x00] ∧ WritesLanes s (.vcvt d a b c m y r) d m w f
    let f := (s.me.desc c.toNat) % 256
    let k := if f = 8 ∨ f = 9 ∨ f = 0x11 then 4 else 8
    let tab := (s.core (s.cur / 16)).entry c.toNat
    let dec := Instr.vdec d a b c m
    let enc := Instr.venc d a b c m r
    let base := b.toNat * 128
    let lane := fun n => base ≤ n ∧ n < base + 128 ∧ (s.me.m m.toNat).getLsbD (n - base) = true
    -- narrowings, widenings and conversions of equal width (R195)
    (cvt 16 1 b 0 r (fun e => bf16.round r.toNat (fp32.decode (two 32 128 e))) ∧
      cvt 16 2 b 0 r (fun e => fp16.round r.toNat (fp32.decode (two 32 128 e))) ∧
      cvt 16 4 b 3 0 (fun e => bits 16 (clamp 16 (int 32 (two 32 128 e)))) ∧
      cvt 8 5 b 4 0 (fun e => bits 8 (clamp 8 (int 16 (two 16 256 e))))) ∧
    (cvt 32 0 b 1 0 (fun e => fp32.round 0 (bf16.decode (A 16 (b.toNat * 128 + e)))) ∧
      cvt 32 0 b 2 0 (fun e => fp32.round 0 (fp16.decode (A 16 (b.toNat * 128 + e)))) ∧
      cvt 32 3 b 4 0 (fun e => bits 32 (int 16 (A 16 (b.toNat * 128 + e)))) ∧
      cvt 16 4 b 5 0 (fun e => bits 16 (int 8 (A 8 (b.toNat * 256 + e))))) ∧
    (cvt 32 3 0 0 r (fun e => bits 32 ((fp32.decode (A 32 e)).toIntClamp r.toNat (-2 ^ 31) (2 ^ 31 - 1))) ∧
      cvt 32 0 0 3 r (fun e => fp32.round r.toNat (.ofInt (int 32 (A 32 e))))) ∧
    -- VDEC and VENC, with a descriptor that is valid for them (R196, R197)
    encode dec = [wordV 0xB0000000 d a b c m 0 0 0x01] ∧ encode enc = [wordV 0xB0000000 d a b c m 0 r 0x02] ∧
    (s.me.codeOk c.toNat = false → Traps s dec 0x15 (BitVec.ofNat 64 (0x20 + c.toNat)) ∧
      Traps s enc 0x15 (BitVec.ofNat 64 (0x20 + c.toNat))) ∧
    (s.me.codeOk c.toNat = true → c.toNat < 3 → b.toNat < 32 / k →
      WritesLanes s dec d m 32 (fun i => fp32.round 0 (decodeCode f tab (A k (base + i)))) ∧
      ((r = 0 ∨ f ≠ 0x10 ∧ f ≠ 0x11) →
        ∃ g : Nat → Nat, WritesElems s enc d k g ∧ ∀ n, n < 4096 / k →
          (¬lane n → g n = elemOf (s.me.w d.toNat) k n) ∧
          (lane n → f = 0x10 → g n = encodeTable 128 tab (fp32.decode (A 32 (n - base)))) ∧
          (lane n → f = 0x11 → g n = encodeTable 8 tab (fp32.decode (A 32 (n - base)))) ∧
          (lane n → f ≠ 0x10 → f ≠ 0x11 → g n = encodeBuiltin f r.toNat (fp32.decode (A 32 (n - base)))))) ∧
    -- VSCL and VQNT (R198, R199)
    encode (.vscl d a b c m r) = [wordV 0xB0000000 d a b c m 0 r 0x03] ∧
    encode (.vqnt d a b c m y r) = [wordV 0xB0000000 d a b c m y r 0x04] ∧
    WritesLanes s (.vscl d a b c m r) d m 32 (fun i =>
      let e := B 8 (4 * c.toNat + i / 32)
      if e = 0xFF then fp32.nan else fp32.round r.toNat (Fv.mul (fp32.decode (A 32 i)) (.fin false 1 (e - 127)))) ∧
    (∀ w, (y = 3 ∧ w = 32 ∨ y = 4 ∧ w = 16 ∨ y = 5 ∧ w = 8) →
      ∃ g : Nat → Nat, WritesElems s (.vqnt d a b c m y r) d w g ∧ ∀ n, n < 4096 / w →
        let i := n - c.toNat * 128
        g n = if c.toNat * 128 ≤ n ∧ i < 128 ∧ (s.me.m m.toNat).getLsbD i = true then
          bits w ((Fv.mul (fp32.decode (A 32 i)) (fp32.decode (B 32 i))).toIntClamp r.toNat (-2 ^ (w - 1)) (2 ^ (w - 1) - 1))
          else elemOf (s.me.w d.toNat) w n) ∧
    -- VSGN1 (R200)
    encode (.vsgn1 d a b c m) = [wordV 0xB0000000 d a b c m 0 0 0x05] ∧
    (d ≠ b → ∃ t, exec (.vsgn1 d a b c m) s = .next t ∧ OtherSlots s t s.cur ∧ t = { s with slots := t.slots } ∧
      t.slot s.cur = { s.me.advance 4 with vec := (t.slot s.cur).vec } ∧
      (∀ n, n ≠ d.toNat → n ≠ b.toNat → (t.slot s.cur).w n = s.me.w n) ∧
      ∀ i, i < 4096 →
        let v := fp32.add 0 (A 32 i) (B 32 i)
        let α := fp32.decode (elemOf (s.me.w c.toNat) 32 0)
        let on := (s.me.m m.toNat).getLsbD i = true
        elemOf ((t.slot s.cur).w d.toNat) 1 i =
          (if i < 128 ∧ on then v / 2 ^ 31 else elemOf (s.me.w d.toNat) 1 i) ∧
        (i < 128 → elemOf ((t.slot s.cur).w b.toNat) 32 i =
          if on then fp32.round 0 (Fv.add false (fp32.decode v) (if v / 2 ^ 31 = 1 then α else α.neg)) else B 32 i))

/-- R202 to R204: the words and the effects of VPERM, VCNT and VMOVM. Integer reductions are the wrapped sum and the extremes of the active
elements; those of floating-point elements follow the tree of R126. -/
def Obligations.VpermResults : Prop :=
  ∀ (s : State) (d a : BitVec 3) (x : BitVec 7) (m u : BitVec 2) (y p : BitVec 3),
    let w := if y = 0 ∨ y = 3 then 32 else if y = 5 then 8 else 16
    let n := 4096 / w
    let v := s.x x.toNat
    let idx := v.toNat / 2 ^ 32 % 2 ^ 9 % n
    let A := fun w e => elemOf (s.me.w a.toNat) w e
    let D := fun w e => elemOf (s.me.w d.toNat) w e
    let on := fun w e => (s.me.m m.toNat).getLsbD (w * e / 32)
    let out := fun (e : Nat) => if y.toNat < 3 then BitVec.ofNat 64 e else BitVec.ofInt 64 (BitVec.ofNat w e).toInt
    let live := (List.range n).filter (on w)
    let vals : List Int := live.map fun e => (BitVec.ofNat w (A w e)).toInt
    let leaves := fun ident => (List.range n).map fun e => if on w e then A w e else ident
    let F := tyFmt y.toNat
    let sign := 2 ^ (w - 1)
    let inf := F.emax * 2 ^ F.mb
    (encode (.vdup d x m y) = [wordVX 0xB4000000 d x 0 m y 0 0x00] ∧ encode (.vlane x a y) = [wordVX 0xB4000000 0 x a 0 y 0 0x01] ∧
      encode (.vins d x y) = [wordVX 0xB4000000 d x 0 0 y 0 0x02] ∧
      encode (.vperm d a m y) = [wordVX 0xB4000000 d 0 a m y 0 0x03] ∧
      encode (.viota d x m y p) = [wordVX 0xB4000000 d x 0 m y p 0x04] ∧
      encode (.vrsum x a m y p) = [wordVX 0xB4000000 0 x a m y p 0x05] ∧
      encode (.vrmax x a m y) = [wordVX 0xB4000000 0 x a m y 0 0x06] ∧
      encode (.vrmin x a m y) = [wordVX 0xB4000000 0 x a m y 0 0x07] ∧
      encode (.vmsk a m u) = [wordVX 0xB4000000 0 0 a m 3 (u.setWidth 3) 0x08] ∧
      encode (.vcnt d a m) = [wordVX 0xBC000000 d 0 a m 3 0 0x01] ∧
      encode (.vmovmToVector d u) = [wordVX 0xBC000000 d 0 0 0 0 (u.setWidth 3) 0x02] ∧
      encode (.vmovmToMask a u) = [wordVX 0xBC000000 0 0 a 0 0 (u.setWidth 3 + 4) 0x02]) ∧
    (y.toNat < 6 → Issues s [x] [x] →
      WritesLanes s (.vdup d x m y) d m w (fun _ => v.toNat) ∧
      Writes s (.vlane x a y) x (out (A w idx)) 4 ∧
      WritesElems s (.vins d x y) d w (fun e => if e = idx then v.toNat else D w e) ∧
      (3 ≤ y.toNat → WritesLanes s (.viota d x m y p) d m w (fun e => v.toNat + e * (p.toNat + 1)))) ∧
    WritesLanes s (.vperm d a m y) d m 32 (fun i => A 32 (D 32 i % 128)) ∧
    (y.toNat < 6 → Issues s [x] [] →
      (3 ≤ y.toNat →
        Writes s (.vrsum x a m y p) x (BitVec.ofInt 64 (BitVec.ofInt w vals.sum).toInt) 4 ∧
        (live ≠ [] → (∃ g ∈ vals, (∀ h ∈ vals, h ≤ g) ∧ Writes s (.vrmax x a m y) x (BitVec.ofInt 64 g) 4) ∧
          (∃ g ∈ vals, (∀ h ∈ vals, g ≤ h) ∧ Writes s (.vrmin x a m y) x (BitVec.ofInt 64 g) 4)) ∧
        (live = [] → Writes s (.vrmax x a m y) x (BitVec.ofInt 64 (-2 ^ (w - 1))) 4 ∧
          Writes s (.vrmin x a m y) x (BitVec.ofInt 64 (2 ^ (w - 1) - 1)) 4)) ∧
      (y.toNat < 3 →
        Writes s (.vrsum x a m y p) x (BitVec.ofNat 64 (treeReduce (F.add p.toNat) 9 (leaves sign) % 2 ^ w)) 4 ∧
        Writes s (.vrmax x a m y) x (BitVec.ofNat 64 (treeReduce (F.minMax true) 9 (leaves (sign + inf)) % 2 ^ w)) 4 ∧
        Writes s (.vrmin x a m y) x (BitVec.ofNat 64 (treeReduce (F.minMax false) 9 (leaves inf) % 2 ^ w)) 4)) ∧
    WritesMask s (.vmsk a m u) u (fun i => if (s.me.m m.toNat).getLsbD i then A 32 i != 0 else (s.me.m u.toNat).getLsbD i) ∧
    WritesElems s (.vcnt d a m) d 32
      (fun b => ((List.range 128).filter fun i => (s.me.m m.toNat).getLsbD i && A 32 i == b).length) ∧
    WritesElems s (.vmovmToVector d u) d 32 (fun j => if j < 4 then (s.me.m u.toNat).toNat / 2 ^ (32 * j) else D 32 j) ∧
    WritesMask s (.vmovmToMask a u) u (fun i => (s.me.w a.toNat).getLsbD i)

/-- R190, R191, R205: vector accesses whose active lanes have all passed their checks and are at hand: a load writes the lanes, a store their
bytes, the higher lane where two name the same byte, and VBUCK gives positions and counts them. A lane that fails its check traps, and
nothing has changed but a translation buffer. A lane that misses parks the slot at the instruction until its walk is over (R76). That VBUCK checks every
counter before one changes (log 31), and that STVAL is all of x(x) when its bits above the address are bad (log 42), are the model's choices. -/
def Obligations.VectorAccess : Prop :=
  ∀ (s s1 : State) (w : BitVec 3) (a b : BitVec 7) (wi : BitVec 3) (m : BitVec 2) (l : List (Nat × Nat × Place)) (tr : Trap),
    let key := s.slotKey s.cur
    let locOf := fun (q : Nat × Nat × Place) => s1.dataLoc q.2.2.gpa q.2.2.home
    let x := (s.x a.toNat).toNat
    let row := fun i => x + 4 * i
    let stride := fun i => x + i * (s.x b.toNat).toNat
    let index := fun i => x + 4 * elemOf (s.me.w wi.toNat) 32 i
    let lanes := (List.range 128).filter fun i => (s.me.m m.toNat).getLsbD i
    let at_ := fun (f : Nat → Nat) => lanes.map fun i => (i, f i % 2 ^ 64)
    let fine := ∀ q ∈ l, AtHand s1 q.2.2 ∧ Clean s1 (locOf q / 128 * 128) 128 ∧ NoBarrierWait s q.2.2.gpa 4 ∧ q.2.2.gpa < 2 ^ 64 ∧
      q.2.2.gpa % 4 = 0 ∧ ∀ r ∈ l, r.2.2.gpa / 128 = q.2.2.gpa / 128 → r.2.2.home = q.2.2.home
    let loads := fun (i : Instr) => ∃ t, exec i s = .next t ∧ OtherSlots s t s.cur ∧ t.regs = s.regs ∧ OnlyUse s1 t ∧
      t.slot s.cur = { s.me.advance 4 with vec := (t.slot s.cur).vec } ∧ (∀ n, n ≠ w.toNat → (t.slot s.cur).w n = s.me.w n) ∧
      (∀ q ∈ l, elemOf ((t.slot s.cur).w w.toNat) 32 q.1 = s1.readAs key (locOf q) 4) ∧
      ∀ e, e < 128 → (∀ q ∈ l, q.1 ≠ e) → elemOf ((t.slot s.cur).w w.toNat) 32 e = elemOf (s.me.w w.toNat) 32 e
    let stores := fun (i : Instr) => ∃ t, exec i s = .next t ∧ t.regs = s.regs ∧ t.empties = s.empties ∧
      t.slot s.cur = s.me.advance 4 ∧ OtherSlots s t s.cur ∧
      ∀ g, t.byteAs key g = match (l.filter fun q => decide (locOf q ≤ g ∧ g < locOf q + 4)).getLast? with
        | some q => BitVec.ofNat 8 (elemOf (s.me.w w.toNat) 32 q.1 / 256 ^ (g - locOf q))
        | none => s1.byteAs key g
    let forms : List (Instr × Instr × List (BitVec 7) × (Nat → Nat)) :=
      [(.vld w a m, .vst w a m, [a], row), (.vlds w a b m, .vsts w a b m, [a, b], stride),
       (.vldx w a wi m, .vstx w a wi m, [a], index)]
    let bound := (s.x a.toNat).toNat / 2 ^ 56 + 1
    let base := (s.x a.toNat).toNat % 2 ^ 47
    let id := fun i => elemOf (s.me.w wi.toNat) 32 i
    let count := fun k => (lanes.filter fun i => id i == k).length
    encode (.vld w a m) = [BitVec.ofNat 32 (0xA4000000 + w.toNat * 2 ^ 23 + a.toNat * 2 ^ 16 + m.toNat * 2 ^ 4)] ∧
    (∀ f ∈ forms, Steady s → Quiet s → Issues s f.2.2.1 f.2.2.1 →
      (s.checkLanes .read (at_ f.2.2.2) = (s1, .ok l) → fine → loads f.1) ∧
      (s.checkLanes .write (at_ f.2.2.2) = (s1, .ok l) → fine → Memory.wf s1.mem = true → Rising s1.bad → stores f.2.1) ∧
      (s.checkLanes .read (at_ f.2.2.2) = (s1, .error (.trap tr)) → exec f.1 s = .next (s1.trap tr)) ∧
      (s.checkLanes .write (at_ f.2.2.2) = (s1, .error (.trap tr)) → exec f.2.1 s = .next (s1.trap tr)) ∧
      (∀ va, s.checkLanes .read (at_ f.2.2.2) = (s1, .error (.miss false va)) →
        ∃ t, exec f.1 s = .next t ∧ t.regs = s.regs ∧ t.mem = s.mem ∧ t.slot s.cur = { s.me with wait := .walk } ∧
          s.cur ∈ (t.creel (s.cur / 512)).walks.flatMap fun w => w.reqs.map (·.1)) ∧
      (∀ va, s.checkLanes .write (at_ f.2.2.2) = (s1, .error (.miss false va)) →
        ∃ t, exec f.2.1 s = .next t ∧ t.regs = s.regs ∧ t.mem = s.mem ∧ t.slot s.cur = { s.me with wait := .walk } ∧
          s.cur ∈ (t.creel (s.cur / 512)).walks.flatMap fun w => w.reqs.map (·.1))) ∧
    (Steady s → Quiet s → Issues s [a] [a] →
      (128 < bound ∨ (s.x a.toNat).toNat / 2 ^ 47 % 2 ^ 9 ≠ 0 → Traps s (.vbuck w a wi m) 0x05 (s.x a.toNat)) ∧
      (bound ≤ 128 → (s.x a.toNat).toNat / 2 ^ 47 % 2 ^ 9 = 0 → base % 4 ≠ 0 → Traps s (.vbuck w a wi m) 0x04 (BitVec.ofNat 64 base)) ∧
      (bound ≤ 128 → (s.x a.toNat).toNat / 2 ^ 47 % 2 ^ 9 = 0 → base % 4 = 0 →
        s.checkLanes .both ((List.range bound).map fun k => (k, base + 4 * k)) = (s1, .ok l) → fine → Memory.wf s1.mem = true →
        (l.Pairwise fun q r => locOf q + 4 ≤ locOf r ∨ locOf r + 4 ≤ locOf q) →
        ∃ t, exec (.vbuck w a wi m) s = .next t ∧ t.regs = s.regs ∧ t.empties = s.empties ∧ OtherSlots s t s.cur ∧
          t.slot s.cur = { s.me.advance 4 with vec := (t.slot s.cur).vec } ∧ (∀ n, n ≠ w.toNat → (t.slot s.cur).w n = s.me.w n) ∧
          (∀ q ∈ l, t.readAs key (locOf q) 4 = (s1.readAs key (locOf q) 4 + count q.1) % 2 ^ 32) ∧
          (∀ g, (∀ q ∈ l, ¬(locOf q ≤ g ∧ g < locOf q + 4)) → t.byteAs key g = s1.byteAs key g) ∧
          (∀ e, e < 128 → e ∉ lanes → elemOf ((t.slot s.cur).w w.toNat) 32 e = elemOf (s.me.w w.toNat) 32 e) ∧
          ∀ e ∈ lanes,
            (bound ≤ id e → elemOf ((t.slot s.cur).w w.toNat) 32 e = 2 ^ 32 - 1) ∧
            ∀ q ∈ l, q.1 = id e → elemOf ((t.slot s.cur).w w.toNat) 32 e =
              (s1.readAs key (locOf q) 4 + (lanes.filter fun i => i < e && id i == id e).length) % 2 ^ 32))
/-! ### The matrix engine (R208 to R226) -/

/-- R213, R214, R218 to R221: MZERO, MMA, MMAS, MOUT and MIN that pass their checks queue a command with what it takes from its slot, and take a
ticket (R332). No register and no byte changes. The first check that fails, in the order of R218 and R220, traps: a descriptor that the form refuses,
a table or tile that is not claimed, a bad stride, and a panel or row address that is too high or misaligned. MCFG makes its claims, clears what it
newly claims and loads the tables that it is asked to. MSYNC with nothing outstanding and no failure completes. -/
def Obligations.MatrixCommands : Prop :=
  ∀ (s : State) (a b c : BitVec 7),
    let core := s.cur / 16
    let va := s.x a.toNat
    let vb := s.x b.toNat
    let ctl := s.x c.toNat
    let cfg := s.me.mcfg.toNat
    let tile := ctl.toNat % 4
    let fc := descCode s.me.fc.toNat
    let undue := fun (x : MCmd) => { x with due := 0 }
    let queues := fun (i : Instr) (fn : Nat) (va vb : Word) => ∃ t, exec i s = .next t ∧ t.regs = s.regs ∧ t.mem = s.mem ∧ t.tags = s.tags ∧
      t.slot s.cur = { s.me.advance 4 with serial := s.me.serial + 1 } ∧ OtherSlots s t s.cur ∧
      (t.core core).mq.map undue = (s.core core).mq.map undue ++
        [⟨s.nextId, s.cur, fn, va.toNat, vb.toNat, ctl.toNat, cfg, s.me.fa.toNat, s.me.fb.toNat, s.me.fc.toNat, s.me.sa.toNat,
          s.me.sb.toNat, s.me.serial * 2 ^ 16 + 1 * 2 ^ 12 + fn, s.me.pc, s.me.world, s.me.asid, s.me.mode, 0, 0, []⟩]
    let room := (s.matrixOut s.cur).length < 4
    let claimed : Prop × Nat × Word := (cfgTile cfg tile = true, 0x07, 0)
    let panels := fun (scaled : Bool) => [((operandOk s.me.fa.toNat scaled = true, 0x15, 0x20) : Prop × Nat × Word),
      (operandOk s.me.fb.toNat scaled = true, 0x15, 0x21), (tableClaimed cfg s.me.fa.toNat 0 = true, 0x15, 0x20),
      (tableClaimed cfg s.me.fb.toNat 1 = true, 0x15, 0x21), claimed, (va.toNat < 2 ^ 47, 0x05, va), (vb.toNat < 2 ^ 47, 0x05, vb),
      (va.toNat % 16 = 0, 0x04, va), (vb.toNat % 16 = 0, 0x04, vb)]
    let rows := fun (i : Instr) => [((0 < vb.toNat ∧ vb.toNat < 2 ^ 20 ∧ vb.toNat % 8 = 0, 0x01, wordOf i) : Prop × Nat × Word),
      (va.toNat < 2 ^ 47, 0x05, va), (va.toNat % 8 = 0, 0x04, va)]
    let moutChecks := claimed ::
      (descOk s.me.fc.toNat (fun k => decide (k ≤ 7) || k == 0x10) = true, 0x15, 0x22) ::
      (fc = 0x10 → cfgTable cfg (ctl.toNat / 2 ^ 9 % 2) = true, 0x15, 0x22) ::
      (fc = 0x10 → ctl.toNat / 2 ^ 10 % 4 = 0, 0x01, wordOf (.mout a b c)) :: rows (.mout a b c)
    let minChecks := claimed :: rows (.min a b c)
    (Issues s [c] [c] →
      (cfgTile cfg tile = false → Traps s (.mzero c) 0x07 0) ∧
      (cfgTile cfg tile = true → room → queues (.mzero c) 1 0 0)) ∧
    (Issues s [a, b, c] [a, b, c] →
      FirstTraps s (.mma a b c) (panels false) ∧ FirstTraps s (.mmas a b c) (panels true) ∧
      FirstTraps s (.mout a b c) moutChecks ∧ FirstTraps s (.min a b c) minChecks ∧
      ((∀ p ∈ panels false, p.1) → room → queues (.mma a b c) 2 va vb) ∧
      ((∀ p ∈ panels true, p.1) → room → queues (.mmas a b c) 3 va vb) ∧
      ((∀ p ∈ moutChecks, p.1) → room → queues (.mout a b c) 4 va vb) ∧
      ((∀ p ∈ minChecks, p.1) → room → queues (.min a b c) 5 va vb)) ∧
    (s.matrixOut s.cur = [] →
      ((∀ f ∈ s.me.failures, ticketEngine f.ticket ≠ 1) → Passes s .msync) ∧
      (∀ f, s.me.failures = [f] → ticketEngine f.ticket = 1 →
        exec .msync s = .next ((s.updMe fun sl => { sl with failures := [] }).trap ⟨f.cause, BitVec.ofNat 64 f.ticket, true⟩))) ∧
    (Steady s → Issues s [a, b] [a, b] → s.matrixOut s.cur = [] →
      (cfgValid va.toNat = false → Traps s (.mcfg a b) 0x01 (wordOf (.mcfg a b))) ∧
      (cfgValid va.toNat = true → (∃ r, r < 6 ∧ cfgClaim va.toNat r = true ∧ s.claimedElsewhere s.cur r = true) →
        Traps s (.mcfg a b) 0x07 0) ∧
      (∀ (s1 s2 : State) (ta tb : Option (List Nat)),
        let f := vb.toNat
        let g := va.toNat
        cfgValid g = true → (∀ r, r < 6 → cfgClaim g r = true → s.claimedElsewhere s.cur r = false) →
        (f.testBit 0 = true → cfgTable g 0 = true ∧ descOk s.me.fa.toNat codeIsTable = true) →
        (f.testBit 1 = true → cfgTable g 1 = true ∧ descOk s.me.fb.toNat codeIsTable = true) →
        s.fetchTable (f.testBit 0) s.me.fa.toNat = (s1, .ok ta) → s1.fetchTable (f.testBit 1) s.me.fb.toNat = (s2, .ok tb) →
        Rising ((s2.core core).tiles.map (·.1)) → Rising ((s2.core core).tables.map (·.1)) →
        (∀ es, ta = some es ∨ tb = some es → es.length = 256 ∧ ∀ e ∈ es, e < 2 ^ 19) →
        ∃ t, exec (.mcfg a b) s = .next t ∧ (t.slot s.cur).mcfg = va ∧ (t.slot s.cur).pc = (s.me.advance 4).pc ∧ t.regs = s.regs ∧
          (∀ r i j, r < 4 → i < 96 → j < 96 → (t.core core).element r i j =
            if cfgTile g r = true ∧ cfgTile cfg r = false then 0 else (s2.core core).element r i j) ∧
          (∀ k, k < 256 → ∀ r, r < 2 → (t.core core).entry r k = match (if r = 0 then ta else tb) with
            | some es => es.getD k 0
            | none => if cfgTable g r = true ∧ cfgTable cfg r = false then 0 else (s2.core core).entry r k)))

/-- R223, R224, R226: TFPIN writes 0 and records its lines, 1 or 2; TFREL of an address without a pin has no effect, and else frees the first pin that
has it (log 50); the access check of TFPIN's pages is a read (log 49). MSAVE stores and MREST loads the rows of a tile, the configuration or a table. -/
def Obligations.MatrixMemory : Prop :=
  ∀ (s s1 : State) (a b c : BitVec 7) (ps : List Place) (sp : Span),
    let core := s.cur / 16
    let va := (s.x a.toNat).toNat
    let n := (s.x b.toNat).toNat
    let gets := fun (v : Word) => ∃ t, exec (.tfpin a b c) s = .next t ∧ t.x c.toNat = (if c = 0 then 0 else v) ∧
      t.slot s.cur = s.me.advance 4 ∧ OtherSlots s t s.cur
    let kind := n % 4
    let sel := n / 2 ^ 2 % 4
    let row0 := n / 2 ^ 8 % 2 ^ 7
    let rm1 := n / 2 ^ 16 % 2 ^ 7
    let size := if kind = 0 then (rm1 + 1) * 384 else if kind = 1 then 64 else 1024
    let good := kind = 0 ∧ row0 + rm1 ≤ 95 ∧ cfgTile s.me.mcfg.toNat sel = true ∨ kind = 1 ∨
      kind = 2 ∧ sel ≤ 1 ∧ cfgTable s.me.mcfg.toNat sel = true
    let saved : List Byte :=
      if kind = 0 then (List.range (rm1 + 1)).flatMap fun i => (List.range 96).flatMap fun j =>
        natBytes ((s1.core core).element sel (row0 + i) j) 4
      else if kind = 1 then natBytes s.me.mcfg.toNat 64
      else (List.range 256).flatMap fun k => natBytes ((s1.core core).entry sel k) 4
    (Steady s → Issues s [a, b, c] [a, b] →
      (n = 0 ∨ 2 ^ 20 < n → Traps s (.tfpin a b c) 0x01 (wordOf (.tfpin a b c))) ∧
      (0 < n → n ≤ 2 ^ 20 → s.pinPlaces s.cur va (va + n) (n / 1024 + 2) = (s1, .ok ps) →
        let ids := (distinctLines ps).map Place.lineId
        ((∀ k, k < 8 → (mapFind s.me.pins k).isSome = true) → gets 2) ∧
        (∀ k, k < 8 → mapFind s.me.pins k = none → (∀ j, j < k → (mapFind s.me.pins j).isSome = true) →
          (s1.pinsTooMany ids = true → gets 1) ∧
          (s1.pinsTooMany ids = false → ∃ t, exec (.tfpin a b c) s = .next t ∧ t.x c.toNat = 0 ∧
            t.slot s.cur = { s.me.advance 4 with pins := mapPut s.me.pins k ⟨va, n, ids⟩ } ∧ OtherSlots s t s.cur)))) ∧
    (Issues s [a] [a] → s.matrixOut s.cur = [] →
      ((∀ p ∈ s.me.pins, p.2.base ≠ va) → Passes s (.tfrel a)) ∧
      (∀ k p r, s.me.pins = (k, p) :: r → p.base = va → ∃ t, exec (.tfrel a) s = .next t ∧ t.regs = s.regs ∧ SameMemory s t ∧
        t.slot s.cur = { s.me.advance 4 with pins := mapDel s.me.pins k } ∧ OtherSlots s t s.cur)) ∧
    (Steady s → Quiet s → Issues s [a, b] [a, b] → s.matrixOut s.cur = [] → good → va % 8 = 0 →
      (s.checkRange s.cur va size .write true (pagesOf size) = (s1, .ok [sp]) → sp.n = size → Memory.wf s1.mem = true →
        sp.place.gpa + size < 2 ^ 64 → Clean s1 (sp.place.gpa / 16 * 16) (size + 32) → NoBarrierWait s sp.place.gpa size →
        ∃ t, exec (.msave a b) s = .next t ∧ Stored s1 t (s.slotKey s.cur) sp.place.gpa saved ∧ t.regs = s.regs ∧
          t.slot s.cur = s.me.advance 4 ∧ OtherSlots s t s.cur) ∧
      (s.checkRange s.cur va size .read true (pagesOf size) = (s1, .ok [sp]) → sp.n = size → sp.place.gpa % 2 ^ 45 + size ≤ 0xC00000 →
        Clean s1 sp.place.gpa size →
        let v := s1.readAs (s.slotKey s.cur) sp.place.gpa size
        (kind = 0 → ∃ t, exec (.mrest a b) s = .next t ∧ t.slot s.cur = s.me.advance 4 ∧ t.regs = s.regs ∧
          ∀ r i j, r < 4 → i < 96 → j < 96 → (t.core core).element r i j =
            if r = sel ∧ row0 ≤ i ∧ i ≤ row0 + rm1 then v / 2 ^ (32 * (96 * (i - row0) + j)) % 2 ^ 32
            else (s1.core core).element r i j) ∧
        (kind = 1 → v < 2 ^ 64 → cfgValid v = true → (∀ r, r < 6 → cfgClaim v r = true → s1.claimedElsewhere s.cur r = false) →
          ∃ t, exec (.mrest a b) s = .next t ∧ (t.slot s.cur).mcfg = BitVec.ofNat 64 v ∧ (t.slot s.cur).pc = (s.me.advance 4).pc ∧
            t.regs = s.regs) ∧
        (kind = 2 → (∀ k, k < 256 → v / 2 ^ (32 * k) % 2 ^ 32 < 2 ^ 19) → ∃ t, exec (.mrest a b) s = .next t ∧
          t.slot s.cur = s.me.advance 4 ∧ t.regs = s.regs ∧
          ∀ k, k < 256 → (t.core core).entry sel k = v / 2 ^ (32 * k) % 2 ^ 32)))

/-! ### The Gaussian engine (R254 to R267) -/

/-- R256, R257, R332: a Gaussian command that passes its checks enters the queue with what it takes from its slot; GRES clears the presence bit of
its destination. A control word that a form does not accept traps. GSYNC with nothing outstanding and no failure completes. -/
def Obligations.GaussCommands : Prop :=
  ∀ (s s1 s2 : State) (a b c : BitVec 7) (sp : Span),
    let core := s.cur / 16
    let va := (s.x a.toNat).toNat
    let vb := (s.x b.toNat).toNat
    let ctl := (s.x c.toNat).toNat
    let vo := (s.x (c + 1).toNat).toNat
    let k := ctl % 16
    let cmd := fun (fn vb ctl vo reg : Nat) => (⟨s1.nextId, s.cur, fn, va, vb, ctl, vo, reg, s.entryOf s.cur reg, s.me.gtau.toNat, s.me.gquiet,
      s.me.serial * 2 ^ 16 + 2 * 2 ^ 12 + fn, s.me.pc, s.me.world, s.me.asid, s.me.mode, 0, false, 0, .none, []⟩ : GCmd)
    let queues := fun (i : Instr) (x : GCmd) => ∃ t, exec i s = .next t ∧ t.regs = s.regs ∧
      t.slot s.cur = { s.me.advance 4 with serial := s.me.serial + 1 } ∧ OtherSlots s t s.cur ∧
      (t.core core).gq = (s1.core core).gq ++ [x]
    let passes := fun (as : List GArg) => gArgTrap as = none ∧ s.gCheckArgs as = (s1, none) ∧ (s1.gaussOut s.cur).length < 4
    let msg := fun (v : Nat) (dest : Bool) => (⟨v, 256, 256, dest⟩ : GArg)
    let factor := fun (dest : Bool) => (⟨va, 1024, 1024, dest⟩ : GArg)
    Steady s →
    (Issues s [a, b, c, c + 1] [a, b, c, c + 1] →
      (gCtlOk 0 ctl = false → Traps s (.gupd a b c) 0x01 (wordOf (.gupd a b c))) ∧
      (gCtlOk 0 ctl = true → gArgTrap [factor false, ⟨vb, 8, 8, false⟩, msg vo true] = none →
        s.checkRange s.cur va 1024 .read true 2 = (s2, .ok [sp]) → Clean s2 sp.place.gpa 8 → Alone s sp.place.gpa 8 →
        let v := max 1 (min (s2.readAs (s2.slotKey s.cur) sp.place.gpa 8 / 2 ^ 5 % 2 ^ 3) 4)
        s2.gCheckArgs [⟨vb, 8, 8 * v, false⟩, msg vo true] = (s1, none) → (s1.gaussOut s.cur).length < 4 →
        queues (.gupd a b c) (cmd 0 vb ctl vo 0)) ∧
      (gCtlOk 1 ctl = false → Traps s (.gbel a b c) 0x01 (wordOf (.gbel a b c))) ∧
      (gCtlOk 1 ctl = true → passes ([msg va true, ⟨vb, 8, 8 * (k + 1), false⟩] ++
          if ctl.testBit 4 then [⟨vo, 8, 8 * k, false⟩] else []) → queues (.gbel a b c) (cmd 1 vb ctl vo 0))) ∧
    (Issues s [a, b, c] [a, b, c] →
      (gCtlOk 2 ctl = false → Traps s (.gadd a b c) 0x01 (wordOf (.gadd a b c))) ∧
      (gCtlOk 3 ctl = false → Traps s (.gelim a b c) 0x01 (wordOf (.gelim a b c))) ∧
      (gCtlOk 4 ctl = false → Traps s (.gdamp a b c) 0x01 (wordOf (.gdamp a b c))) ∧
      (gCtlOk 2 ctl = true → passes [if k.testBit 1 then factor true else msg va true, msg vb false] →
        queues (.gadd a b c) (cmd 2 vb ctl 0 0)) ∧
      (gCtlOk 3 ctl = true → passes [factor false, msg vb true] → queues (.gelim a b c) (cmd 3 vb ctl 0 0)) ∧
      (gCtlOk 4 ctl = true → passes [msg va true, msg vb false] → queues (.gdamp a b c) (cmd 4 vb ctl 0 0))) ∧
    (Issues s [a, c] [a, c] →
      (gCtlOk 5 ctl = false → Traps s (.gsolve a c) 0x01 (wordOf (.gsolve a c))) ∧
      (gCtlOk 5 ctl = true → passes [msg va true] → queues (.gsolve a c) (cmd 5 0 ctl 0 0))) ∧
    (Issues s [a, b, c] [a, b] → passes [msg va false, msg vb false] →
      ∃ t, exec (.gres a b c) s = .next t ∧ t.slot s.cur = { s.me.advance 4 with serial := s.me.serial + 1 } ∧ OtherSlots s t s.cur ∧
        (t.core core).gq = (s1.core core).gq ++ [cmd 6 vb 0 0 c.toNat] ∧ t.presOf s.cur c.toNat = (c == 0) ∧
        (∀ e, (t.entry e).val = (s.entry e).val) ∧ OtherEntries s t (fun e => c ≠ 0 ∧ e = s.entryOf s.cur c.toNat)) ∧
    (s.gaussOut s.cur = [] →
      ((∀ f ∈ s.me.failures, ticketEngine f.ticket ≠ 2) → Passes s .gsync) ∧
      (∀ f, s.me.failures = [f] → ticketEngine f.ticket = 2 →
        exec .gsync s = .next ((s.updMe fun sl => { sl with failures := [] }).trap ⟨f.cause, BitVec.ofNat 64 f.ticket, true⟩)))
/-! ### Sequence words, watches and pulls (R229 to R248) -/

/-- R230: PUB and PUBA store a larger value at their place; one that would not raise the word traps. -/
def Obligations.PublishResults : Prop :=
  ∀ (s s1 : State) (a b : BitVec 7) (p : Place),
    let va := (s.x a.toNat).toNat
    let v := (s.x b.toNat).toNat
    let old := s1.readAs (s.slotKey s.cur) p.gpa 8
    Issues s [a, b] [a, b] → s.checkLocal s.cur va 8 8 .both true = (s1, .ok p) → Quiet s →
      Clean s1 (p.gpa / 16 * 16) 16 →
      (v ≤ old → TrapsFrom s s1 (.pub a b) 0x0C (BitVec.ofNat 64 va)) ∧
      (v = 0 ∨ 2 ^ 64 ≤ old + v → TrapsFrom s s1 (.puba a b) 0x0C (BitVec.ofNat 64 va)) ∧
      (Memory.wf s.mem = true → p.gpa < 2 ^ 64 → NoBarrierWait s p.gpa 8 →
        (old < v → Stores s (.pub a b) p.gpa (natBytes v 8)) ∧
        (0 < v → old + v < 2 ^ 64 → Stores s (.puba a b) p.gpa (natBytes (old + v) 8)))

/-- R232, R235 to R237: WATCH arms register K with the physical address and sends an arm; an address of a module that is lost leaves the register
LOST, and one that is not readable or no word of SRAM or agent memory traps. An arm that the register has on its way is withdrawn from its owner, or
dropped where it is not there, by WATCH and by WCANCEL (R233). WWAIT writes the answered value, parks, or traps on a
register that is free or lost; WCANCEL frees the register; WRANGE binds a range to a register or ends its binding, and waits between the pages of a
range of several (log 5). -/
def Obligations.WatchForms : Prop :=
  ∀ (s s1 : State) (a b c : BitVec 7) (e : Tlb),
    let ctl := (s.x c.toNat).toNat
    let k := ctl % 16
    let w := s.me.watch k
    let v := s.x a.toNat
    let n := s.x b.toNat
    let g := (e.phys (s.cur / 512) v.toNat).gpa
    let thr := if w.state ≠ .free ∧ w.addr ≠ BitVec.ofNat 64 g then n else if w.ansv < n then n else w.ansv
    let withdraws := fun (l : List Arm) => (w.arm = 0 → l = s.arms) ∧ ∀ x, w.arm ≠ 0 → s.arms.find? (·.id == w.arm) = some x →
      match x.stage with
      | .sent | .held => ∃ due, s.cycle < due ∧
        l = s.arms.map fun y => if y.id == x.id then { x with stage := .withdrawn (x.stage == .held), due := due } else y
      | .withdrawn _ => l = s.arms
      | _ => l = s.arms.filter (·.id != x.id)
    let word := isSram (lpaOf g) = true ∨ isAgent (lpaOf g) = true ∧ hasAgent (linOf g) = true
    (Issues s [a, b, c] [a, b, c] →
      (v.toNat % 8 ≠ 0 → Traps s (.watch a b c) 0x04 v) ∧
      (v.toNat % 8 = 0 → s.xlate s.cur true v.toNat = (s1, none) → exec (.watch a b c) s = .next (s1.parkWalk s.cur true v.toNat)) ∧
      (v.toNat % 8 = 0 → s.xlate s.cur true v.toNat = (s1, some e) → permitted e .read s.me.mode = false ∨ ¬word →
        exec (.watch a b c) s = .next (s1.trapWith 0x08 v)) ∧
      (v.toNat % 8 = 0 → s.xlate s.cur true v.toNat = (s1, some e) → permitted e .read s.me.mode = true → word →
        s.isLost (s.cur / 512) (linOf g / 128) = true → ∃ t, exec (.watch a b c) s = .next t ∧ t.regs = s.regs ∧ SameMemory s t ∧
          (t.slot s.cur).pc = (s.me.advance 4).pc ∧ withdraws t.arms ∧ ((t.slot s.cur).watch k).state = .lost) ∧
      (v.toNat % 8 = 0 → s.xlate s.cur true v.toNat = (s1, some e) → permitted e .read s.me.mode = true → word →
        s.isLost (s.cur / 512) (linOf g / 128) = false →
        ∃ t arm l, exec (.watch a b c) s = .next t ∧ t.regs = s.regs ∧ SameMemory s t ∧ OtherSlots s t s.cur ∧
          (t.slot s.cur).pc = (s.me.advance 4).pc ∧ withdraws l ∧ t.arms = l ++ [arm] ∧ arm.slot = s.cur ∧ arm.reg = k ∧ arm.gpa = g ∧ arm.thr = thr ∧
          ((t.slot s.cur).watch k).state = .pend ∧ ((t.slot s.cur).watch k).addr = BitVec.ofNat 64 g ∧
          ((t.slot s.cur).watch k).thr = thr ∧ ((t.slot s.cur).watch k).int = ctl.testBit 4 ∧ ((t.slot s.cur).watch k).arm = arm.id ∧
          ∀ j, j ≠ k → (t.slot s.cur).watch j = s.me.watch j)) ∧
    (Issues s [a, c] [c] →
      (w.state = .free ∨ w.state = .lost → Traps s (.wwait a c) 0x0B (BitVec.ofNat 64 k)) ∧
      (w.state = .ans ∨ w.state = .pend ∧ ctl.testBit 5 = true → Writes s (.wwait a c) a w.ansv 4) ∧
      (w.state = .pend → ctl.testBit 5 = false →
        exec (.wwait a c) s = .next (s.updMe fun sl => { sl with wait := .wwait k }))) ∧
    (Issues s [c] [c] → ∃ t, exec (.wcancel c) s = .next t ∧ t.regs = s.regs ∧ SameMemory s t ∧ withdraws t.arms ∧
      t.slot s.cur = { s.me.advance 4 with watches := mapDel s.me.watches k } ∧ OtherSlots s t s.cur) ∧
    (Steady s → Issues s [a, b, c] [a, b, c] →
      (w.state = .free ∨ w.state = .lost → Traps s (.wrange a b c) 0x0B (BitVec.ofNat 64 k)) ∧
      (w.state = .pend ∨ w.state = .ans →
        (n = 0 → ∃ t, exec (.wrange a b c) s = .next t ∧
          t.slot s.cur = { s.me.advance 4 with watches := mapPut s.me.watches k { w with bind := 0 } }) ∧
        (n ≠ 0 → v.toNat % 1024 ≠ 0 → Traps s (.wrange a b c) 0x04 v) ∧
        (n ≠ 0 → v.toNat % 1024 = 0 → n.toNat % 1024 ≠ 0 → Traps s (.wrange a b c) 0x04 n) ∧
        (∀ x tr, n ≠ 0 → v.toNat % 1024 = 0 → n.toNat % 1024 = 0 → n.toNat ≤ 2 ^ 40 →
          s.sweepCheck s.cur ⟨6, v.toNat, n.toNat, [], k, v, n, 0⟩ (pagesOf n.toNat) = (s1, x, tr) →
          (∀ r, tr = some r → exec (.wrange a b c) s = .next (s1.trap r)) ∧
          (∀ sp, tr = none → x.left = 0 → x.spans = [sp] →
            ∃ t, exec (.wrange a b c) s = .next t ∧ t.regs = s.regs ∧ OtherSlots s t s.cur ∧
              t.slot s.cur = { s.me.advance 4 with watches := mapPut s.me.watches k { w with bind := s1.nextId, start := v, len := n } }) ∧
          (∀ sp sp' l, tr = none → x.left = 0 → x.spans = sp :: sp' :: l →
            ∃ t, exec (.wrange a b c) s = .next t ∧ t.regs = s.regs ∧ (t.slot s.cur).wait = .sweep { x with spans := sp' :: l, since := s1.nextId } ∧
              (t.slot s.cur).pc = s.me.pc ∧ (t.slot s.cur).watches = s.me.watches) ∧
          (tr = none → 0 < x.left → ∃ t, exec (.wrange a b c) s = .next t ∧ t.regs = s.regs ∧ (t.slot s.cur).wait = .sweep { x with since := s1.nextId } ∧
            (t.slot s.cur).pc = s.me.pc ∧ (t.slot s.cur).watches = s.me.watches))))

/-- R238 to R240, R246, R248, R332: a pull that passes its checks enters the channel with the fewest commands and takes a ticket; nothing is copied
yet. The destination of PULLR alone needs RD (log 32). A control word that the form does not accept traps. PSYNC completes with no pull of the slot outstanding. -/
def Obligations.PullCommands : Prop :=
  ∀ (s s1 : State) (a b c : BitVec 7) (dst src cw : List Span) (ch : Nat),
    let lin := s.cur / 512
    let va := s.x a.toNat
    let vb := s.x b.toNat
    let ctl := (s.x c.toNat).toNat
    let comp := (s.x (c + 1).toNat).toNat
    let len := ctl % 2 ^ 24
    let queues := fun (i : Instr) (fn : Nat) (s2 : State) (iseq : List Span) (g inst : Nat) => ∃ t cmd, exec i s = .next t ∧ t.regs = s.regs ∧
      t.slot s.cur = { s.me.advance 4 with serial := s.me.serial + 1 } ∧ OtherSlots s t s.cur ∧ t.mem = s2.mem ∧ t.tags = s2.tags ∧
      (t.creel lin).pulls = (s2.creel lin).pulls ++ [cmd] ∧ cmd.slot = s.cur ∧ cmd.ch = ch ∧ cmd.fn = fn ∧ cmd.a = va.toNat ∧
      cmd.b = vb.toNat ∧ cmd.ctl = ctl ∧ cmd.dst = dst ∧ cmd.src = src ∧ cmd.comp = cw ∧ cmd.iseq = iseq ∧ cmd.group = g ∧ cmd.inst = inst ∧
      cmd.ticket = s.me.serial * 2 ^ 16 + 3 * 2 ^ 12 + fn ∧ cmd.issued = false ∧ cmd.cur = 0
    let room := fun (s2 : State) => (s2.pullsOut s.cur).length < 16 ∧ pickChannel (s2.creel lin).pulls = some ch
    let pulls := fun (i : Instr) (fn : Nat) (aligned : List Word) (n : Nat) (need : Need) (list : Option (Nat × Nat)) =>
      (pullCtlOk fn ctl = false → Traps s i 0x01 (wordOf i)) ∧
      (pullCtlOk fn ctl = true → s.checkPull aligned va.toNat n need list comp (ctl.testBit 31) = (s1, .ok (dst, src, cw)) → room s1 →
        queues i fn s1 [] 0 0)
    let g := ctl / 2 ^ 24 % 2 ^ 6
    Steady s → Issues s [a, b, c, c + 1] [a, b, c, c + 1] →
      pulls (.pull a b c) 0 [va, vb] len .write none ∧
      pulls (.pullx a b c) 1 [va, vb] (len * (8 * (ctl / 2 ^ 36 % 2 ^ 6 + 1))) .write (some (vb.toNat, 8 + 4 * len)) ∧
      pulls (.pullr a b c) 2 [va, vb] len .both none ∧
      pulls (.pullm a b c) 3 [va] 16 .write none ∧
      (s.pullsOut s.cur = [] → Passes s .psync) ∧
      (len = 0 ∨ len % 8 ≠ 0 → Traps s (.cpull a b c) 0x01 (wordOf (.cpull a b c))) ∧
      (len ≠ 0 → len % 8 = 0 →
        s.checkPull [va, vb] va.toNat len .write (some (vb.toNat, len)) comp (ctl.testBit 31) = (s1, .ok (dst, src, cw)) →
        (treeValid (s1.creel lin) g = false ∨ treeKey (s1.creel lin) g ≠ s.me.asid.toNat →
          exec (.cpull a b c) s = .next (s1.trapWith 0x17 (BitVec.ofNat 64 g))) ∧
        (∀ s2 p, treeValid (s1.creel lin) g = true → treeKey (s1.creel lin) g = s.me.asid.toNat →
          (∀ q ∈ (s1.creel lin).pulls, q.fn ≠ 4) → Quiet s → Clean s2 p.gpa 8 →
          s1.checkLocal s.cur (treeIseq (s1.creel lin) g) 8 8 .both true = (s2, .ok p) →
          let n := s2.readAs (s.slotKey s.cur) p.gpa 8 + 1
          (ctl / 2 ^ 32 ≠ n % 2 ^ 32 → exec (.cpull a b c) s = .next (s2.trapWith 0x18 (BitVec.ofNat 64 g))) ∧
          (ctl / 2 ^ 32 = n % 2 ^ 32 → room s2 → queues (.cpull a b c) 4 s2 [⟨treeIseq (s1.creel lin) g, 8, p⟩] g n)))
/-! ### The TASK group (R31, R275 to R279) -/

/-- R276 to R279: TQPUT writes 1 for a full task unit, 2 for a packet that it rejects and 0 for one that becomes resident; TQGET writes 1 without a
held packet of the tenant, and otherwise stores the first in order and takes it out. YIELD misses one turn. SLEEP parks for x(a) cycles, and
for 0 without end. That TQPUT finds the unit full before it looks at the packet is the model's choice (log 21). -/
def Obligations.TaskForms : Prop :=
  ∀ (s s1 s2 : State) (a b c : BitVec 7) (p : Place) (bs : List Byte),
    let lin := s.cur / 512
    let va := (s.x b.toNat).toNat
    let ws := packetWords (bytesNat bs)
    let w0 := ws.getD 0 0
    let gets := fun (i : Instr) (s2 : State) (v : Word) => ∃ t, exec i s = .next t ∧ t.x a.toNat = (if a = 0 then 0 else v) ∧
      t.slot s.cur = s2.me.advance 4 ∧ OtherSlots s2 t s.cur ∧ SameMemory s2 t ∧ (t.creel lin).residents = (s2.creel lin).residents
    let pkt := fun (seq : Nat) => (⟨ws, s2.me.world.toNat, s2.me.asid.toNat, 0, lin, (s.x c.toNat).getLsbD 0, w0 / 2 ^ 53 % 4, 0, 0, seq,
      s.cur / 16 % 32, s.cur % 16, none⟩ : Packet)
    let mine := (s1.creel lin).residents.filter fun (_, q) => q.held && q.world == s.me.world.toNat && q.asid == s.me.asid.toNat
    let loc := s1.dataLoc p.gpa p.home
    (Issues s [a, b, c] [b, c] → Quiet s → s.checkLocal s.cur va 128 128 .read false = (s1, .ok p) →
      s1.readSpans s.cur [⟨va, 128, p⟩] = (s2, .ok bs) → s2.cur = s.cur → s2.x c.toNat = s.x c.toNat →
      (((s2.creel lin).freeEntry = none → gets (.tqput a b c) s2 1) ∧
      (∀ k, (s2.creel lin).freeEntry = some k → packetBad ws = none →
        ∃ t, exec (.tqput a b c) s = .next t ∧ t.x a.toNat = 0 ∧ t.slot s.cur = s2.me.advance 4 ∧ OtherSlots s2 t s.cur ∧
          SameMemory s2 t ∧ (t.creel lin).residents = mapPut (s2.creel lin).residents k (pkt (s2.creel lin).accepted) ∧
          (t.creel lin).accepted = (s2.creel lin).accepted + 1) ∧
      (∀ k i, (s2.creel lin).freeEntry = some k → packetBad ws = some i →
        exec (.tqput a b c) s =
          .next ((s2.rejectPacket lin (pkt 0) 0x01 i).finish a 2)))) ∧
    (Issues s [a, b] [b] → Quiet s → s.checkLocal s.cur va 128 128 .write false = (s1, .ok p) →
      (placeOrder mine = [] → gets (.tqget a b) s1 1) ∧
      (∀ k q r, placeOrder mine = (k, q) :: r → Memory.wf s.mem = true → p.gpa < 2 ^ 64 → p.gpa % 128 = 0 → AtHand s1 p →
        Clean s1 loc 128 → NoBarrierWait s p.gpa 128 →
        ∃ t, exec (.tqget a b) s = .next t ∧ t.x a.toNat = 0 ∧ t.slot s.cur = s.me.advance 4 ∧ OtherSlots s t s.cur ∧
          (t.creel lin).residents = mapDel (s.creel lin).residents k ∧ t.empties = s.empties ∧
          (∀ i, 1 ≤ i → i < 16 → t.readAs (s.slotKey s.cur) (loc + 8 * i) 8 = q.word i % 2 ^ 64) ∧
          t.readAs (s.slotKey s.cur) loc 8 = (q.word 0 - q.word 0 / 2 ^ 53 % 4 * 2 ^ 53 + q.prio * 2 ^ 53) % 2 ^ 64 ∧
          ∀ g, g < loc ∨ loc + 128 ≤ g → t.byteAs (s.slotKey s.cur) g = s.byteAs (s.slotKey s.cur) g)) ∧
    (exec .yield s = .next (s.updMe fun sl => { sl.popQueue with wait := .yield 1 }) ∧
      (s.me.wait = .yield 1 → s.waitTurn = .next (s.retire 4))) ∧
    (Issues s [a] [a] → let n := (s.x a.toNat).toNat
      exec (.sleep a) s = .next (s.updMe fun sl => { sl.popQueue with wait := .sleep (if n = 0 then 0 else s.cycle + n) }))

/-- R31, R328, R339, R350: EXIT in user mode of a slot whose work is done ends it: it is idle, its member has exited, and its watches, latched interrupts
and claims are gone. In supervisor mode it terminates the slot. In either mode a relaxed-load fault that is pending is raised first. -/
def Obligations.ExitResults : Prop :=
  ∀ (s : State),
    (s.me.mode = false → NoFault s → Quiet s → s.enginesOut s.cur = false → s.me.failures = [] → Rising s.running →
      Rising (s.me.watches.map (·.1)) →
      ∃ t, exec .exit s = .next t ∧ (t.slot s.cur).busy = false ∧ (t.slot s.cur).member = .exited ∧ (t.slot s.cur).queue = [] ∧
        (t.slot s.cur).upend = 0 ∧ (t.slot s.cur).mcfg = BitVec.ofNat 64 (96 * 2 ^ 32 + 96 * 2 ^ 7 + 96) ∧
        (t.slot s.cur).idleAt = s.cycle + 1 ∧ s.cur ∉ t.running ∧ ∀ k, k < 16 → ((t.slot s.cur).watch k).state = .free) ∧
    (s.me.mode = true → NoFault s → exec .exit s = .next (s.updMe fun sl => { sl.popQueue with wait := .hold, terminating := true })) ∧
    (∀ f rest, s.me.rfaults = f :: rest → ∃ t : State, exec .exit s = .next (t.trap ⟨0x09, f.2, true⟩) ∧
      t.slot s.cur = { s.me with rfaults := rest } ∧ t.cur = s.cur)

/-! ### The SYS group (R40, R285 to R292) -/

/-- R40, R285, R286, R292, R329: TRAP, BRK and PAUSE; SRET, which returns to SEPC in the mode before the trap, or forwards the trap to the user
handler, and which waits at the boundary while an access of its slot to the save area that it reloads is in flight (R90, R327); ERET, which returns
from a user interrupt handler; an attached member that returns becomes a strand (R47, R57); SCRUB, which clears the parts that it selects. -/
def Obligations.SystemForms : Prop :=
  ∀ (s : State) (a : BitVec 7),
    let me := s.me
    let x := s.x a.toNat
    let n := x.toNat
    (Issues s [a] [a] → Traps s (.trap a) 0x13 x ∧
      exec (.pause a) s = .next (s.updMe fun sl => { sl.popQueue with wait := .pause (max 1 (min 64 n)) })) ∧
    Traps s .brk 0x14 0 ∧
    (me.mode = false → Traps s .sret 0x02 (wordOf .sret) ∧ Traps s (.scrub a) 0x02 (wordOf (.scrub a))) ∧
    (me.mode = true → me.member ≠ .attached →
      (me.nosave = true ∨ me.pm = true → me.uf = false ∨ me.pm = true ∨ me.uih = true ∨ me.uvec = 0 →
        ∃ t, exec .sret s = .next t ∧ t.regs = s.regs ∧ OtherSlots s t s.cur ∧ t = { s with slots := t.slots } ∧
          t.slot s.cur = { me with pc := me.sepc.toNat, mode := me.pm, uf := false, nest := false, wait := .none, xfer := true,
                                   coil := (t.slot s.cur).coil } ∧
          (me.coil = none → (t.slot s.cur).coil = none)) ∧
      (me.nosave = false → me.pm = false → ∀ x ∈ s.accesses, x.slot = s.cur → ∀ q ∈ x.parts,
        q.gpa < s.cur / 512 * 2 ^ 45 + me.sbase.toNat * 4096 + 64 → s.cur / 512 * 2 ^ 45 + me.sbase.toNat * 4096 < q.gpa + q.size →
        SlotGets s .sret s.cur { me with wait := .hold }) ∧
      (me.nosave = false → me.pm = false → me.uf = false → NoSoft s (s.cur / 512 * 2 ^ 45 + me.sbase.toNat * 4096) 64 →
        Alone s (s.cur / 512 * 2 ^ 45 + me.sbase.toNat * 4096) 64 →
        ∃ t, exec .sret s = .next t ∧ OtherSlots s t s.cur ∧ OnlySlots s t ∧ (t.slot s.cur).pc = me.sepc.toNat ∧
          (t.slot s.cur).mode = false ∧
          ∀ k, 1 ≤ k → k < 8 → t.regOf s.cur k =
            BitVec.ofNat 64 (s.readAs (s.slotKey s.cur) (s.cur / 512 * 2 ^ 45 + me.sbase.toNat * 4096 + 8 * (k - 1)) 8)) ∧
      (me.nosave = true → me.uf = true → me.pm = false → me.uih = false → me.uvec ≠ 0 →
        ∃ t, exec .sret s = .next t ∧ (t.slot s.cur).pc = me.uvec.toNat / 4 * 4 ∧ (t.slot s.cur).mode = false ∧
          (t.slot s.cur).uih = true ∧ (t.slot s.cur).uepc = me.sepc ∧ (t.slot s.cur).ucode.toNat = me.scause.toNat % 256 ∧
          (t.slot s.cur).uf = false ∧ (t.slot s.cur).nest = false)) ∧
    (me.mode = true → me.member = .attached → me.uf = false → me.nosave = true →
      ∃ t, exec .sret s = .next t ∧ (t.slot s.cur).member = .strand ∧ (t.slot s.cur).queue = [] ∧ (t.slot s.cur).pc = me.sepc.toNat ∧
        (t.slot s.cur).mode = me.pm ∧ (t.slot s.cur).wait = .none) ∧
    (me.mode = false → me.uih = true → me.member = .attached →
      ∃ t, exec .eret s = .next t ∧ (t.slot s.cur).member = .strand ∧ (t.slot s.cur).queue = [] ∧ (t.slot s.cur).pc = me.uepc.toNat ∧
        (t.slot s.cur).uih = false ∧ (t.slot s.cur).wait = .none) ∧
    (me.mode = true ∨ me.uih = false → Traps s .eret 0x01 (wordOf .eret)) ∧
    (me.mode = false → me.uih = true → me.member ≠ .attached →
      ∃ t, exec .eret s = .next t ∧ (t.slot s.cur).pc = me.uepc.toNat ∧ (t.slot s.cur).uih = false ∧ (t.slot s.cur).mode = false ∧
        (t.slot s.cur).wait = .none ∧ OtherSlots s t s.cur ∧ OnlySlots s t ∧
        (∀ k, 1 ≤ k → k < 8 → (t.regOf s.cur k = (mapGet me.shadow Reg.initial k).val ∧
          t.presOf s.cur k = (mapGet me.shadow Reg.initial k).pres ∧
          (mapGet (t.slot s.cur).shadow Reg.initial k).val = s.regOf s.cur k ∧
          (mapGet (t.slot s.cur).shadow Reg.initial k).pres = s.presOf s.cur k)) ∧
        OtherEntries s t (fun e => ∃ k, 1 ≤ k ∧ k < 8 ∧ e = s.entryOf s.cur k)) ∧
    (me.mode = true → Issues s [a] [a] →
      (64 ≤ n → Traps s (.scrub a) 0x01 (wordOf (.scrub a))) ∧
      (n < 64 → Quiet s → s.enginesOut s.cur = false → me.coil = none → Rising (me.watches.map (·.1)) →
        Rising ((s.core (s.cur / 16)).tiles.map (·.1)) → ∃ t, exec (.scrub a) s = .next t ∧ (t.slot s.cur).pc = me.pc + 4 ∧
        OtherSlots s t s.cur ∧
        (n.testBit 0 = true → (t.slot s.cur).shadow = [] ∧
          ∀ k, k < me.limit - me.base → t.entry (s.entryOf s.cur k) = ⟨0, true, false, 0⟩) ∧
        (n.testBit 0 = false → t.regs = s.regs) ∧
        (n.testBit 1 = true → (t.slot s.cur).vec = [] ∧ (t.slot s.cur).masks = []) ∧
        (n.testBit 1 = false → (t.slot s.cur).vec = me.vec ∧ (t.slot s.cur).masks = me.masks) ∧
        (n.testBit 2 = true → (t.slot s.cur).mcfg = BitVec.ofNat 64 (96 * 2 ^ 32 + 96 * 2 ^ 7 + 96) ∧ (t.slot s.cur).pins = [] ∧
          ∀ r i j, r < 4 → i < 96 → j < 96 → cfgTile me.mcfg.toNat r = true → (t.core (s.cur / 16)).element r i j = 0) ∧
        (n.testBit 3 = true → me.slock = true → ∀ key g, s.cur / 512 * 2 ^ 45 + me.sbase.toNat * 4096 ≤ g →
          g < s.cur / 512 * 2 ^ 45 + me.sbound.toNat * 4096 → t.byteAs key g = 0) ∧
        (n.testBit 3 = false → SameMemory s t) ∧
        (n.testBit 4 = true → (t.slot s.cur).uvec = 0 ∧ (t.slot s.cur).uepc = 0 ∧ (t.slot s.cur).upend = 0 ∧
          (t.slot s.cur).uih = false ∧ (t.slot s.cur).utimer = 0 ∧ (t.slot s.cur).umask = 0 ∧ (t.slot s.cur).fa = 0 ∧
          (t.slot s.cur).fb = 0 ∧ (t.slot s.cur).fc = 0 ∧ (t.slot s.cur).sa = 0 ∧ (t.slot s.cur).sb = 0 ∧
          (t.slot s.cur).gtau = 0 ∧ (t.slot s.cur).stimerPend = false ∧
          (t.slot s.cur).coil = none ∧ ∀ k, k < 16 → ((t.slot s.cur).watch k).state = .free) ∧
        (n.testBit 4 = false → (t.slot s.cur).uvec = me.uvec ∧ (t.slot s.cur).upend = me.upend ∧ (t.slot s.cur).stimerPend = me.stimerPend ∧
          (t.slot s.cur).fa = me.fa ∧ (t.slot s.cur).watches = me.watches) ∧
        (n.testBit 5 = true → (t.slot s.cur).failures = me.failures.filter fun f => f.ticket / 2 ^ 12 % 2 ^ 4 == 1) ∧
        (n.testBit 5 = false → (t.slot s.cur).failures = me.failures)))

/-- R289, R290: CSAVE and CREST in an area of creel SRAM that has passed its checks. CSAVE stores the selector, x(FIRST) upward, and every part that
it selects (SHD, USR, VEC, COIL, WAT, SUP), and changes no register; CREST of an area whose parts it has read restores them. The cause and STVAL of a
window that CREST may not have, and the place of that check, are the model's reading (log 35); that it restores a coil state without a check is the model's
choice (log 53). -/
def Obligations.ContextForms : Prop :=
  ∀ (s s1 s2 s3 : State) (a b : BitVec 7) (sp : Span) (got : List (Nat × Nat)) (w : Nat),
    let me := s.me
    let sel := (s.x b.toNat).toNat
    let first := sel / 2 ^ 8 % 2 ^ 7
    let count := sel / 2 ^ 16 % 2 ^ 8
    let g := sp.place.gpa
    let key := s.slotKey s.cur
    let bool := fun (b : Bool) => if b then 1 else 0
    let settled := fun (t : State) => t.updMe fun sl => { sl with ctxWait := none }
    let traps := fun (i : Instr) (cause : Nat) (v : Word) => exec i s = .next (settled (s.trapWith cause v))
    let drained := Quiet s ∧ s.enginesOut s.cur = false ∧ me.failures = []
    let usr : List Nat :=
      [me.uvec.toNat, me.uepc.toNat, me.ucode.toNat + 2 ^ 8 * me.pendSaved.toNat + 2 ^ 15 * bool me.uih,
       if me.utimer = 0 then 0 else me.utimer - s.cycle, me.umask.toNat, me.fa.toNat, me.fb.toNat, me.fc.toNat, me.sa.toNat, me.sb.toNat,
       me.gtau.toNat, bool me.gsb + 2 * bool me.gnf + 4 * bool me.gquiet, me.serial]
    let sup : List Nat :=
      [me.limit * 2 ^ 16 + me.base, me.world.toNat, me.asid.toNat, me.sepc.toNat, me.scause.toNat, me.stval.toNat,
       bool me.mode + 2 * bool me.pm + 4 * bool me.uf + 8 * bool me.nest + 16 * bool me.nosave]
    Steady s → Issues s [a, b] [a, b] →
      (ctxSelBad sel = true → traps (.csave a b) 0x01 (wordOf (.csave a b)) ∧ traps (.crest a b) 0x01 (wordOf (.crest a b))) ∧
      (ctxSelBad sel = false → sel.testBit 6 = true → me.mode = false →
        traps (.csave a b) 0x02 (wordOf (.csave a b)) ∧ traps (.crest a b) 0x02 (wordOf (.crest a b))) ∧
      (ctxSelBad sel = false → sel.testBit 6 = false → me.limit - me.base < first + count →
        traps (.csave a b) 0x03 (BitVec.ofNat 64 (max first (me.limit - me.base))) ∧
        traps (.crest a b) 0x03 (BitVec.ofNat 64 (max first (me.limit - me.base)))) ∧
      (ctxSelBad sel = false → (sel.testBit 6 = true → me.mode = true) → first + count ≤ me.limit - me.base →
        s.ctxArea a = (s1, .ok (sp.va, [sp])) → sp.n = 6720 → sp.va % 64 = 0 → sp.place.home = none → g % 2 ^ 45 + 6720 ≤ 0xC00000 →
        g % 64 = 0 → g < 2 ^ 63 → drained → Clean s1 g 6720 → Memory.wf s1.mem = true → NoBarrierWait s g 6720 →
        ∃ t, exec (.csave a b) s = .next t ∧ t.regs = s.regs ∧ t.slot s.cur = { me.advance 4 with ctxWait := none } ∧ OtherSlots s t s.cur ∧
          t.empties = s.empties ∧ t.readAs key g 8 = sel ∧
          (∀ i, i < count → t.readAs key (g + 64 + 8 * i) 8 = (s.regOf s.cur (first + i)).toNat) ∧
          (∀ i, i < count → (t.readAs key (g + 8) 16).testBit i = s.presOf s.cur (first + i)) ∧
          (sel.testBit 2 = true → ∀ i, i < 7 → t.readAs key (g + 1088 + 8 * i) 8 = (mapGet me.shadow Reg.initial (i + 1)).val.toNat) ∧
          (sel.testBit 1 = true → ∀ i, i < 13 → t.readAs key (g + 1152 + 8 * i) 8 = usr.getD i 0 % 2 ^ 64) ∧
          (sel.testBit 3 = true → (∀ i, i < 8 → t.readAs key (g + 1280 + 512 * i) 512 = (me.w i).toNat) ∧
            ∀ i, i < 3 → t.readAs key (g + 5376 + 16 * i) 16 = (me.m (i + 1)).toNat) ∧
          (sel.testBit 4 = true → (me.coil = none → t.readAs key (g + 5440) 192 = 0) ∧
            ∀ c, me.coil = some c → 0 < c.words.length → c.words.length ≤ 16 →
              (∀ i, i < c.words.length → t.readAs key (g + 5440 + 4 * i) 4 = (c.words.getD i 0).toNat) ∧
              t.readAs key (g + 5504) 8 = (1 + 2 * (c.words.length - 1) + 2 ^ 5 * (c.reps - 1) + 2 ^ 11 * c.sd + 2 ^ 16 * c.sa +
                2 ^ 21 * c.sb + 2 ^ 26 * c.k + 2 ^ 32 * c.i) % 2 ^ 64 ∧
              t.readAs key (g + 5512) 8 = (c.base + 4 * c.i) % 2 ^ 64) ∧
          (sel.testBit 5 = true → ∀ i, i < 16 → let x := me.watch i
            t.readAs key (g + 5632 + 64 * i) 8 = x.addr.toNat ∧ t.readAs key (g + 5640 + 64 * i) 8 = x.thr.toNat ∧
            t.readAs key (g + 5648 + 64 * i) 8 = x.ansv.toNat ∧
            t.readAs key (g + 5656 + 64 * i) 8 = watchCode x.state + 4 * bool x.int + 8 * bool (x.bind != 0) ∧
            t.readAs key (g + 5664 + 64 * i) 8 = x.start.toNat ∧ t.readAs key (g + 5672 + 64 * i) 8 = x.len.toNat) ∧
          (sel.testBit 6 = true → ∀ i, i < 7 → t.readAs key (g + 6656 + 8 * i) 8 = sup.getD i 0 % 2 ^ 64) ∧
          ∀ h, h < g ∨ g + 6720 ≤ h → t.byteAs key h = s1.byteAs key h) ∧
      (ctxSelBad sel = false → sel.testBit 6 = false → first + count ≤ me.limit - me.base →
        s.ctxArea a = (s1, .ok (sp.va, [sp])) → drained → s1.ctxRead [sp] sp.va sel = (s2, .ok got) →
        exec (.crest a b) s = .next (settled ((s2.restoreCtx sel got).retire 4))) ∧
      (ctxSelBad sel = false → sel.testBit 6 = true → me.mode = true → s.ctxArea a = (s1, .ok (sp.va, [sp])) → drained →
        s1.areaRead [sp] (sp.va + 6656) 8 = (s2, .ok w) → first + count ≤ w / 2 ^ 16 % 2 ^ 12 - w % 2 ^ 11 →
        s2.ctxRead [sp] sp.va sel = (s3, .ok got) →
        (s3.windowOk s.cur (gotWord got 6656 0) = false → traps (.crest a b) 0x07 0 ∨
          ∃ t : State, exec (.crest a b) s = .next (settled (t.trapWith 0x07 0)) ∧ t.slots = s.slots) ∧
        (s3.windowOk s.cur (gotWord got 6656 0) = true → s3.leavesProtected s.cur (gotWord got 6656 1 % 64) = false →
          exec (.crest a b) s = .next (settled ((s3.restoreCtx sel got).retire 4)))) ∧
      (let t := s.restoreCtx sel got
       let sl := t.slot s.cur
       let usr := gotWord got 1152
       let sup := gotWord got 6656
       (sel.testBit 6 = false → t.mem = s.mem ∧ ∀ i, i < count → first + i ≠ 0 →
          t.regOf s.cur (first + i) = BitVec.ofNat 64 (gotWord got 64 i) ∧
          t.presOf s.cur (first + i) = (gotAll got 0 / 2 ^ 64 % 2 ^ 128).testBit i) ∧
       (sel.testBit 2 = true → ∀ i, i < 7 → mapGet sl.shadow Reg.initial (i + 1) =
          ⟨BitVec.ofNat 64 (gotWord got 1088 i), (gotWord got 0 5).testBit i, false, 0⟩) ∧
       (sel.testBit 1 = true → sel.testBit 5 = false → sl.uvec = BitVec.ofNat 48 (usr 0 / 4 * 4) ∧ sl.uepc = BitVec.ofNat 47 (usr 1 / 4 * 4) ∧
          sl.ucode = BitVec.ofNat 8 (usr 2) ∧ (me.ctxWait = none → sel.testBit 6 = false → sl.upend = BitVec.ofNat 4 (usr 2 / 256)) ∧
          sl.uih = (usr 2).testBit 15 ∧ sl.utimer = (if usr 3 = 0 then 0 else s.cycle + usr 3) ∧ sl.umask = BitVec.ofNat 4 (usr 4) ∧
          sl.sa = BitVec.ofNat 47 (usr 8) ∧ sl.sb = BitVec.ofNat 47 (usr 9) ∧ sl.gtau = BitVec.ofNat 32 (usr 10) ∧
          sl.gsb = (usr 11).testBit 0 ∧ sl.gnf = (usr 11).testBit 1 ∧ sl.gquiet = (usr 11).testBit 2 ∧ sl.serial = usr 12) ∧
       (sel.testBit 3 = true → (∀ i, i < 8 → sl.w i = BitVec.ofNat 4096 (gotAll got 1280 / 2 ^ (4096 * i))) ∧
          ∀ i, i < 3 → sl.m (i + 1) = BitVec.ofNat 128 (gotAll got 1280 / 2 ^ (32768 + 128 * i))) ∧
       (sel.testBit 4 = true → let v := gotAll got 5440
          ((v / 2 ^ 512 % 2 = 0 → sl.coil = none) ∧
           (v / 2 ^ 512 % 2 = 1 → ∃ c, sl.coil = some c ∧ c.suspended = true ∧ c.words.length = v / 2 ^ 513 % 2 ^ 4 + 1 ∧
              (∀ i, i < c.words.length → c.words.getD i 0 = BitVec.ofNat 32 (v / 2 ^ (32 * i))) ∧ c.reps = v / 2 ^ 517 % 2 ^ 6 + 1 ∧
              c.sd = v / 2 ^ 523 % 2 ^ 5 ∧ c.sa = v / 2 ^ 528 % 2 ^ 5 ∧ c.sb = v / 2 ^ 533 % 2 ^ 5 ∧ c.k = v / 2 ^ 538 % 2 ^ 6 ∧
              c.i = v / 2 ^ 544 % 2 ^ 4))) ∧
       (sel.testBit 5 = true → Rising (me.watches.map (·.1)) → ∀ k, k < 16 →
          let x := fun i => gotWord got 5632 (8 * k + i)
          (x 3 % 4 = 0 → (sl.watch k).state = .free) ∧
          (x 3 % 4 = 2 → (sl.watch k).state = .ans ∧ (sl.watch k).addr = BitVec.ofNat 64 (x 0) ∧ (sl.watch k).thr = BitVec.ofNat 64 (x 1) ∧
            (sl.watch k).ansv = BitVec.ofNat 64 (x 2) ∧ (sl.watch k).int = (x 3).testBit 2 ∧ (sl.watch k).start = BitVec.ofNat 64 (x 4) ∧
            (sl.watch k).len = BitVec.ofNat 64 (x 5))) ∧
       (sel.testBit 6 = true → s.leavesProtected s.cur (sup 1 % 64) = false →
          sl.base = sup 0 % 2 ^ 11 ∧ sl.limit = sup 0 / 2 ^ 16 % 2 ^ 12 ∧ sl.world = BitVec.ofNat 6 (sup 1) ∧ sl.asid = BitVec.ofNat 9 (sup 2) ∧
          sl.sepc = BitVec.ofNat 47 (sup 3 / 4 * 4) ∧ sl.scause = BitVec.ofNat 10 (sup 4) ∧ sl.stval = BitVec.ofNat 64 (sup 5) ∧
          sl.pm = (sup 6).testBit 1 ∧ sl.uf = (sup 6).testBit 2 ∧ sl.nest = (sup 6).testBit 3 ∧ sl.nosave = (sup 6).testBit 4))

/-! ### The CACHE group (R293, R294) -/

/-- R293, R294: a local form and RINV with length 0 do nothing, and a length above 2^30 traps. A page that fails its check traps. On the one line of a
range L2WB writes the line back, L2INV drops it or, pinned, writes it back, L2WBI does both, and L2PF fills its sectors. RINV drops reader-cache
lines. A form over several pages goes on from page to page (log 5). L2HM replaces a mask, in supervisor mode and in one step (log 5); an access on its way
under the mask is served at once under the new one, from DRAM when that has no bit set (log 24), and a range form that has lines under the mask left acts
on them then (R324). -/
def Obligations.CacheForms : Prop :=
  ∀ (s s1 : State) (a b : BitVec 7) (sp : Span) (core g : Nat) (w : Sweep) (tr : Option Trap),
    let va := (s.x a.toNat).toNat
    let n := (s.x b.toNat).toNat
    let forms : List (Nat × Instr) := [(0, .l2wb a b), (1, .l2inv a b), (2, .l2wbi a b), (3, .rinv a b), (5, .l2pf a b)]
    let checks := fun (fn : Nat) => s.sweepCheck s.cur ⟨fn, va, n, [], 0, 0, 0, 0⟩ (pagesOf n) = (s1, w, tr)
    let one := fun (fn : Nat) => checks fn ∧ tr = none ∧ w.left = 0 ∧ w.spans = [sp] ∧ w.fn = fn
    let lin := s.cur / 512
    let k := va % 4
    Issues s [a, b] [a, b] →
      (n = 0 → ∀ f ∈ forms, Passes s f.2) ∧
      (2 ^ 30 < n → ∀ f ∈ forms, Traps s f.2 0x01 (wordOf f.2)) ∧
      (0 < n → n ≤ 2 ^ 30 → Quiet s → ∀ f ∈ forms, checks f.1 →
        (∀ r, tr = some r → exec f.2 s = .next (s1.trap r)) ∧
        (tr = none → 0 < w.left → ∃ t, exec f.2 s = .next t ∧ t.regs = s.regs ∧ t.mem = s1.mem ∧
          (t.slot s.cur).wait = .sweep { w with since := s1.nextId } ∧
          (t.slot s.cur).pc = s.me.pc) ∧
        (tr = none → w.left = 0 → w.spans = [] → exec f.2 s = .next (s1.retire 4))) ∧
      (0 < n → n ≤ 2 ^ 30 → Quiet s → s1.lin = lin → s1.spanLines lin sp = [(core, g)] →
        (∀ x l, s1.l2Find core g = some (x, l) →
          (one 0 → exec (.l2wb a b) s = .next ((s1.l2WriteBack core x).retire 4)) ∧
          (one 2 → exec (.l2wbi a b) s =
            .next ((if l.pins = 0 then (s1.l2WriteBack core x).l2Drop core x else s1.l2WriteBack core x).retire 4)) ∧
          (one 1 → exec (.l2inv a b) s = .next ((if l.pins = 0 then s1.l2Drop core x else s1.l2WriteBack core x).retire 4))) ∧
        (s1.l2Find core g = none → ∀ f ∈ [(0, Instr.l2wb a b), (1, .l2inv a b), (2, .l2wbi a b)], one f.1 →
          exec f.2 s = .next (s1.retire 4)) ∧
        (one 5 → exec (.l2pf a b) s = .next (((List.range 8).foldl (fun s i =>
          s.l2Ensure core (g + 128 * i) sp.place.hk sp.place.hm s.me.world.toNat) s1).retire 4))) ∧
      (0 < n → n ≤ 2 ^ 30 → Quiet s → one 3 →
        exec (.rinv a b) s = .next ((s1.dropReaderLines s1.lin [(sp.place.gpa, sp.n)]).retire 4)) ∧
      (s.me.mode = false → Traps s (.l2hm a b) 0x02 (wordOf (.l2hm a b))) ∧
      (s.me.mode = true → n < 2 ^ 24 → s.maskResident lin k (fun l => l.pins != 0) = false → s.sweepsUnder lin k = [] →
        ((∀ x ∈ s.accesses, isGld x.kind = true ∨ ∀ p ∈ x.parts, partUnder lin k x p = false) →
          ∃ t, exec (.l2hm a b) s = .next t ∧ t.regs = s.regs ∧ t.slot s.cur = s.me.advance 4 ∧ OtherSlots s t s.cur ∧
            mapGet (t.creel lin).hmask 0 k = BitVec.ofNat 24 n) ∧
        (∀ x p, s.accesses = [x] → x.id ≠ 0 → x.kind = .store → x.parts = [p] → partUnder lin k x p = true →
          ∃ t, exec (.l2hm a b) s = .next t ∧ t.accesses = [] ∧ mapGet (t.creel lin).hmask 0 k = BitVec.ofNat 24 n)) ∧
      (∀ y id v, s.me.mode = true → n < 2 ^ 24 → s.maskResident lin k (fun l => l.pins != 0) = false → s.accesses = [] →
        s.sweepsUnder lin k = [(y, id, v)] → id ≠ s.cur → v.fn ≠ 6 → (∀ q ∈ v.spans, q.place.hk = true ∧ q.place.hm % 4 = k) →
        ∃ t, exec (.l2hm a b) s = .next t ∧ mapGet (t.creel lin).hmask 0 k = BitVec.ofNat 24 n ∧
          t.slot id = (s.slot id).advance 4 ∧ t.slot s.cur = s.me.advance 4) ∧
      (s.me.mode = true → s.maskResident lin k (fun l => l.pins != 0) = true → n < 2 ^ 24 → Traps s (.l2hm a b) 0x08 0) ∧
      (s.me.mode = true → 2 ^ 24 ≤ n → Traps s (.l2hm a b) 0x01 (wordOf (.l2hm a b)))
/-! ### Special registers (R37, R74, R138, R139, R271, R345) -/

/-- R74, R84, R138, R139, R271, R272, R345: MFS of each register, of what TTIDX selects behind TTDATA and of a selected item of SLOTTAB. A TTIDX that
selects nothing raises 0x01, a supervisor register in user mode 0x02, and a number without a register 0x01. TTIDX per slot and SLOTTAB per core are the
model's reading (log 18); FA, FB and FC read without their reserved bits (log 20). -/
def Obligations.MfsResults : Prop :=
  ∀ (s : State) (d : BitVec 7),
    let me := s.me
    let lin := s.cur / 512
    let nat := fun (v : Nat) => (BitVec.ofNat 64 v : Word)
    let bool := fun (b : Bool) => if b then 1 else 0
    let mask := fun k => nat (mapGet (s.creel lin).hmask 0 k).toNat
    let mfs := fun (n : Nat) => Instr.mfs d (BitVec.ofNat 12 n)
    let user : List (Nat × Word) :=
      [(0x000, nat (s.cycle - (s.module (lin / 128)).resetAt)), (0x001, nat (s.cur % 16)), (0x002, nat (s.cur / 16 % 32)),
       (0x003, nat (lin % 128)), (0x004, nat (lin / 128)), (0x005, nat me.memb), (0x006, nat me.width),
       (0x007, nat (me.limit * 2 ^ 16 + me.base)), (0x010, nat me.uvec.toNat), (0x011, nat me.uepc.toNat),
       (0x012, nat (me.ucode.toNat + 2 ^ 8 * me.upend.toNat + 2 ^ 15 * bool me.uih)), (0x013, nat (me.utimer - s.cycle)),
       (0x014, nat me.umask.toNat), (0x020, me.fa &&& ~~~0xFE00#64), (0x021, me.fb &&& ~~~0xFE00#64), (0x022, me.fc &&& ~~~0xFE00#64),
       (0x023, nat me.sa.toNat), (0x024, nat me.sb.toNat),
       (0x030, nat me.gtau.toNat), (0x031, nat (bool me.gsb + 2 * bool me.gnf + 4 * bool me.gquiet))]
    let sup : List (Nat × Word) :=
      [(0x100, nat (s.creel lin).svec.toNat), (0x101, nat me.sepc.toNat), (0x102, nat me.scause.toNat), (0x103, me.stval),
       (0x104, nat (bool me.mode + 2 * bool me.pm + 4 * bool me.uf + 8 * bool me.nest + 16 * bool me.nosave)),
       (0x105, nat me.world.toNat), (0x106, nat me.asid.toNat), (0x107, nat (me.sbase.toNat * 4096)), (0x108, nat (me.sbound.toNat * 4096)),
       (0x109, nat (bool me.slock)), (0x10A, nat (me.stimer - s.cycle)), (0x140, mask 0), (0x141, mask 1), (0x142, mask 2), (0x143, mask 3),
       (0x180, nat me.ttidx.toNat)]
    (∀ n : BitVec 12, encode (.mfs d n) = [wordRI 0xD8000000 d 0 n.toNat]) ∧
    (Issues s [d] [] → ∀ f ∈ user, Writes s (mfs f.1) d f.2 4) ∧
    (me.mode = true → Issues s [d] [] → (∀ f ∈ sup, Writes s (mfs f.1) d f.2 4) ∧
      (∀ n, me.ttidx.toNat = n → n < 1024 → Writes s (mfs 0x181) d (mapGet (s.creel lin).roots 0 n) 4) ∧
      (∀ n, me.ttidx.toNat = 0x1000 + n → n < 0x205 → Writes s (mfs 0x181) d (mapGet (s.creel lin).tree 0 n) 4) ∧
      (∀ n, me.ttidx.toNat = 0x2000 + n → n < 1024 → Writes s (mfs 0x181) d 0 4) ∧
      (∀ n, me.ttidx.toNat = 0x3000 + n → n < 48 →
        let sl := s.slot (s.cur / 16 * 16 + n % 16)
        Writes s (mfs 0x181) d
          (nat (if n < 16 then sl.sbase.toNat * 4096 else if n < 32 then sl.sbound.toNat * 4096 else bool sl.slock)) 4) ∧
      (∀ sp n, me.ttidx.toNat = 0x1000 * sp + n → n < 0x1000 →
        4 ≤ sp ∨ (sp = 0 ∨ sp = 2) ∧ 1024 ≤ n ∨ sp = 1 ∧ 0x205 ≤ n ∨ sp = 3 ∧ 48 ≤ n →
        Traps s (mfs 0x181) 0x01 (wordOf (mfs 0x181))) ∧
      (∀ c n, (s.core (s.cur / 16)).slottab.toNat = c * 2 ^ 52 + n * 2 ^ 48 → c < 24 → n < 16 → Writes s (mfs 0x1C0) d
        (nat (c * 2 ^ 52 + n * 2 ^ 48 + (mapGet (s.core (32 * lin + c)).slotTable 0x18000 n).toNat)) 4) ∧
      (∀ n, (s.core (s.cur / 16)).slottab.toNat = 2 ^ 60 + n * 2 ^ 48 → n < 5 → Writes s (mfs 0x1C0) d
        (nat (2 ^ 60 + n * 2 ^ 48 + ([(s.creel lin).params.age, (s.creel lin).params.bint, (s.creel lin).params.lthr,
          (s.creel lin).params.lcfg, (s.creel lin).params.jwd].getD n 0))) 4)) ∧
    (me.mode = false → ∀ n ∈ sup.map (·.1) ++ [0x181, 0x1C0], Traps s (mfs n) 0x02 (wordOf (mfs n))) ∧
    (∀ n : BitVec 12, n.toNat ∉ (user ++ sup).map (·.1) ++ [0x181, 0x1C0] → Traps s (.mfs d n) 0x01 (wordOf (.mfs d n)))

/-- R36, R37, R74, R75, R78, R85, R138, R271 to R273, R287, R346: MTS of each register that it writes, without any other effect. A root entry is written with an
invalidation that its slot waits for (R77). A read-only number, one without a register, a supervisor register in user mode, a TTIDX or a SLOTTAB value that
selects nothing and a value with a reserved bit of its item trap. TTIDX per slot and SLOTTAB per core are the model's reading (log 18); FA, FB and FC take no
reserved bit (log 20). That a write for a tree group that runs raises 0x08 with STVAL 0 is the model's reading (log 34). -/
def Obligations.MtsResults : Prop :=
  ∀ (s : State) (a : BitVec 7),
    let me := s.me
    let lin := s.cur / 512
    let v := s.x a.toNat
    let n := v.toNat
    let mts := fun (k : Nat) => Instr.mts a (BitVec.ofNat 12 k)
    let user : List (Nat × Slot) :=
      [(0x010, { me with uvec := BitVec.ofNat 48 (n / 4 * 4) }), (0x011, { me with uepc := BitVec.ofNat 47 (n / 4 * 4) }),
       (0x012, { me with ucode := BitVec.ofNat 8 n, upend := BitVec.ofNat 4 (n / 256) }),
       (0x013, { me with utimer := if n = 0 then 0 else s.cycle + n }), (0x014, { me with umask := BitVec.ofNat 4 n }),
       (0x020, { me with fa := v &&& ~~~0xFE00#64 }), (0x021, { me with fb := v &&& ~~~0xFE00#64 }),
       (0x022, { me with fc := v &&& ~~~0xFE00#64 }), (0x023, { me with sa := BitVec.ofNat 47 n }),
       (0x024, { me with sb := BitVec.ofNat 47 n }), (0x030, { me with gtau := BitVec.ofNat 32 n }),
       (0x031, { me with gsb := n.testBit 0, gnf := n.testBit 1, gquiet := n.testBit 2 })]
    let sup : List (Nat × Slot) :=
      [(0x101, { me with sepc := BitVec.ofNat 47 (n / 4 * 4) }), (0x102, { me with scause := BitVec.ofNat 10 n }), (0x103, { me with stval := v }),
       (0x104, { me with pm := n.testBit 1, uf := n.testBit 2, nest := n.testBit 3, nosave := n.testBit 4 }),
       (0x106, { me with asid := BitVec.ofNat 9 n }), (0x180, { me with ttidx := BitVec.ofNat 16 n }),
       (0x10A, if n = 0 then { me with stimer := 0, stimerPend := false } else { me with stimer := s.cycle + n })]
    let others := [0x100, 0x105, 0x107, 0x108, 0x109, 0x140, 0x141, 0x142, 0x143, 0x181, 0x1C0]
    let becomes := fun (k : Nat) (sl : Slot) => exec (mts k) s = .next ((s.updMe fun _ => sl).retire 4)
    let creel := fun (k : Nat) (c : Creel) => exec (mts k) s = .next ((s.updCreel lin fun _ => c).retire 4)
    let cr := s.creel lin
    let w := fun (k : Nat) => wordOf (mts k)
    (∀ k : BitVec 12, encode (.mts a k) = [wordRI 0xDC000000 0 a k.toNat]) ∧
    (Issues s [a] [a] → ∀ f ∈ user, becomes f.1 f.2) ∧
    (me.mode = true → Issues s [a] [a] →
      (∀ f ∈ sup, becomes f.1 f.2) ∧
      creel 0x100 { cr with svec := BitVec.ofNat 48 (n / 4 * 4) } ∧
      (s.leavesProtected s.cur (n % 64) = false → becomes 0x105 { me with world := BitVec.ofNat 6 (n % 64) }) ∧
      (me.slock = false → becomes 0x107 { me with sbase := BitVec.ofNat 12 (n / 2 ^ 12) } ∧
        becomes 0x108 { me with sbound := BitVec.ofNat 12 (n / 2 ^ 12) }) ∧
      (me.slock = true → Traps s (mts 0x107) 0x08 0 ∧ Traps s (mts 0x108) 0x08 0) ∧
      (n % 2 = 0 → Passes s (mts 0x109)) ∧
      (n % 2 = 1 → me.sbound.toNat ≤ 0xBF0 →
        (∀ g, me.sbase.toNat ≤ g → g < me.sbound.toNat → s.lockedElsewhere lin g s.cur = false) → becomes 0x109 { me with slock := true }) ∧
      (n % 2 = 1 → 0xBF0 < me.sbound.toNat → Traps s (mts 0x109) 0x07 0) ∧
      (n % 2 = 1 → (∃ g, me.sbase.toNat ≤ g ∧ g < me.sbound.toNat ∧ s.lockedElsewhere lin g s.cur = true) → Traps s (mts 0x109) 0x07 0) ∧
      (∀ k, k < 4 → (s.maskResident lin k (fun _ => true) = false →
          creel (0x140 + k) { cr with hmask := mapPut cr.hmask k (BitVec.ofNat 24 n) }) ∧
        (s.maskResident lin k (fun _ => true) = true → Traps s (mts (0x140 + k)) 0x08 0)) ∧
      (∀ k, me.ttidx.toNat = k → k < 1024 → ∃ t is ss, exec (mts 0x181) s = .next t ∧ t.regs = s.regs ∧ SameMemory s t ∧
        (t.slot s.cur).wait = .inval is ss ∧ (t.slot s.cur).pc = me.pc ∧
        mapGet (t.creel lin).roots 0 k = BitVec.ofNat 64 (n / 2 ^ 58 * 2 ^ 58 + n / 2 ^ 8 % 2 ^ 37 * 2 ^ 8 + n % 2) ∧
        ∀ e ∈ (t.creel lin).tlb, ¬(e.asid = k / 2 ∧ e.global = k.testBit 0)) ∧
      (∀ k, me.ttidx.toNat = 0x1000 + k → k < 0x205 → treeReserved k n = false → (k = 0x204 → 256 ≤ n) →
        (∀ p ∈ cr.pulls, p.fn ≠ 4) → creel 0x181 { cr with tree := mapPut cr.tree k v }) ∧
      (∀ k, me.ttidx.toNat = 0x1000 + k → k < 0x205 → treeReserved k n = true ∨ k = 0x204 ∧ n < 256 → Traps s (mts 0x181) 0x01 (w 0x181)) ∧
      (∀ k, me.ttidx.toNat = 0x1000 + k → k < 0x200 → treeReserved k n = false → (∃ p ∈ cr.pulls, p.fn = 4 ∧ p.group = k / 8) →
        Traps s (mts 0x181) 0x08 0) ∧
      (∀ sp k, me.ttidx.toNat = 0x1000 * sp + k → k < 0x1000 →
        4 ≤ sp ∨ (sp = 0 ∨ sp = 2) ∧ 1024 ≤ k ∨ sp = 1 ∧ 0x205 ≤ k ∨ sp = 3 ∧ 48 ≤ k → Traps s (mts 0x181) 0x01 (w 0x181)) ∧
      (∀ k, me.ttidx.toNat = 0x3000 + k → k < 32 → (s.slot (s.cur / 16 * 16 + k % 16)).slock = true → Traps s (mts 0x181) 0x08 0) ∧
      (slottabBad n = true → Traps s (mts 0x1C0) 0x01 (w 0x1C0)) ∧
      (n < 2 ^ 63 → slottabBad n = false → exec (mts 0x1C0) s =
        .next ((s.updCore (s.cur / 16) fun c => { c with slottab := BitVec.ofNat 64 (n / 2 ^ 48 * 2 ^ 48) }).retire 4)) ∧
      (∀ c k, c < 24 → k < 16 → n = 2 ^ 63 + c * 2 ^ 52 + k * 2 ^ 48 + n % 2 ^ 48 →
        (2 ^ 17 ≤ n % 2 ^ 48 → Traps s (mts 0x1C0) 0x01 (w 0x1C0)) ∧
        (n % 2 ^ 48 < 2 ^ 17 → ∃ t, exec (mts 0x1C0) s = .next t ∧ t.regs = s.regs ∧ t.slot s.cur = me.advance 4 ∧
          (t.core (32 * lin + c)).slotTable = mapPut (s.core (32 * lin + c)).slotTable k (BitVec.ofNat 64 (n % 2 ^ 48)) ∧
          (t.core (s.cur / 16)).slottab = BitVec.ofNat 64 (c * 2 ^ 52 + k * 2 ^ 48))) ∧
      (∀ k, k < 6 → n = 2 ^ 63 + 2 ^ 60 + k * 2 ^ 48 + n % 2 ^ 48 → paramOk k (n % 2 ^ 48) = false → Traps s (mts 0x1C0) 0x01 (w 0x1C0)) ∧
      (∀ k, k < 5 → n = 2 ^ 63 + 2 ^ 60 + k * 2 ^ 48 + n % 2 ^ 48 → paramOk k (n % 2 ^ 48) = true →
        ∃ t, exec (mts 0x1C0) s = .next t ∧ t.regs = s.regs ∧ t.slot s.cur = me.advance 4 ∧
          (t.creel lin).params = cr.params.put k (n % 2 ^ 48) ∧ (t.core (s.cur / 16)).slottab = BitVec.ofNat 64 (2 ^ 60 + k * 2 ^ 48))) ∧
    (me.mode = false → ∀ k ∈ sup.map (·.1) ++ others, Traps s (mts k) 0x02 (w k)) ∧
    (∀ k : BitVec 12, k.toNat ∉ (user ++ sup).map (·.1) ++ others → Traps s (.mts a k) 0x01 (wordOf (.mts a k)))

/-! ### Traps (R30, R136, R169, R327, R328, R339) -/

/-- R327, R328: taking a trap. Without a handler, and on a second trap in supervisor mode, the slot is terminated. Otherwise SEPC, SCAUSE, STVAL and
STATUS are written, the mode becomes supervisor and the slot goes on at SVEC; an attached member becomes a strand. When the slot was in user mode with
a locked partition, x1 to x7 and their presence bits stand at SBASE, and no other byte of memory changes; while an access of the slot is in flight the
entry waits for it (log 28). R341: a word that is no instruction raises 0x01 with STVAL the word. R330: a supervisor form in user mode raises 0x02. R30: a field
outside the window raises 0x03. R136: an instruction with an absent source waits. R169: the reader of a failed relaxed load raises its fault. SEPC holds
the address modulo 2^47 (log 41). -/
def Obligations.TrapEntry : Prop :=
  ∀ (s : State) (tr : Trap) (w : BitVec 32),
    let me := s.me
    let vec := (s.creel (s.cur / 512)).svec.toNat
    let dead := vec = 0 ∨ me.nest = true ∧ me.mode = true
    let saves := me.mode = false ∧ me.slock = true
    let alone := me.member = .strand ∨ me.member = .left
    let g := s.cur / 512 * 2 ^ 45 + me.sbase.toNat * 4096
    let bit := fun (i : Nat) => if s.presOf s.cur (i + 1) then 2 ^ i else 0
    let saved := ((List.range 7).flatMap fun i => natBytes (s.x (i + 1)).toNat 8) ++
      natBytes (bit 0 + bit 1 + bit 2 + bit 3 + bit 4 + bit 5 + bit 6) 8
    let t := s.trap tr
    (dead → (t.slot s.cur).terminating = true ∧ (t.slot s.cur).wait = .hold ∧ (t.slot s.cur).pc = me.pc ∧ t.regs = s.regs ∧
      SameMemory s t ∧ OtherSlots s t s.cur) ∧
    (¬dead → ¬saves ∨ Quiet s →
      (t.slot s.cur).sepc = BitVec.ofNat 47 me.pc ∧
      (t.slot s.cur).scause =
        BitVec.ofNat 10 (tr.cause + (if tr.deferred then 256 else 0) + (if me.member = .attached then 512 else 0)) ∧
      (t.slot s.cur).stval = tr.val ∧ (t.slot s.cur).pm = me.mode ∧ (t.slot s.cur).nest = me.mode ∧
      (t.slot s.cur).nosave = !(!me.mode && me.slock) ∧ (t.slot s.cur).uf = false ∧ (t.slot s.cur).mode = true ∧
      (t.slot s.cur).pc = vec / 4 * 4 ∧ (t.slot s.cur).wait = .none ∧
      (me.member = .attached ∨ (∃ p, me.member = .jwait p) → (t.slot s.cur).member = .strand)) ∧
    (¬dead → ¬saves → alone → t.regs = s.regs ∧ OtherSlots s t s.cur ∧
      ((∀ b ∈ (s.creel (s.cur / 512)).bwaits, b.slot ≠ s.cur) → SameMemory s t)) ∧
    (¬dead → saves → Quiet s → alone → me.sbase.toNat < 0xC00 → s.cur < 2 ^ 28 → Memory.wf s.mem = true →
      (∀ b ∈ (s.creel (s.cur / 512)).bwaits, b.slot ≠ s.cur) → NoBarrierWait s g 64 →
      Stored s t (s.slotKey s.cur) g saved ∧ t.regs = s.regs ∧ OtherSlots s t s.cur) ∧
    (¬dead → saves → ¬Quiet s → alone →
      (t.slot s.cur).wait = .entry me.pc tr false ∧ (t.slot s.cur).pc = me.pc ∧ (t.slot s.cur).mode = false ∧
      (t.slot s.cur).sepc = me.sepc ∧ t.regs = s.regs ∧ OtherSlots s t s.cur) ∧
    Traps s (.illegalInstruction w) 0x01 (w.setWidth 64) ∧
    (me.mode = false → Traps s .sret 0x02 (wordOf .sret) ∧ ∀ a b : BitVec 7, Traps s (.scrub a) 0x02 (wordOf (.scrub a)) ∧
      Traps s (.l2hm a b) 0x02 (wordOf (.l2hm a b)) ∧
      ∀ n : BitVec 12, 0x100 ≤ n.toNat ∧ n.toNat ≤ 0x10A ∨ 0x140 ≤ n.toNat ∧ n.toNat ≤ 0x143 ∨ n.toNat ∈ [0x180, 0x181, 0x1C0] →
        Traps s (.mfs a n) 0x02 (wordOf (.mfs a n)) ∧ Traps s (.mts a n) 0x02 (wordOf (.mts a n))) ∧
    (∀ d a b : BitVec 7, me.limit ≤ me.base + d.toNat → Traps s (.add d a b) 0x03 (d.setWidth 64)) ∧
    (∀ d a b : BitVec 7, (∀ n ∈ [d, a, b], me.base + n.toNat < me.limit) → me.rfaults = [] → s.presOf s.cur a.toNat = false →
      exec (.add d a b) s = .next s) ∧
    (∀ d a b : BitVec 7, ∀ f, (∀ n ∈ [d, a, b], me.base + n.toNat < me.limit) → me.rfaults = [f] → f.1 = a.toNat →
      exec (.add d a b) s = .next ((s.updMe fun sl => { sl with rfaults := [] }).trap ⟨0x09, f.2, true⟩))

/-! ### Register writes as events (R36, R74 to R78, R84, R85, R138, R251, R271 to R273, R287, R307, R312, R346) -/

/-- R36, R74, R75, R77, R78, R85, R247, R251, R271 to R273, R287, R307, R346: what each register write does to its register or table and to
nothing else, and which values it refuses with a trap. R138, R296, R301: a register without a behaviour of its own takes what is written but for its
reserved bits, a read-only one keeps its value, and a host reads its port registers back. A write that is a step of its own has no instruction word,
so STVAL of its cause 0x01 is 0: the model's choice (log 55). That a write to a read-only number as such a step changes nothing is log 7, that FA takes
no reserved bit log 20, and that TTIDX is the slot's own log 18. -/
def Obligations.RegisterWriteEvents : Prop :=
  ∀ (s : State) (id n idx : Nat) (d : Nat) (v : BitVec 64),
    let lin := id / 512
    let sl := s.slot id
    let c := s.creel lin
    let x := v.toNat
    let v48 := x % 2 ^ 48
    let lk := 16 * (id / 16) + idx % 16
    let refused := fun (k : Nat) => 0xBF0 < (s.slot k).sbound.toNat ∨
      ∃ g, (s.slot k).sbase.toNat ≤ g ∧ g < (s.slot k).sbound.toNat ∧ s.lockedElsewhere (k / 512) g k = true
    let drops := fun (i : Instr) (asid : Nat) (global : Bool) (p : Tlb → Prop) => ∃ t : State, exec i s = .next t ∧
      (∀ e, e ∈ (t.creel lin).tlb ↔ e ∈ c.tlb ∧ ¬(e.asid = asid ∧ e.global = global ∧ p e)) ∧
      (∀ k, k < 24 → ∀ e, e ∈ (t.core (32 * lin + k)).tlb ↔
        e ∈ (s.core (32 * lin + k)).tlb ∧ ¬(e.asid = asid ∧ e.global = global ∧ p e)) ∧
      (∃ ids slots, (t.slot id).wait = .inval ids slots) ∧ (t.slot id).pc = sl.pc ∧ OtherSlots s t id ∧ t.regs = s.regs ∧
      SameMemory s t ∧ (t.creel lin).tree = c.tree ∧
      (t.creel lin).roots = if i = .rootEntryWrite id idx v then
        mapPut c.roots idx (BitVec.ofNat 64 (x / 2 ^ 58 * 2 ^ 58 + x / 2 ^ 8 % 2 ^ 37 * 2 ^ 8 + x % 2)) else c.roots
    SlotGets s (.utimerWrite id v) id { sl with utimer := if v = 0 then 0 else s.cycle + x } ∧
    SlotGets s (.stimerWrite id v) id
      { sl with stimer := if v = 0 then 0 else s.cycle + x, stimerPend := if v = 0 then false else sl.stimerPend } ∧
    (x % 2 = 0 → SlotGets s (.slockWrite id v) id sl) ∧
    (x % 2 = 1 → refused id → TrapsAt s (.slockWrite id v) id 0x07) ∧
    (x % 2 = 1 → ¬refused id → SlotGets s (.slockWrite id v) id { sl with slock := true }) ∧
    (n < 4 → (s.maskResident lin n fun _ => true) = true → TrapsAt s (.hmaskWrite id n v) id 0x08) ∧
    (n < 4 → (s.maskResident lin n fun _ => true) = false →
      CreelGets s (.hmaskWrite id n v) lin { c with hmask := mapPut c.hmask n (BitVec.ofNat 24 x) }) ∧
    (1024 ≤ idx → TrapsAt s (.rootEntryWrite id idx v) id 0x01 ∧ TrapsAt s (.translationInvalidate id idx v) id 0x01) ∧
    (idx < 1024 → drops (.rootEntryWrite id idx v) (idx / 2) (idx % 2 == 1) (fun _ => True)) ∧
    (idx < 1024 → drops (.translationInvalidate id idx v) (idx / 2) (idx % 2 == 1)
      (fun e => v = BitVec.allOnes 64 ∨ e.vpage = x / 2 ^ e.bits)) ∧
    (0x205 ≤ idx ∨ treeReserved idx x = true ∨ (idx = 0x204 ∧ x < 256) → TrapsAt s (.treeTableWrite id idx v) id 0x01) ∧
    (idx < 0x205 → treeReserved idx x = false → (idx = 0x204 → 256 ≤ x) →
      (∀ p ∈ c.pulls, ¬(idx < 0x200 ∧ p.fn = 4 ∧ p.group = idx / 8)) →
      CreelGets s (.treeTableWrite id idx v) lin { c with tree := mapPut c.tree idx v }) ∧
    (48 ≤ idx → TrapsAt s (.partitionRegisterWrite id idx v) id 0x01) ∧
    (idx < 32 → (s.slot lk).slock = true → TrapsAt s (.partitionRegisterWrite id idx v) id 0x08) ∧
    (idx < 16 → (s.slot lk).slock = false →
      SlotGets s (.partitionRegisterWrite id idx v) lk { s.slot lk with sbase := BitVec.ofNat 12 (x / 2 ^ 12) }) ∧
    (16 ≤ idx → idx < 32 → (s.slot lk).slock = false →
      SlotGets s (.partitionRegisterWrite id idx v) lk { s.slot lk with sbound := BitVec.ofNat 12 (x / 2 ^ 12) }) ∧
    (32 ≤ idx → idx < 48 →
      (x % 2 = 1 → refused lk → TrapsAt s (.partitionRegisterWrite id idx v) id 0x07) ∧
      (x % 2 = 1 → ¬refused lk → SlotGets s (.partitionRegisterWrite id idx v) lk { s.slot lk with slock := true }) ∧
      (x % 2 = 0 → (s.slot lk).busy = true → TrapsAt s (.partitionRegisterWrite id idx v) id 0x08) ∧
      (x % 2 = 0 → (s.slot lk).busy = false →
        SlotGets s (.partitionRegisterWrite id idx v) lk { s.slot lk with slock := false })) ∧
    (∀ w, s.readTtdata id = some w → ∃ t : State, exec (.ttdataRead id d) s = .next t ∧ t.regOf id d = (if d = 0 then 0 else w) ∧
      OtherEntries s t (fun e => d ≠ 0 ∧ e = s.entryOf id d) ∧ t = { s with regs := t.regs }) ∧
    (s.readTtdata id = none → TrapsAt s (.ttdataRead id d) id 0x01) ∧
    (∀ ids slots, sl.wait = .inval ids slots →
      (∀ k ∈ ids, (∀ a ∈ s.accesses, a.id ≠ k) ∧ (∀ p ∈ c.pulls, p.id ≠ k) ∧
        ∀ j, j < 24 → ∀ q ∈ (s.core (32 * lin + j)).gq, q.started = true → q.id ≠ k) →
      (∀ k ∈ slots, (∀ l ∈ c.lwaits, l.slot ≠ k) ∧ (∀ b ∈ c.bwaits, b.slot ≠ k) ∧ ∀ z, (s.slot k).wait ≠ .sweep z) →
      SlotGets s (.invalidationComplete id) id (sl.advance 4)) ∧
    (2 ^ 17 ≤ v48 ∨ 24 ≤ idx / 16 → TrapsAt s (.slotTableEntryWrite id idx v) id 0x01) ∧
    (v48 < 2 ^ 17 → idx / 16 < 24 → CoreGets s (.slotTableEntryWrite id idx v) (32 * lin + idx / 16)
      { s.core (32 * lin + idx / 16) with
        slotTable := mapPut (s.core (32 * lin + idx / 16)).slotTable (idx % 16) (BitVec.ofNat 64 v48) }) ∧
    (v48 < 16 → CreelGets s (.taskParameterWrite id 0 v) lin { c with params := { c.params with age := v48 } }) ∧
    (16 ≤ v48 → TrapsAt s (.taskParameterWrite id 0 v) id 0x01) ∧
    (1024 ≤ v48 → v48 < 2 ^ 20 → CreelGets s (.taskParameterWrite id 1 v) lin { c with params := { c.params with bint := v48 } }) ∧
    (v48 < 1024 ∨ 2 ^ 20 ≤ v48 → TrapsAt s (.taskParameterWrite id 1 v) id 0x01) ∧
    (v48 ≤ 256 → CreelGets s (.taskParameterWrite id 2 v) lin { c with params := { c.params with lthr := v48 } }) ∧
    (256 < v48 → TrapsAt s (.taskParameterWrite id 2 v) id 0x01) ∧
    (v48 < 32 → CreelGets s (.taskParameterWrite id 3 v) lin { c with params := { c.params with lcfg := v48 } }) ∧
    (32 ≤ v48 → TrapsAt s (.taskParameterWrite id 3 v) id 0x01) ∧
    (10 ≤ v48 → v48 ≤ 40 → CreelGets s (.taskParameterWrite id 4 v) lin { c with params := { c.params with jwd := v48 } }) ∧
    (v48 < 10 ∨ 40 < v48 → TrapsAt s (.taskParameterWrite id 4 v) id 0x01) ∧
    (5 ≤ idx → TrapsAt s (.taskParameterWrite id idx v) id 0x01) ∧
    (slottabBad x = true → TrapsAt s (.slottabSelect id v) id 0x01) ∧
    (slottabBad x = false → CoreGets s (.slottabSelect id v) (id / 16)
      { s.core (id / 16) with slottab := BitVec.ofNat 64 (x / 2 ^ 48 % 2 ^ 15 * 2 ^ 48) }) ∧
    (sl.world.toNat = x % 64 ∨ (worldOf (s.module (lin / 128)) sl.world.toNat).prot = false →
      SlotGets s (.worldWrite id v) id { sl with world := BitVec.ofNat 6 x }) ∧
    SlotGets s (.registerWrite id 0x010 v) id { sl with uvec := BitVec.ofNat 48 (x / 4 * 4) } ∧
    SlotGets s (.registerWrite id 0x020 v) id { sl with fa := v &&& ~~~0xFE00#64 } ∧
    SlotGets s (.registerWrite id 0x180 v) id { sl with ttidx := BitVec.ofNat 16 x } ∧
    SlotGets s (.registerWrite id 0x101 v) id { sl with sepc := BitVec.ofNat 47 (x / 4 * 4) } ∧
    SlotGets s (.registerWrite id 0x103 v) id { sl with stval := v } ∧
    CreelGets s (.registerWrite id 0x100 v) lin { c with svec := BitVec.ofNat 48 (x / 4 * 4) } ∧
    SlotGets s (.registerWrite id 0x000 v) id sl ∧
    PortGets s (.registerWrite n 0x10000 v) n { s.port n with chsel := BitVec.ofNat 10 x } ∧
    PortGets s (.registerWrite n 0x10100 v) n
      { s.port n with hwin := BitVec.ofNat 64 (x / 2 ^ 23 * 2 ^ 23 + x / 2 % 2 ^ 6 * 2) } ∧
    (∀ i, i < 4 → exec (.registerWrite n (0x10008 + 8 * i) v) s = exec (.contextWordWrite n (s.port n).chsel.toNat i v) s) ∧
    (∃ t : State, exec (.registerWrite n 0x10000 v) s = .next t ∧ t.bar0Read n 0 = x % 2 ^ 10 ∧
      ∀ i, i < 3 → t.bar0Read n (8 + 8 * i) =
        ([(s.ctxOf n (x % 2 ^ 10)).w0, (s.ctxOf n (x % 2 ^ 10)).w1, (s.ctxOf n (x % 2 ^ 10)).w2].getD i 0).toNat) ∧
    (∃ t : State, exec (.registerWrite n 0x10100 v) s = .next t ∧ t.bar0Read n 0x100 = x / 2 ^ 23 * 2 ^ 23 + x / 2 % 2 ^ 6 * 2) ∧
    (∀ off, 0x2000 ≤ off → off < 0x3000 → exec (.registerWrite n (0x10000 + off) v) s = .next s)
/-! ### Host ports (R21, R295, R296, R298 to R302, R381 to R384) -/

/-- R296, R298, R384: what a host write does to a channel context; R298: a poll of a context reads HSEQ, then, a word in a step, the
record of number CONS while CONS lies before HSEQ and fewer than 16 records are unfinished, and publishes CONS; it stops the context when HSEQ lies
below CONS or the link is down; R299, R300: launch, stage and marker records finish. That the agent goes on with the HSEQ that it has read is the
model's choice (log 37). -/
def Obligations.ChannelEvents : Prop :=
  ∀ (s : State) (ag h : Nat) (v : BitVec 64) (r : HRec),
    let m := ag / 2
    let k := ag % 2
    let lin := 128 * m + 64 * k
    let c := s.ctxOf ag h
    let a := s.port ag
    let x := v.toNat
    let c3 := { c with irqthr := BitVec.ofNat 32 (x / 2 ^ 32), vec := BitVec.ofNat 10 (x / 2 ^ 12), err := c.err && !x.testBit 1 }
    let root := s.root lin c.asid true
    let world := root / 2 ^ 58
    let enables := fun (i : Instr) =>
      (root % 2 = 1 → (worldOf (s.module m) world).hostVis = true → CtxGets s i ag h { c3 with en := true, world := world }) ∧
      (root % 2 = 0 ∨ (worldOf (s.module m) world).hostVis = false → PortGets s i ag (withErr a h { c3 with en := false, hseq := none, part := [] }))
    let hseq := s.hostRead ag c.hseqa 8
    let behind := fun (cons q : Nat) => cons < q ∧ cons - c.finished < 16
    let polled := { a with polled := h }
    let word := s.hostRead ag (c.rbase + c.cons % 2 ^ c.rsize * 128 + 8 * c.part.length) 8
    let calm := Memory.wf s.mem = true ∧ NoBarriers s lin ∧ ag < 8192 ∧ h < 1024 ∧ NoSoft s (lin * 2 ^ 45 + 0x20000000 + 256 * h) 256
    let one := c.recs = [r] ∧ r.handled = false
    let stops := fun (code : Nat) => ∃ t : State, exec (.channelPoll ag h) s = .next t ∧ (t.ctxOf ag h).en = false ∧
      (t.ctxOf ag h).err = true ∧ (t.ctxOf ag h).cons = c.cons ∧ Logs s t lin 0x0B 0x3 code 0 ∧ SameMemory s t ∧ t.slots = s.slots
    let w := fun (i : Nat) => r.word i
    let g := lin * 2 ^ 45 + 0x20000000 + w 2
    (c.en = false →
      CtxGets s (.contextWordWrite ag h 0 v) ag h { c with w0 := BitVec.ofNat 64 (x / 2 ^ 12 * 2 ^ 12 + x % 2 ^ 5) } ∧
      CtxGets s (.contextWordWrite ag h 1 v) ag h { c with w1 := BitVec.ofNat 64 (x / 2 ^ 3 * 2 ^ 3) } ∧
      CtxGets s (.contextWordWrite ag h 2 v) ag h { c with w2 := BitVec.ofNat 64 (x / 2 % 2 ^ 29 * 2) }) ∧
    (c.en = true → c.err = false → ∀ n, n < 3 → PortGets s (.contextWordWrite ag h n v) ag (withErr a h c)) ∧
    (c.en = true → c.err = true → ∀ n, n < 3 → exec (.contextWordWrite ag h n v) s = .next s) ∧
    (x % 2 = 0 → CtxGets s (.contextWordWrite ag h 3 v) ag h { c3 with en := false, hseq := none, part := [] }) ∧
    (x % 2 = 1 → enables (.contextWordWrite ag h 3 v)) ∧
    enables (.contextEnable ag h v) ∧
    CtxGets s (.errClear ag h) ag h { c with err := false } ∧
    (c.en = true → a.link = false → stops 0x04) ∧
    (c.en = true → a.link = true → c.hseq = none → hseq < c.cons → stops 0x02) ∧
    (c.en = true → a.link = true → c.hseq = none → c.cons ≤ hseq →
      (behind c.cons hseq → PortGets s (.channelPoll ag h) ag (polled.putCtx h { c with hseq := some hseq })) ∧
      (¬behind c.cons hseq → PortGets s (.channelPoll ag h) ag polled)) ∧
    (∀ q, c.en = true → a.link = true → c.hseq = some q →
      (c.part.length < 15 → PortGets s (.channelPoll ag h) ag (polled.putCtx h { c with part := c.part ++ [word] })) ∧
      (c.part.length = 15 → calm → ∃ t : State, exec (.channelPoll ag h) s = .next t ∧ (t.port ag).polled = h ∧
        t.ctxOf ag h = { c with
          cons := c.cons + 1, recs := c.recs ++ [⟨c.cons, c.part ++ [word], 0, false, 0, 0⟩], part := [],
          hseq := if behind (c.cons + 1) q then some q else none } ∧
        t.agentRead m k (256 * h) = (c.cons + 1) % 2 ^ 64 ∧ t.hostMem = s.hostMem ∧ t.regs = s.regs ∧ t.slots = s.slots)) ∧
    (calm → one → r.kind = 1 →
      (∀ code detail, launchBad r m = some (code, detail) → Finishes s (.launchRecord ag h) ag h r code detail) ∧
      (launchBad r m = none → r.placed = r.count → Finishes s (.launchRecord ag h) ag h r 0 0)) ∧
    (calm → one → r.kind = 2 →
      (∀ code detail, stageBad r c = some (code, detail) → Finishes s (.stageRecord ag h) ag h r code detail) ∧
      (stageBad r c = none → 256 * h + 256 ≤ w 2 ∨ w 2 + w 3 ≤ 256 * h →
        (a.link = true → Finishes s (.stageRecord ag h) ag h r 0 0 ∧ ∀ t : State, exec (.stageRecord ag h) s = .next t → ∀ i, i < w 3 →
          t.byteAs (s.key lin c.world) (g + i) = memGet s.hostMem (ag * 2 ^ 64 + w 1 % 2 ^ 64 + i)) ∧
        (a.link = false → Finishes s (.stageRecord ag h) ag h r 4 0))) ∧
    (calm → one → r.kind = 3 →
      ((∀ i, 1 ≤ i → i < 16 → w i = 0) → Finishes s (.markerRecord ag h) ag h r 0 0) ∧
      (∀ i, 1 ≤ i → i < 16 → w i ≠ 0 → (∀ j, 1 ≤ j → j < i → w j = 0) → Finishes s (.markerRecord ag h) ag h r 1 i)) ∧
    (calm → one → 3 < r.kind ∨ r.kind = 0 → Finishes s (.markerRecord ag h) ag h r 3 0)

/-- R295, R301, R302: host reads of agent memory and through the window, and host writes. R381 to R383: the loss and the return of a host's link,
and a host read that times out. R355: a host read that meets an uncorrectable word. R390: a module without firmware answers BAR0 alone. That a function
level reset keeps the link is the model's choice (log 37), and the code and the detail of the records of R302 and R295 are free (log 2). -/
def Obligations.HostEvents : Prop :=
  ∀ (s : State) (ag h addr n : Nat) (r : HRec),
    let m := ag / 2
    let k := ag % 2
    let lin := 128 * m + 64 * k
    let a := s.port ag
    let g := lin * 2 ^ 45 + 0x20000000 + addr
    let hw := a.hwin.toNat
    let src := hw / 2 ^ 45 % 2 ^ 12 * 128 + hw / 2 ^ 38 % 2 ^ 7
    let off := hw / 2 ^ 23 % 2 ^ 15 * 2 ^ 30 + addr
    let up := (s.module m).active ≠ 3
    let sent := (a.ctxs.filter fun x => x.2.err).map fun x => x.2.vec.toNat
    let read := fun (i : Instr) (v : Nat) => PortGets s i ag { a with readData := v }
    let fails := fun (i : Instr) => ∃ t : State, exec i s = .next t ∧ (t.port ag).readData = 2 ^ (8 * n) - 1 ∧
      (∃ code detail, code < 256 ∧ Logs s t lin 0x0B 0x3 code detail) ∧ SameMemory s t ∧ t.slots = s.slots
    let lost := fun (i : Instr) (link : Bool) => ∃ t : State, exec i s = .next t ∧ Logs s t lin 0x0B 0x3 0x05 0 ∧
      (t.port ag).link = link ∧ (t.port ag).hwin.toNat = hw % 2 ^ 63 ∧
      (∀ j, j < 1024 → (t.ctxOf ag j).en = false ∧ (t.ctxOf ag j).err = true ∧ (t.ctxOf ag j).cons = (s.ctxOf ag j).cons) ∧
      SameMemory s t ∧ t.slots = s.slots
    ((s.module m).active = 3 → exec (.hostReadBar1 ag addr n) s = .next s ∧ exec (.hostReadBar2 ag addr n) s = .next s ∧
      ∀ bar, exec (.hostWriteDiscard ag bar addr) s = .next s) ∧
    (up → addr + n ≤ 2 ^ 23 → Clean s g n → read (.hostReadBar1 ag addr n)
      (bytesNat ((List.range n).map fun i => s.byteAs (s.key lin (a.windowWorld (addr + i))) (g + i)))) ∧
    (∀ i, up → addr + n ≤ 2 ^ 23 → s.firstBad g n = some i → ag < 8192 → (s.creel lin).lwaits = [] →
      ∃ t : State, exec (.hostReadBar1 ag addr n) s = .next t ∧ (t.port ag).readData = 2 ^ (8 * n) - 1 ∧ Logs s t lin 0x09 0x4 0x09 1 ∧
        SameMemory s t ∧ t.slots = s.slots) ∧
    (up → 2 ^ 23 < addr + n → fails (.hostReadBar1 ag addr n)) ∧
    (up → s.bar2Bad ag addr n = true → fails (.hostReadBar2 ag addr n)) ∧
    (up → s.bar2Bad ag addr n = false → off + n ≤ 0xC00000 → Clean s (src * 2 ^ 45 + off) n → read (.hostReadBar2 ag addr n)
      (bytesNat ((List.range n).map fun i => s.byteAs (s.key (128 * m) (hw / 2 ^ 57 % 2 ^ 6)) (src * 2 ^ 45 + off + i)))) ∧
    (∀ bar, up → ∃ t : State, exec (.hostWriteDiscard ag bar addr) s = .next t ∧ (∃ code detail, code < 256 ∧ Logs s t lin 0x0B 0x3 code detail) ∧
      SameMemory s t ∧ t.slots = s.slots ∧ t.mods = s.mods) ∧
    lost (.hostLinkDown ag) false ∧ lost (.functionLevelReset ag) a.link ∧
    (a.link = false → PortGets s (.hostLinkUp ag) ag { a with link := true, msix := sent.reverse ++ a.msix }) ∧
    ((∀ x ∈ (s.ctxOf ag h).recs, x.handled = true) → ∃ t : State, exec (.hostReadTimeout ag h) s = .next t ∧
      (t.ctxOf ag h).en = false ∧ (t.ctxOf ag h).err = true ∧ Logs s t lin 0x0B 0x3 0x04 0 ∧ SameMemory s t ∧ t.slots = s.slots) ∧
    ((s.ctxOf ag h).recs = [r] → r.handled = false → r.kind = 1 → launchBad r m = none → r.placed < r.count → h < 1024 → ag < 8192 →
      Memory.wf s.mem = true → NoBarriers s lin → NoSoft s (lin * 2 ^ 45 + 0x20000000 + 256 * h) 256 →
      ∃ t : State, exec (.hostReadTimeout ag h) s = .next t ∧ (t.ctxOf ag h).en = false ∧ (t.ctxOf ag h).err = true ∧
        (t.ctxOf ag h).recs = [] ∧ (t.ctxOf ag h).finished = r.num + 1 ∧
        t.agentRead m k (256 * h + 16 + 8 * (r.num % 16)) =
          (r.num % 2 ^ 32 * 2 ^ 32 + (if r.placed = 0 then 0 else 1) * 2 ^ 8 + 4) % 2 ^ 64)
/-! ### The task unit (R22 to R27, R33, R274, R281 to R284, R297) -/

/-- R22, R297: an agent places a packet in its creel's inbox, and the task unit pulls it; R23, R24, R34: it accepts or refuses the packet; R26, R27,
R29: it places a packet and starts every member. R274, R281 to R284: aging, offers, claims, grants, the pull of a granted packet, its acceptance, and
the completions that the home takes up; R251: what they spend. R355: a packet whose words cannot be read is dropped. The model's own readings are that
an inbox delivers one packet at a time, that STAGE is read when its pull issues, that a levelled packet has launch number 0, and that one whose pull
failed is recorded with code 0x05 and detail 5 (log 34); that the task unit learns of a sequence word by the answer of a watch, which spends a sector,
that it makes no offer while a packet that it has granted is not pulled, and that it takes nothing from an uncorrectable word (log 57). -/
def Obligations.TaskEvents : Prop :=
  ∀ (s : State) (ag h lin k nb : Nat) (r : HRec) (cs : List (Nat × Nat)) (passed : List Nat) (p : Packet) (o : Offer) (q : Claim),
    let am := ag / 2
    let ak := ag % 2
    let al := 128 * am + 64 * ak
    let ctx := s.ctxOf ag h
    let pw := packetWords (s.hostRead ag (r.word 1 + 128 * r.placed) 128)
    let cr := pw.getD 12 0 / 2 ^ 24 % 2 ^ 7
    let np := mapGet (s.port ag).placed 0 cr
    let slotOff := 0x100000 + 8192 * cr + 128 * (np % 64)
    let c := s.creel lin
    let box := c.inbox k
    let boxGpa := agentGpa (lin / 128) k (0x100000 + 8192 * (lin % 128) + 128 * (box.accepted % 64))
    let note := mapGet (s.agent (lin / 128) k).tenants 0 (lin % 128 * 2 ^ 64 + box.accepted)
    let bw := packetWords (s.readAs (s.key (agentLin (lin / 128) k) 0) boxGpa 128)
    let root := s.root lin (note / 2 ^ 32 % 2 ^ 9) false
    let next : Packet := ⟨bw, note / 2 ^ 41, note / 2 ^ 32 % 2 ^ 9, note % 2 ^ 32, lin, false, bw.getD 0 0 / 2 ^ 53 % 4, 0, 0, c.accepted, 0, 0,
      none⟩
    let taken := fun (t : State) => (t.creel lin).inbox k = { box with accepted := box.accepted + 1, due := 0 } ∧
      t.sysRead lin (0xBFA000 + 8 * k) = (box.accepted + 1) % 2 ^ 64 ∧ t.regs = s.regs ∧ t.slots = s.slots
    let calm := Memory.wf s.mem = true ∧ NoBarriers s lin ∧ lin < 2 ^ 19 ∧ s.soft = []
    let own := c.residents.filter fun x => !x.2.held && x.2.levelled.isNone
    let spent := mapPut c.spent 3 (mapGet c.spent 0 3 + 1)
    let seq := s.sysRead lin 0xBF8000 % 2 ^ 32 * 2 ^ 32
    let grants := fun (v : Nat) (res away : SMap Packet) => ∃ t : State, exec (.grantRound lin) s = .next t ∧
      t.sysRead lin (0xBF8208 + 8 * o.item) = seq + v ∧ t.sysRead lin 0xBF8200 = (s.sysRead lin 0xBF8200 + 1) % 2 ^ 64 ∧
      t.creel lin = { c with residents := res, away := away, offers := [{ o with settled := true }], grantAt := c.grantAt + 256,
                             claimsRead := [] } ∧
      t.regs = s.regs ∧ t.slots = s.slots
    (ctx.recs = [r] → r.handled = false → r.kind = 1 → launchBad r am = none → r.placed < r.count → ag < 8192 → Memory.wf s.mem = true →
      NoBarriers s al → s.soft = [] →
      ((s.port ag).link = true → np - s.inboxCount am ak cr < 64 →
        s.badIn ((128 * am + cr) * 2 ^ 45 + 0xBFA000 + 8 * ak) 8 = false → ∃ t : State, exec (.inboxPlace ag h) s = .next t ∧
        (∀ i, i < 16 → t.readAs (s.key al 0) (agentGpa am ak slotOff + 8 * i) 8 = pw.getD i 0) ∧
        t.agentRead am ak (0x40000 + 8 * cr) = (np + 1) % 2 ^ 64 ∧ mapGet (t.port ag).placed 0 cr = np + 1 ∧
        mapGet (t.port ag).tenants 0 (cr * 2 ^ 64 + np) = ctx.world * 2 ^ 41 + ctx.asid * 2 ^ 32 + r.lnum ∧
        (t.ctxOf ag h).recs = [{ r with placed := r.placed + 1 }] ∧ t.regs = s.regs ∧ t.slots = s.slots) ∧
      ((s.port ag).link = false → h < 1024 → Finishes s (.inboxPlace ag h) ag h r 4 (if r.placed = 0 then 0 else 1))) ∧
    (∀ v, s.inboxOpen lin k = false → s.inboxNews lin k = some v → s.soft = [] →
      CreelGets s (.inboxPull lin k) lin { c with spent := spent, heard := mapPut c.heard k v }) ∧
    (s.inboxOpen lin k = true → ∃ (t : State) (due : Nat), exec (.inboxPull lin k) s = .next t ∧ s.cycle < due ∧
      t.creel lin = { c with spent := spent,
                             inboxes := mapPut c.inboxes k { box with pulled := box.pulled + 1, due := due } } ∧
      (∀ j, j ≠ lin → t.creel j = s.creel j) ∧ t = { s with creels := t.creels, fresh := t.fresh }) ∧
    (calm → k < 2 → box.due ≠ 0 → box.due ≤ s.cycle → ∀ e, c.freeEntry = some e →
      (∀ i, s.firstBad boxGpa 128 = some i → ∃ t : State, exec (.inboxPacketAccept lin k) s = .next t ∧ taken t ∧
        (t.creel lin).residents = c.residents ∧ Logs s t lin 0x06 0x3 0x04 0) ∧
      (s.firstBad boxGpa 128 = none → (packetBad bw = none → root % 2 = 1 → root / 2 ^ 58 = note / 2 ^ 41 → ∃ t : State, exec (.inboxPacketAccept lin k) s = .next t ∧
        taken t ∧ (t.creel lin).residents = mapPut c.residents e next ∧ (t.creel lin).accepted = c.accepted + 1) ∧
      (packetBad bw = none → root % 2 = 0 ∨ root / 2 ^ 58 ≠ note / 2 ^ 41 → bw.getD 13 0 = 0 →
        ∃ t : State, exec (.inboxPacketAccept lin k) s = .next t ∧ taken t ∧ (t.creel lin).residents = c.residents ∧
          Logs s t lin 0x06 0x3 0x02 (note / 2 ^ 32 % 2 ^ 9)) ∧
      (∀ i, packetBad bw = some i → bw.getD 13 0 = 0 → ∃ t : State, exec (.inboxPacketAccept lin k) s = .next t ∧ taken t ∧
        (t.creel lin).residents = c.residents ∧ Logs s t lin 0x06 0x3 0x01 i))) ∧
    (∀ idx, s.placeable lin = some (k, p, idx, cs, passed) → idx < 16 → (cs.map (·.1)).Nodup →
      (∀ x ∈ cs, x.1 < 24 ∧ x.2 + 8 * p.wsize ≤ 2048) → ∃ t : State, exec (.placePacket lin) s = .next t ∧
        (t.creel lin).residents = (mapDel c.residents k).map (fun x =>
          (x.1, if x.1 ∈ passed then { x.2 with passed := x.2.passed + 1 } else x.2)) ∧
        (t.creel lin).placeAt = s.cycle + 4 ∧ SameMemory s t ∧
        ∀ i core base, cs[i]? = some (core, base) →
          let id := 512 * lin + 16 * core + idx
          let sl := t.slot id
          sl.busy = true ∧ sl.base = base ∧ sl.limit = base + 8 * p.wsize ∧ sl.pc = p.entry ∧ sl.memb = i ∧ sl.width = p.width ∧
            sl.world = BitVec.ofNat 6 p.world ∧ sl.asid = BitVec.ofNat 9 p.asid ∧ sl.mode = false ∧ sl.uvec = 0 ∧ sl.upend = 0 ∧
            sl.uih = false ∧ sl.coil = none ∧ sl.watches = [] ∧ sl.fa = BitVec.ofNat 64 (p.word 1) ∧
            sl.fb = BitVec.ofNat 64 (p.word 2) ∧ sl.fc = BitVec.ofNat 64 (p.word 3) ∧ sl.sa = BitVec.ofNat 47 (p.word 4) ∧
            sl.sb = BitVec.ofNat 47 (p.word 5) ∧
            ∀ n, n < 8 * p.wsize → t.presOf id n = true ∧
              t.regOf id n = if 3 ≤ n ∧ n < 9 then BitVec.ofNat 64 (p.word (n + 3)) else 0) ∧
    (s.intervalDue lin = true → own.length ≤ c.params.lthr ∨ someNeighbour lin c.params.lcfg = false ∨ s.stageHeld lin = true →
      CreelGets s (.balancingInterval lin) lin { c with
        intervalAt := s.cycle + 1, claimed := 0, grantAt := 0, claimsRead := [], offers := [],
        residents := c.residents.map fun x => (x.1, x.2.aged c.params.age) }) ∧
    (s.intervalDue lin = true → c.params.lthr < own.length → someNeighbour lin c.params.lcfg = true → s.stageHeld lin = false → calm →
      ∃ t : State, exec (.balancingInterval lin) s = .next t ∧ t.sysRead lin 0xBF8000 = (s.sysRead lin 0xBF8000 + 1) % 2 ^ 64 ∧
        (t.creel lin).grantAt = s.cycle + 256 ∧ (t.creel lin).claimed = 0 ∧
        (t.creel lin).residents = c.residents.map (fun x => (x.1, x.2.aged c.params.age)) ∧ t.regs = s.regs ∧ t.slots = s.slots) ∧
    (∀ x w v, neighbour lin nb = some x → s.mayClaim lin nb = true → s.soft = [] → s.claimNews lin nb = some (w, v) →
      CreelGets s (.levellingClaim lin nb) lin { c with spent := spent, heard := mapPut c.heard w.key v }) ∧
    (∀ x, nb < 4 → neighbour lin nb = some x → s.mayClaim lin nb = true → s.soft = [] → s.claimNews lin nb = none →
      let ov := s.sysRead x 0xBF8000
      let unread := s.offerUnread lin nb x
      let items := s.claimItems lin nb x c.claimed (s.openItems lin nb x)
      let held := c.claims.filter fun j => j.dir == nb && j.oseq == ov && j.due == 0 && j.seen == 0
      let c' : Creel := { c with
        spent := if unread.isSome then spent else c.spent,
        oseqSeen := mapPut c.oseqSeen nb (2 * ov + unread.getD 1), claimed := c.claimed + items.length,
        claims := (c.claims.filter fun j => j.dir != nb || j.due != 0 || j.oseq == ov) ++
          items.map fun i => ⟨nb, ov, i, s.sysRead x (0xBF8010 + 8 * i), 0, [], 0, 0⟩ }
      (items = [] → CreelGets s (.levellingClaim lin nb) lin c') ∧
      (items ≠ [] → calm → ∃ t : State, exec (.levellingClaim lin nb) s = .next t ∧ t.creel lin = c' ∧
        t.sysRead lin (0xBF8108 + 8 * nb) =
          (ov % 2 ^ 32 * 2 ^ 32 + (held.map (·.item) ++ items).foldl (fun acc i => acc ||| 2 ^ i) 0) % 2 ^ 64 ∧
        t.sysRead lin 0xBF8100 = (s.sysRead lin 0xBF8100 + 1) % 2 ^ 64 ∧ t.regs = s.regs ∧ t.slots = s.slots)) ∧
    (∀ x i, neighbour lin nb = some x → i ∈ s.claimItems lin nb x c.claimed (s.openItems lin nb x) →
      let w := s.sysRead x (0xBF8010 + 8 * i)
      let root := s.root lin (w / 2 ^ 15 % 2 ^ 9) false
      w / 2 ^ 10 % 2 ^ 5 ≤ s.idleCores lin (w / 2 ^ 24 % 2 ^ 6) (w / 2 ^ 15 % 2 ^ 9) ∧ root % 2 = 1 ∧
        root / 2 ^ 58 % 2 ^ 6 = w / 2 ^ 24 % 2 ^ 6 ∧
        mapGet c.taken 0 nb - s.heardOf lin (.dack nb) < 32 ∧ c.claimed < 4 ∧ s.badIn (x * 2 ^ 45 + 0xBF8010 + 8 * i) 8 = false) ∧
    (∀ d y, c.grantAt ≠ 0 → c.grantAt ≤ s.cycle → s.claimUnread lin = some d → neighbour lin d = some y → s.budgetOpen lin 3 = true →
      s.soft = [] → CreelGets s (.grantRound lin) lin { c with
        spent := spent,
        claimsRead := mapPut c.claimsRead d
          (if s.badIn (y * 2 ^ 45 + 0xBF8108 + 8 * opposite d) 8 = true then 0 else s.sysRead y (0xBF8108 + 8 * opposite d)) }) ∧
    (calm → c.grantAt ≠ 0 → c.grantAt ≤ s.cycle → s.claimUnread lin = none → c.offers = [o] → o.settled = false → o.item < 16 →
      (mapFind c.residents o.entry = none → grants 256 c.residents c.away) ∧
      (mapFind c.residents o.entry = some p → p.seq ≠ o.serial → grants 256 c.residents c.away) ∧
      (mapFind c.residents o.entry = some p → p.seq = o.serial → s.claimant lin o.item = none →
        CreelGets s (.grantRound lin) lin { c with grantAt := c.grantAt + 256, claimsRead := [] }) ∧
      (∀ y, mapFind c.residents o.entry = some p → p.seq = o.serial → s.claimant lin o.item = some y →
        grants (128 + y % 128) (mapDel c.residents o.entry) (mapPut c.away (p.seq % 2 ^ 32) p))) ∧
    (∀ x, neighbour lin nb = some x → s.granted lin nb = some q → s.soft = [] →
      let g := x * 2 ^ 45 + 0xBF9000 + 128 * q.item
      let bad := (s.firstBad g 128).isSome
      (q.seen = 0 → CreelGets s (.levelledStagePull lin nb) lin { c with
        spent := spent,
        claims := c.claims.map fun j => if j = q then { q with seen := s.sysRead x (0xBF8208 + 8 * q.item) } else j }) ∧
      (q.seen ≠ 0 → q.seen = q.oseq % 2 ^ 32 * 2 ^ 32 + 128 + lin % 128 ∧
       ∃ (t : State) (due : Nat), exec (.levelledStagePull lin nb) s = .next t ∧ s.cycle < due ∧
        t.creel lin = { c with
          spent := spent,
          claims := c.claims.map fun j =>
            if j = q then { q with due := due, words := if bad then [] else packetWords (s.readAs (s.key x 0) g 128),
                                   status := if bad then 5 else 0 } else j } ∧
        (∀ j, j ≠ lin → t.creel j = s.creel j) ∧ t = { s with creels := t.creels, fresh := t.fresh })) ∧
    (∀ x, neighbour lin nb = some x → s.arrived lin nb = some q →
      let serial := q.word / 2 ^ 32 % 2 ^ 32
      let c' : Creel := { c with
        claims := c.claims.map fun j => if j = q then { q with due := 0, words := [], status := 0, seen := 1 } else j,
        taken := mapPut c.taken nb (mapGet c.taken 0 nb + 1) }
      (∀ e, q.status = 0 → c.freeEntry = some e → CreelGets s (.levelledAccept lin nb) lin { c' with
        residents := mapPut c.residents e ⟨q.words, q.word / 2 ^ 24 % 2 ^ 6, q.word / 2 ^ 15 % 2 ^ 9, 0, x, false, q.word / 2 ^ 8 % 4, 0, 0,
          c.accepted, 0, 0, some (serial, nb)⟩,
        accepted := c.accepted + 1 }) ∧
      (q.status ≠ 0 → calm → nb < 4 → ∃ t : State, exec (.levelledAccept lin nb) s = .next t ∧ t.creel lin = c' ∧
        let base := 0xBF8400 + 0x200 * nb
        let n := s.sysRead lin base
        t.sysRead lin (base + 0x10 + 8 * (n % 32)) = 2 ^ 63 + serial ∧ t.sysRead lin base = (n + 1) % 2 ^ 64)) ∧
    (∀ y v, neighbour lin nb = some y → s.soft = [] → s.doneNews lin nb = some v →
      CreelGets s (.levelledCompletionUpdate lin nb) lin { c with spent := spent, heard := mapPut c.heard (12 + nb) v }) ∧
    (∀ y, neighbour lin nb = some y → s.soft = [] → s.budgetOpen lin 3 = true →
      let dack := 0xBF8408 + 0x200 * nb
      let ack := s.sysRead lin dack
      let ring := 0xBF8400 + 0x200 * opposite nb
      let w := s.sysRead y (ring + 0x10 + 8 * (ack % 32))
      let s0 := s.spend lin 3
      let s1 := s0.updCreel lin fun c => { c with away := mapDel c.away (w % 2 ^ 32) }
      s.heardOf lin (.dseq nb) = ack + 1 → s.firstBad (y * 2 ^ 45 + (ring + 0x10 + 8 * (ack % 32))) 8 = none →
      (mapFind c.away (w % 2 ^ 32) = none → exec (.levelledCompletionUpdate lin nb) s = .next (s0.sysWrite lin dack (ack + 1))) ∧
      (mapFind c.away (w % 2 ^ 32) = some p → w < 2 ^ 63 → exec (.levelledCompletionUpdate lin nb) s =
        .next ((s1.updateDone lin false (p.word 13) (p.packetRec 0 0)).sysWrite lin dack (ack + 1))) ∧
      (mapFind c.away (w % 2 ^ 32) = some p → 2 ^ 63 ≤ w → exec (.levelledCompletionUpdate lin nb) s =
        .next ((s1.rejectPacket lin p 0x05 5).sysWrite lin dack (ack + 1))))

/-! ### Slots and memory between instructions (R35 to R39, R43, R48, R51, R76, R80, R99, R168, R180, R279, R285, R287, R328) -/

/-- R36, R180, R279, R285, R287: counters that end and waits that they end. R287, R38, R51: the supervisor timer trap, the delivery of a user
interrupt and the join watchdog. R328: a terminating slot whose work is done ends. R43, R48: a word is delivered to the attached members, and a
line is filled into a strand's instruction cache. R69 to R72: what a walk's root entry and each entry of its tables in creel SRAM come to: a further
table, a translation, or a fault. R76, R358: what the walk then does, and what each requester does. R80, R99, R168: sector fills, replies and
completions. That the front end fills at once and fetches with the pilot's mode, and that FENCE.I ends a run of deliveries as a branch does, is the
model's reading (log 26); that an entry of a walk is read in a step of its own is log 8; and that a reader-cache line takes its tag where the owner's port
reads the data is log 30. -/
def Obligations.SlotEvents : Prop :=
  ∀ (s s1 s2 : State) (id lin wv idx : Nat) (e : Tlb) (p : Place) (a : Access) (q : Part),
    let sl := s.slot id
    let c := s.creel (id / 512)
    let pend := sl.upend &&& sl.umask
    let k := if pend.getLsbD 0 then 0 else if pend.getLsbD 1 then 1 else if pend.getLsbD 2 then 2 else 3
    let here := match sl.wait with | .sleep _ => (sl.advance 4).pc | _ => sl.pc
    let s0 := s.waitOf id .none
    let key := s.key (a.slot / 512) a.world
    let rest := s.accesses.filter fun b => b.id != a.id
    (∀ b, sl.wait = .sleep b → b ≠ 0 → b ≤ s.cycle → SlotGets s (.sleepExpire id) id (sl.advance 4)) ∧
    (∀ n, sl.wait = .pause n → n ≤ 1 → SlotGets s (.pauseEnd id) id (sl.advance 4)) ∧
    (sl.utimer ≠ 0 → sl.utimer ≤ s.cycle → SlotGets s (.utimerExpire id) id { sl with
      utimer := 0, upend := sl.upend ||| 1, ctxWait := sl.ctxWait.map fun x => (x.1, x.2 ||| 1) }) ∧
    (sl.stimer ≠ 0 → sl.stimer ≤ s.cycle → SlotGets s (.stimerExpire id) id { sl with stimer := 0, stimerPend := true }) ∧
    (∀ b w, sl.wait = .barw b → b ≠ 0 → b ≤ s.cycle → c.bwaits.find? (·.slot == id) = some w →
      ∃ t : State, exec (.barwBoundExpire id) s = .next t ∧ t.regOf id w.reg = 0 ∧ t.slot id = sl.advance 4 ∧ OtherSlots s t id ∧
        OtherEntries s t (fun n => w.reg ≠ 0 ∧ n = s.entryOf id w.reg) ∧
        (t.creel (id / 512)).bwaits = c.bwaits.filter (fun b => b.slot != id) ∧ SameMemory s t) ∧
    (sl.busy = true → sl.terminating = false → sl.stimerPend = true → sl.mode = false → sl.wait.timerAbandons = true →
      exec (.supervisorTimerTrap id) s =
        .next ((s.updSlot id fun sl => { sl with stimerPend := false }).takeTrap id sl.pc ⟨0x20, 0, false⟩)) ∧
    (sl.busy = true → sl.terminating = false → sl.uih = false → sl.uvec ≠ 0 → sl.mode = false → pend ≠ 0 →
      sl.wait.userAbandons = true → sl.member = .strand → ∃ t : State, exec (.userInterruptDelivery id) s = .next t ∧
        (t.slot id).pc = sl.uvec.toNat / 4 * 4 ∧ (t.slot id).uepc = BitVec.ofNat 47 here ∧
        (t.slot id).ucode = BitVec.ofNat 8 (0x80 + k) ∧ (t.slot id).upend = sl.upend &&& ~~~(BitVec.ofNat 4 (2 ^ k)) ∧
        (t.slot id).uih = true ∧ (t.slot id).mode = false ∧ (t.slot id).wait = .none ∧
        ∀ n, 1 ≤ n → n < 8 → t.regOf id n = (mapGet sl.shadow Reg.initial n).val ∧
          (mapGet (t.slot id).shadow Reg.initial n).val = s.regOf id n) ∧
    (∀ b d, sl.wait = .join b d → d ≤ s.cycle → exec (.joinWatchdog id) s = .next (s.takeTrap id b ⟨0x0F, 0, false⟩)) ∧
    (sl.terminating = true → (∀ a ∈ s.accesses, a.slot ≠ id) → s.enginesOut id = false → sl.failures = [] → sl.rfaults = [] →
      Rising s.running → Rising (sl.watches.map (·.1)) →
      ∃ t : State, exec (.slotTerminate id) s = .next t ∧ (t.slot id).busy = false ∧ (t.slot id).member = .exited ∧ (t.slot id).queue = [] ∧
        (t.slot id).upend = 0 ∧ (t.slot id).terminating = false ∧ (t.slot id).idleAt = s.cycle + 1 ∧ id ∉ t.running ∧
        ∀ k, k < 16 → ((t.slot id).watch k).state = .free) ∧
    (∀ w h r, s.nextServed lin = some (idx, wv) → mapFind s.weaves wv = some w → s.attachedMembers wv = h :: r →
      let deliv := fun (n : QEntry) (st : CtxState) (next : Nat) (xf : Bool) => (s2.attachedMembers wv).Nodup →
        ∀ w2, mapFind s2.weaves wv = some w2 → ∃ t : State, exec (.frontEndDeliver lin) s = .next t ∧
          t.creel lin = { s2.creel lin with served := idx, delivered := s2.cycle + 1 } ∧
          (∀ m ∈ s2.attachedMembers wv, t.slot m = { s2.slot m with queue := (s2.slot m).queue ++ [n] }) ∧
          (∀ m, m ∉ s2.attachedMembers wv → t.slot m = s2.slot m) ∧
          mapFind t.weaves wv = some { w2 with cstate := st, fetchPc := next, xfer := xf } ∧
          t = { s2 with slots := t.slots, weaves := t.weaves, creels := t.creels }
      let at_ := w.fetchPc
      let fetched := s.frontFetch wv w h
      (fetched = (s2, .ok none) → exec (.frontEndDeliver lin) s = .next s2) ∧
      (∀ v x, fetched = (s2, .ok (some (v, x))) →
        let n : QEntry := ⟨at_, v, x, none, s2.cycle, none⟩
        let op := v.toNat / 2 ^ 26
        ((0x10 ≤ op ∧ op ≤ 0x15) ∨ op = 0x18 ∨ v = 0xA0000002#32 → deliv n .branch at_ true) ∧
        ((op < 0x10 ∨ 0x18 < op) → v ≠ 0xA0000002#32 → v ≠ 0x68000000#32 → op ≠ 0x0D → deliv n .run (at_ + 4) false) ∧
        (v = 0x68000000#32 → deliv n (.hold at_) (at_ + 4) false) ∧
        (op = 0x0D → deliv n .run (at_ + 8) false) ∧
        (op = 0x16 ∨ op = 0x17 → ∀ target : Nat, (target : Int) = at_ + 4 * (v.setWidth 26).toInt → target < 2 ^ 47 → deliv n .run target true)) ∧
      (∀ f, fetched = (s2, .error f) → (s2.attachedMembers wv).Nodup → ∀ w2, mapFind s2.weaves wv = some w2 →
        ∃ t : State, exec (.frontEndDeliver lin) s = .next t ∧
          (∀ m ∈ s2.attachedMembers wv, t.slot m =
            { s2.slot m with queue := (s2.slot m).queue ++ [⟨at_, 0, 0, some f, s2.cycle, none⟩] }) ∧
          (∀ m, m ∉ s2.attachedMembers wv → t.slot m = s2.slot m) ∧ mapFind t.weaves wv = some { w2 with cstate := .branch })) ∧
    (∀ va due, sl.wait = .ifill va due → due ≤ s.cycle → s0.xlate id false va = (s1, some e) →
      s1.fetchPlace (id / 512) va (s1.slot id).mode e = .ok p → Memory.wf s1.mem = true → s1.bad = [] → s1.soft = [] →
      Rising (s1.tags.map (·.1)) → id < 2 ^ 28 → p.gpa / 2 ^ 45 = id / 512 → (∀ n, p.home = some n → n < 24) →
      ∃ t : State, exec (.strandFetchFill id) s = .next t ∧ t.slot id = s1.slot id ∧ p.gpa / 8 ∈ (t.core (id / 16)).icache ∧
        p.gpa / 8 ∈ (t.creel (id / 512)).icache ∧ t.regs = s1.regs ∧
        ∀ key' i, i < 64 → t.byteAs key' (strandLoc (id / 16) (p.gpa / 64 * 64) + i) =
          t.byteAs key' (creelLoc (id / 512) (p.gpa / 64 * 64) + i)) ∧
    (∀ w, s.walkDone lin id = some w → lin < 2 ^ 19 →
      let f : WalkStep := .fault (.cause (if w.global then 6 else 5))
      let va := w.page * 2 ^ 16
      let size := fun (lvl : Nat) => [0x400, 0x1000, if w.global then 0x1000 else 0x800, 0x1000, 0x1000, 0x100].getD lvl 1
      let index := fun (lvl : Nat) => [va / 2 ^ 57 % 2 ^ 7, va / 2 ^ 48 % 2 ^ 9, va / 2 ^ 39 % 2 ^ (if w.global then 9 else 8),
        va / 2 ^ 30 % 2 ^ 9, va / 2 ^ 21 % 2 ^ 9, va / 2 ^ 16 % 2 ^ 5].getD lvl 0
      let table := fun (lvl t : Nat) => t % size lvl = 0 ∧ (t < 0xC00000 ∨ 0x40000000 ≤ t ∧ t < 0x2C0000000)
      let root := (mapGet (s.creel lin).roots 0 (2 * w.asid + w.global.toNat)).toNat
      let top := if w.global then 0 else 2
      let first := root / 2 ^ 8 % 2 ^ 37 * 256
      (w.at_ = none →
        (root % 2 = 0 → s.walkStep lin w = (s, f)) ∧
        (root % 2 = 1 → root / 2 ^ 58 ≠ w.world → s.walkStep lin w = (s, .fault (.cause 7))) ∧
        (root % 2 = 1 → root / 2 ^ 58 = w.world → table top first → s.walkStep lin w = (s, .next top first)) ∧
        (root % 2 = 1 → root / 2 ^ 58 = w.world → ¬table top first → s.walkStep lin w = (s, f))) ∧
      (∀ lvl tb, w.at_ = some (lvl, tb) → lvl < 6 → tb < 0xC00000 →
        let g := lin * 2 ^ 45 + tb + 8 * index lvl
        let v := s.readAs (s.key lin w.world) g 8
        let next := v / 2 ^ 8 % 2 ^ 37 * 256
        let bits := [0, 0, 0, 30, 21, 16].getD lvl 0
        let frame := v / 2 ^ 16 * 2 ^ 16
        let lpa := frame % 2 ^ 45
        let owner := if w.global then frame / 2 ^ 45 else lin
        let inside := fun (lo hi : Nat) => lo ≤ lpa ∧ lpa + 2 ^ bits ≤ hi
        let pointer := v % 4 = 1 ∧ v / 2 ^ 2 % 2 ^ 6 = 0 ∧ v / 2 ^ 45 = 0 ∧ lvl < 5 ∧ table (lvl + 1) next
        let leaf := v % 4 = 3 ∧ 3 ≤ lvl ∧ v / 2 ^ 2 % 2 = 0 ∧ v / 2 ^ 7 % 2 ^ 2 = 0 ∧ frame % 2 ^ bits = 0 ∧
          (w.global = false ∧ lpa < 0xC00000 ∨ v.testBit 10 = true ∧ v / 2 ^ 13 % 2 ^ 3 = 0 ∨
            v.testBit 10 = false ∧ v / 2 ^ 11 % 2 ^ 5 ≤ 23) ∧
          (if w.global then v / 2 ^ 4 % 2 ^ 2 = 0 else v / 2 ^ 45 = 0 ∧ v.testBit 9 = false) ∧
          (inside 0 0xBF0000 ∨ inside 0xBF0000 0xC00000 ∨ inside 0x40000000 0x2C0000000 ∨
            w.global = true ∧ (owner % 128 = 0 ∨ owner % 128 = 64) ∧ inside 0x20000000 0x20800000)
        Clean s g 8 →
          (pointer → s.walkStep lin w = (s, .next (lvl + 1) next)) ∧
          (leaf → s.walkStep lin w = (s, .leaf ⟨w.asid, w.global, w.world, va / 2 ^ bits, bits, frame, v / 2 ^ 11 % 2 ^ 5, v.testBit 10,
            w.global && v.testBit 9, v.testBit 6, v.testBit 5, v.testBit 4, v.testBit 3⟩)) ∧
          (¬pointer → ¬leaf → s.walkStep lin w = (s, f))) ∧
      (∀ lvl tb, s.walkStep lin w = (s1, .next lvl tb) → ∃ (t : State) (due : Nat), exec (.pageWalkComplete lin id) s = .next t ∧
        s1.cycle < due ∧ t.creel lin = { s1.creel lin with
          walks := (s1.creel lin).walks.map fun x => if x.id = id then { x with due := due, at_ := some (lvl, tb) } else x } ∧
        (∀ j, j ≠ lin → t.creel j = s1.creel j) ∧ t = { s1 with creels := t.creels, fresh := t.fresh }) ∧
      (s.walkStep lin w = (s1, .leaf e) → (s1.creel lin).updates = [] → ∃ t : State, exec (.pageWalkComplete lin id) s = .next t ∧
        e ∈ (t.creel lin).tlb ∧ (∀ x ∈ (t.creel lin).walks, x.id ≠ id) ∧
        (∀ r ∈ w.reqs, r.1 < 2 ^ 40 → e ∈ (t.core (r.1 / 16)).tlb) ∧
        (∀ r ∈ w.reqs, r.1 < 2 ^ 40 → (s1.slot r.1).wait = .walk → t.slot r.1 = { s1.slot r.1 with wait := .hold }) ∧
        (∀ r ∈ w.reqs, r.1 < 2 ^ 40 → (s1.slot r.1).wait = .fwalk → t.slot r.1 = { s1.slot r.1 with wait := .none }) ∧
        (∀ m, (∀ r ∈ w.reqs, r.1 ≠ m) → t.slot m = s1.slot m) ∧ t.regs = s1.regs ∧ SameMemory s1 t) ∧
      (∀ cause, s.walkStep lin w = (s1, .fault (.cause cause)) → (s1.creel lin).updates = [] → (w.reqs.map (·.1)).Nodup →
        ∃ t : State, exec (.pageWalkComplete lin id) s = .next t ∧ (t.creel lin).tlb = (s1.creel lin).tlb ∧
          (∀ r ∈ w.reqs, r.1 < 2 ^ 40 → (s1.slot r.1).wait = .walk ∨ (s1.slot r.1).wait = .fwalk →
            t.slot r.1 = { s1.slot r.1 with wait := .trapping ⟨cause, BitVec.ofNat 64 r.2, false⟩ }) ∧
          (∀ r ∈ w.reqs, 2 ^ 40 ≤ r.1 → ⟨r.1, w.page, .cause cause⟩ ∈ (t.creel lin).wfaults) ∧
          (∀ m, (∀ r ∈ w.reqs, r.1 ≠ m) → t.slot m = s1.slot m) ∧ t.regs = s1.regs ∧ SameMemory s1 t)) ∧
    (∀ f, s.fills.find? (·.id == id) = some f → Rising ((s.core f.core).l2.map (·.1)) → s.soft = [] →
      ∃ t : State, exec (.sectorFill id) s = .next t ∧ t.fills = s.fills.filter (fun x => x.id != id) ∧
        (s.l2HasRoom f.core f.gpa = true → t.l2Valid f.core f.gpa = true) ∧
        t.accesses = s.accesses.map (fun x => if x.fill = id then { x with fill := 0 } else x) ∧ t.regs = s.regs ∧ t.slots = s.slots) ∧
    (s.accesses.find? (·.id == a.id) = some a → a.id ≠ 0 → a.due ≤ s.cycle → a.fill = 0 → a.parts = [q] → q.home = none →
      (a.kind = .store → q.gpa < 2 ^ 64 → Memory.wf s.mem = true → Clean s (q.gpa / 128 * 128) (q.size + 256) → NoBarrierWait s q.gpa q.size →
        ∃ t : State, exec (.storeCompletion a.id) s = .next t ∧ Stored s t key q.gpa (natBytes q.data q.size) ∧ t.accesses = rest ∧
          t.regs = s.regs ∧ OtherSlots s t a.slot ∧ t.slot a.slot = if a.relaxed then s.slot a.slot else (s.slot a.slot).advance 4) ∧
      (∀ z, a.kind = .load z → Clean s q.gpa q.size →
        let v := loadValue z (s.readAs key q.gpa q.size)
        (a.relaxed = false → ∃ t : State, exec (.memoryReply a.id) s = .next t ∧ t.regOf a.slot a.reg = (if a.reg = 0 then 0 else v) ∧
          OtherEntries s t (fun n => a.reg ≠ 0 ∧ n = s.entryOf a.slot a.reg) ∧ t.slot a.slot = (s.slot a.slot).advance 4 ∧
          OtherSlots s t a.slot ∧ t.accesses = rest ∧ SameMemory s t) ∧
        (a.relaxed = true → a.reg ≠ 0 → (s.entry a.entry).tok = a.id → ∃ t : State, exec (.memoryReply a.id) s = .next t ∧
          t.entry a.entry = ⟨v, true, false, 0⟩ ∧ OtherEntries s t (· = a.entry) ∧ t.slots = s.slots ∧
          t.accesses = rest ∧ SameMemory s t)) ∧
      (∀ z v fill, a.kind = .gldData z v fill → a.relaxed = false → s.soft = [] → Memory.wf s.mem = true →
        ∃ t : State, exec (.memoryReply a.id) s = .next t ∧ t.regOf a.slot a.reg = (if a.reg = 0 then 0 else loadValue z v) ∧
          OtherEntries s t (fun n => a.reg ≠ 0 ∧ n = s.entryOf a.slot a.reg) ∧ t.slot a.slot = (s.slot a.slot).advance 4 ∧
          OtherSlots s t a.slot ∧ t.accesses = rest ∧
          (fill = none → ∀ key' loc, loc < 2 ^ 91 → t.byteAs key' loc = s.byteAs key' loc)) ∧
      (∀ tr, a.kind = .gldTrap tr → (s.slot a.slot).terminating = false → ∃ t : State, exec (.memoryReply a.id) s = .next t ∧
        t.slot a.slot = { s.slot a.slot with wait := .trapping tr } ∧ OtherSlots s t a.slot ∧
        t = { s with slots := t.slots, accesses := rest }) ∧
      (∀ z ord, a.kind = .gld z ord → (∀ r ∈ s.preqs, r.id ≠ a.id) → s.gldServes a q = true →
        let cached := ord = 0 ∧ a.nc = false
        let g := if cached then q.gpa / 128 * 128 else q.gpa
        let n := if cached then 128 else q.size
        isDram (lpaOf q.gpa) = false → s.partitionRefuses a.slot g n = false → Clean s g n → Memory.wf s.mem = true →
        q.gpa < 2 ^ 64 → q.size ≤ 8 → Rising (s.tags.map (·.1)) →
        ∃ (t : State) (due : Nat), exec (.readPortRead a.id) s = .next t ∧ s.cycle < due ∧ t.slots = s.slots ∧ t.regs = s.regs ∧
          t.accesses = s.accesses.map fun x =>
            if x.id = a.id then
              { a with kind := .gldData z (s.readAs key q.gpa q.size) (if cached then some (s.fillTag a.slot q.va) else none), due := due }
            else x))

/-! ### Watches, pulls and engine commands as they proceed (R125, R215 to R222, R232 to R234, R240 to R251, R258 to R266, R376) -/

/-- R232 to R234: a watch arm arrives at its owner, waits for room there, is answered, refused or withdrawn. R240, R251: a pull request issues, is
served and brings its data, and a budget period begins. R242 to R245: what the data of PULL, PULLX, PULLR, SGNACC and PULLM lands as, where PULLX finds
its elements, and PULLM's merge. R241: the completion word of a command that has succeeded or stopped, with its record. R247 to R250, R376: a CPULL
watches its next peer, goes on, combines a child, publishes its instance, or gives up. The model's choices: a watch message within a module travels so
early that R41 holds (log 5); a request to the slot's own creel spends no budget, and arms wait for it in their order (log 30); a CPULL's internal watch
takes a table entry and a sector of class 2, COUNT of one that stops in a wait, an ISEQ that already holds its instance, the place of a pull's stop, and
nothing written where a completion word's own block is uncorrectable (log 32). -/
def Obligations.WatchPullEvents : Prop :=
  ∀ (s s1 s2 : State) (lin ch loc : Nat) (a : Arm) (cmd cmd' : PullCmd) (r : PullReq) (p : Phys) (h : MergeHead) (q q2 : Place),
    let owner := linOf a.gpa
    let w := (s.slot a.slot).watch a.reg
    let passes := BitVec.ofNat 64 (s.readAs (s.slotKey a.slot) a.gpa 8)
    let arms := fun (f : Nat → Arm) => ∃ (t : State) (due : Nat), exec (.watchArmArrive a.id) s = .next t ∧ s.cycle < due ∧
      (a.slot / 512 / 128 = owner / 128 → due ≤ s.cycle + 64) ∧
      t.arms = s.arms.map (fun x => if x.id = a.id then f due else x) ∧ t = { s with arms := t.arms, fresh := t.fresh }
    let watch := fun (i : Instr) (w' : Watch) => ∃ t : State, exec i s = .next t ∧ (t.slot a.slot).watch a.reg = w' ∧
      (∀ k, k ≠ a.reg → (t.slot a.slot).watch k = (s.slot a.slot).watch k) ∧
      (t.slot a.slot).upend = (if w.int then (s.slot a.slot).upend ||| 4 else (s.slot a.slot).upend) ∧
      (t.slot a.slot).wait = (if (s.slot a.slot).wait = .wwait a.reg then .none else (s.slot a.slot).wait) ∧
      OtherSlots s t a.slot ∧ t.arms = s.arms.filter (fun x => x.id != a.id) ∧ t.regs = s.regs ∧ SameMemory s t
    let queued := s.armsQueued owner
    let waits := a.stage = .sent ∧ owner ≠ a.slot / 512 ∧ (4096 ≤ s.portArms owner ∨ queued ≠ [])
    let admitted := (a.stage = .sent ∧ a.due ≤ s.cycle ∨
      a.stage = .queued ∧ s.portArms owner < 4096 ∧ ∀ b ∈ queued, a.id ≤ b.id) ∧ ¬waits
    let c := s.creel lin
    let cls := if cmd.fn = 4 then 2 else 1
    let flying := (s.preqs.filter fun r => r.lin == lin && c.pulls.any fun p => p.id == r.cmd && p.ch == ch).length
    let later : State := { s with fresh := s.fresh + 1 }
    let s0 : State := { s with preqs := s.preqs.filter fun x => x.id != r.id }
    let served := fun (i : Instr) (data good status : Nat) => ∃ (t : State) (due : Nat), exec i s = .next t ∧ s.cycle < due ∧
      t.preqs = s1.preqs.map (fun x => if x.id = r.id then
        { r with answered := true, due := due, data := data, good := good, status := status } else x) ∧
      t = { s1 with preqs := t.preqs, fresh := t.fresh }
    let serves := s.preqs.find? (·.id == r.id) = some r ∧ s.findPull r.lin r.cmd = some cmd ∧ s.reqServes r = true
    let tree := s.creel (linOf r.gpa)
    let invited := treeValid tree cmd.group = true ∧ treeKey tree cmd.group = cmd.asid.toNat ∧ treeParent tree cmd.group ≠ 0xFFFFF ∧
      treeLin tree cmd.group (treeParent tree cmd.group) = r.lin
    let group := c.pulls.find? fun p => p.fn == 4 && p.group == cmd.group
    let key := s.key (cmd.slot / 512) cmd.world.toNat
    let calm := Memory.wf s.mem = true ∧ Rising s.empties ∧ s.bad = [] ∧ s.soft = [] ∧ (∀ g, s.partitionRefuses cmd.slot g 8 = false) ∧
      (∀ k, NoBarriers s k) ∧ ∀ k, (s.creel k).lwaits = []
    let sram := fun (x : Place) => x.gpa % 8 = 0 ∧ x.gpa < 2 ^ 64 ∧ x.gpa % 2 ^ 45 < 0xC00000
    let ctl := cmd.ctl
    let len := ctl % 2 ^ 24
    let esz := 8 * (ctl / 2 ^ 36 % 2 ^ 6 + 1)
    let old := s.readAs key q.gpa 8
    let here := spanPlace cmd.dst (cmd.a + r.start) = some q ∧ sram q ∧ r.good = 8
    let t := (s.landPull cmd r).1
    let lands := fun (v : Nat) => (s.landPull cmd r).2 = (cmd, 8, 0) ∧ Stored s t key q.gpa (natBytes v 8) ∧
      (∀ g, t.fe g = if g / 8 = q.gpa / 8 ∧ ctl.testBit 31 = true then true else s.fe g) ∧ t.regs = s.regs
    let combines := fun (op ty : Nat) =>
      let wd := [32, 16, 16, 32, 64].getD ty 32
      let f := [fp32, bf16, fp16].getD ty fp32
      let less := fun (x y : Nat) => (BitVec.ofNat wd x).toInt < (BitVec.ofNat wd y).toInt
      let elem := fun (x y : Nat) =>
        match op with
        | 0 => if ty ≤ 2 then f.add 0 x y else (x + y) % 2 ^ wd
        | 1 => if ty ≤ 2 then f.minMax false x y else if less y x then y else x
        | 2 => if ty ≤ 2 then f.minMax true x y else if less x y then y else x
        | 3 => x ||| y
        | _ => x ^^^ y
      ∃ v, (∀ i, i < 64 / wd → v / 2 ^ (wd * i) % 2 ^ wd = elem (old / 2 ^ (wd * i) % 2 ^ wd) (r.data / 2 ^ (wd * i) % 2 ^ wd)) ∧ lands v
    let ends := fun (u : State) (status count : Nat) => ∀ sp l, cmd.comp = sp :: l → sram sp.place →
      u.readAs key sp.place.gpa 8 = status * 2 ^ 32 + count ∧ u.fe sp.place.gpa = true ∧
      (u.creel (cmd.slot / 512)).pulls = (s.creel (cmd.slot / 512)).pulls.filter (fun x => x.id != cmd.id) ∧
      (u.slot cmd.slot).upend = (if ctl.testBit 30 then (s.slot cmd.slot).upend ||| 8 else (s.slot cmd.slot).upend) ∧
      OtherSlots s u cmd.slot ∧ u.regs = s.regs
    let quiet := s.wroteOf cmd = [] ∧ ∀ x ∈ s.preqs, x.cmd ≠ cmd.id
    let written := if cmd.phase = 0 ∨ cmd.a = cmd.b ∧ cmd.phase ≤ 2 then 0 else len
    -- watch arms
    (s.arms.find? (·.id == a.id) = some a → s.answers (a.slot / 512) owner = true →
      (a.due ≤ s.cycle → waits → exec (.watchArmArrive a.id) s =
        .next { s with arms := s.arms.map fun x => if x.id = a.id then { a with stage := .queued } else x }) ∧
      (admitted → s.partitionRefuses a.slot a.gpa 8 = true → arms fun d => { a with stage := .refused, due := d }) ∧
      (admitted → s.partitionRefuses a.slot a.gpa 8 = false → Clean s a.gpa 8 → a.thr ≤ passes →
        arms fun d => { a with stage := .answered passes, due := d }) ∧
      (admitted → s.partitionRefuses a.slot a.gpa 8 = false → Clean s a.gpa 8 → passes < a.thr → arms fun _ => { a with stage := .held })) ∧
    (∀ v, s.arms.find? (·.id == a.id) = some a → a.stage = .answered v → a.due ≤ s.cycle →
      watch (.watchAnswer a.id) { w with state := .ans, ansv := v, arm := 0 }) ∧
    (s.arms.find? (·.id == a.id) = some a → a.stage = .refused → a.due ≤ s.cycle →
      watch (.watchRefusal a.id) { w with state := .lost, arm := 0 } ∧
      ∃ t : State, exec (.watchRefusal a.id) s = .next t ∧ Logs s t (a.slot / 512) 0x05 0x2 0x07 0) ∧
    (∀ held, s.arms.find? (·.id == a.id) = some a → a.stage = .withdrawn held → a.due ≤ s.cycle →
      exec (.watchWithdrawArrive a.id) s = .next { s with arms := s.arms.filter fun x => x.id != a.id }) ∧
    -- a channel issues
    (c.pulls.find? (fun p => p.ch == ch && !p.issued) = some cmd → flying < 64 →
      (∀ start len va n, s.nextPull cmd = (s1, .chunk start len va n cmd') → s1.pullSource cmd va = (s2, .ok p) → cmd'.slot / 512 = lin →
        (linOf p.gpa = lin ∨ s2.budgetOpen lin cls = true → ∃ (t : State) (due : Nat), exec (.pullRequestIssue lin ch) s = .next t ∧
          s2.cycle < due ∧
          t.preqs = s2.preqs ++ [⟨s2.nextId, lin, cmd.id, start, len, va, p.gpa, p.bits, n, p.hk, p.home, false, due, 0, 0, 0, s2.cycle⟩] ∧
          t.creel lin = { s2.creel lin with
            pulls := (s2.creel lin).pulls.map fun x => if x.id = cmd'.id then { cmd' with wrote := x.wrote } else x,
            spent := if linOf p.gpa = lin then (s2.creel lin).spent
              else mapPut (s2.creel lin).spent cls (mapGet (s2.creel lin).spent 0 cls + 1) } ∧
          t.mem = s2.mem ∧ t.regs = s2.regs ∧ t.slots = s2.slots) ∧
        (linOf p.gpa ≠ lin → s2.budgetOpen lin cls = false → exec (.pullRequestIssue lin ch) s = .next s2)) ∧
      (∀ start len va n st g, s.nextPull cmd = (s1, .chunk start len va n cmd') → s1.pullSource cmd va = (s2, .stop st g) →
        exec (.pullRequestIssue lin ch) s = .next (s2.stopPull cmd' ⟨start, st, va, g⟩)) ∧
      (∀ start len va n, s.nextPull cmd = (s1, .chunk start len va n cmd') → s1.pullSource cmd va = (s2, .wait) →
        exec (.pullRequestIssue lin ch) s = .next s2) ∧
      (∀ st va g, s.nextPull cmd = (s1, .stop cmd' st va g) →
        exec (.pullRequestIssue lin ch) s = .next (s1.stopPull cmd' ⟨cmd'.cur, st, va, g⟩)) ∧
      (s.nextPull cmd = (s1, .prep cmd') → exec (.pullRequestIssue lin ch) s = .next (s1.setPull cmd')) ∧
      (s.nextPull cmd = (s1, .last) → exec (.pullRequestIssue lin ch) s =
        .next ((s1.setPull { cmd with issued := true }).settlePull { cmd with issued := true }))) ∧
    -- PULLX: the header, an index, an element
    (cmd.fn = 1 → calm → q.gpa < 2 ^ 64 → q.gpa % 2 ^ 45 < 0xC00000 →
      (cmd.head = none → spanPlace cmd.src cmd.b = some q →
        (old % 8 ≠ 0 → s.nextPull cmd = (s, .stop cmd 0x07 0 0)) ∧
        (old % 8 = 0 → s.nextPull cmd = (s, .prep { cmd with head := some old }))) ∧
      (∀ g, cmd.head = some g → cmd.idx = none → cmd.cur < len * esz →
        let pair := cmd.cur / esz / 2
        spanPlace cmd.src (cmd.b + 8 + 8 * pair) = some q →
          s.nextPull cmd = (s, .prep { cmd with idx := some (s.readAs key q.gpa (if 2 * pair + 1 < len then 8 else 4)) }))) ∧
    (∀ g pair, cmd.fn = 1 → cmd.head = some g → cmd.idx = some pair → cmd.cur < len * esz →
      let e := cmd.cur / esz
      let i := pair / 2 ^ (32 * (e % 2)) % 2 ^ 32
      let off := cmd.cur % esz
      let va := (g + i * esz + off) % 2 ^ 64
      let n := min (esz - off) (128 - va % 128)
      let after := if e % 2 = 1 then none else some pair
      (i ≠ 2 ^ 32 - 1 → s.nextPull cmd =
        (s, .chunk cmd.cur n va n { cmd with cur := cmd.cur + n, idx := if off + n = esz then after else some pair })) ∧
      (i = 2 ^ 32 - 1 → e + 1 = len → s.nextPull cmd = (s, .last)) ∧
      (i = 2 ^ 32 - 1 → e + 1 < len → s.nextPull cmd = s.nextPull { cmd with cur := (e + 1) * esz, idx := after })) ∧
    -- at the owner
    (serves → later.portFind cmd.slot r.gpa r.n r.hk r.home = (s1, .ok loc) →
      let data := s1.readAs (s1.key (cmd.slot / 512) cmd.world.toNat) loc r.n
      (Clean s1 loc r.n → (cmd.fn ≠ 4 → served (.readPortRead r.id) data r.n 0) ∧
        (cmd.fn = 4 → invited → served (.treePullServe r.id) data r.n 0)) ∧
      (∀ k, s1.firstBad loc r.n = some k → NoSoft s1 loc r.n → (∀ x, (s1.creel x).lwaits = []) →
        (cmd.fn ≠ 4 → served (.readPortRead r.id) data (k / 8 * 8) 0x05) ∧
        (cmd.fn = 4 → invited → served (.treePullServe r.id) data (k / 8 * 8) 0x05))) ∧
    (∀ x ∈ [(0x06, 0x01), (0x07, 0x03)], serves → later.portFind cmd.slot r.gpa r.n r.hk r.home = (s1, .error x.1) →
      (cmd.fn ≠ 4 → served (.readPortRead r.id) r.data r.good x.2) ∧
      (cmd.fn = 4 → invited → served (.treePullServe r.id) r.data r.good x.2)) ∧
    (serves → s1 = s → cmd.fn = 4 → ¬invited → served (.treePullServe r.id) r.data r.good 0x04) ∧
    -- an answer arrives
    (s.preqs.find? (·.id == r.id) = some r → s.findPull r.lin r.cmd = some cmd → r.answered = true → r.due ≤ s.cycle →
      (∀ o, s0.landPull cmd r = (s1, cmd', o, 0) → r.status = 0 →
        exec (.pullSectorData r.id) s = .next ((s1.setPull cmd').settlePull cmd')) ∧
      (∀ o, s0.landPull cmd r = (s1, cmd', o, 0) → r.status ≠ 0 → r.len = r.n →
        let d := if r.status = 5 then max o r.good else o
        exec (.pullSectorData r.id) s = .next ((s1.setPull cmd').stopPull cmd' ⟨r.start + o, r.status, r.va + d, r.gpa + d⟩)) ∧
      (∀ o st, s0.landPull cmd r = (s1, cmd', o, st) → st ≠ 0 → exec (.pullSectorData r.id) s =
        .next ((s1.setPull cmd').stopPull cmd'
          ⟨r.start + o, st, cmd'.a + r.start + o, spanGpa cmd'.dst (cmd'.a + r.start + o)⟩))) ∧
    (calm → here →
      (cmd.fn ≤ 1 → lands (r.data % 2 ^ 64)) ∧
      (cmd.fn = 2 → opFits (ctl / 2 ^ 32 % 2 ^ 4) (ctl / 2 ^ 27 % 2 ^ 3) = true → ctl / 2 ^ 32 % 2 ^ 4 ≠ 5 →
        combines (ctl / 2 ^ 32 % 2 ^ 4) (ctl / 2 ^ 27 % 2 ^ 3)) ∧
      (cmd.fn = 4 → opFits (treeOp (s.creel r.lin) cmd.group) (treeTy (s.creel r.lin) cmd.group) = true →
        treeOp (s.creel r.lin) cmd.group ≠ 5 → combines (treeOp (s.creel r.lin) cmd.group) (treeTy (s.creel r.lin) cmd.group)) ∧
      (cmd.fn = 2 → ctl / 2 ^ 32 % 2 ^ 4 = 5 → r.len = 8 →
        let al := fp32.decode (cmd.head.getD 0)
        ∃ v, (∀ i, i < 2 → v / 2 ^ (32 * i) % 2 ^ 32 = fp32.round 0 (Fv.add false (fp32.decode (old / 2 ^ (32 * i) % 2 ^ 32))
          (if r.data.testBit i then al.neg else al))) ∧ lands v)) ∧
    (cmd.fn = 2 → ctl / 2 ^ 32 % 2 ^ 4 = 5 → r.len = 0 → r.good = 8 →
      s.landPull cmd r = (s, { cmd with head := some (r.data % 2 ^ 32) }, 0, 0)) ∧
    (cmd.fn = 3 → r.good = 8 →
      s.landPull cmd r = if r.start = 0 then (s, { cmd with head := some (r.data % 2 ^ 32) }, 0, 0)
        else (s, { cmd with buf := cmd.buf ++ [(r.start, r.data % 2 ^ 64)] }, 8, 0)) ∧
    -- PULLM's merge
    (∀ l m : List (Nat × Nat), l.Pairwise (fun x y => x.1 < y.1) → m.Pairwise (fun x y => x.1 < y.1) →
      let u := mergeLists l m (l.length + m.length + 1)
      u.Pairwise (fun x y => x.1 < y.1) ∧ ∀ i v, (i, v) ∈ u ↔ (i, v) ∈ l ∧ i ∉ m.map (·.1) ∨ (i, v) ∈ m ∧ i ∉ l.map (·.1) ∨
        ∃ x y, (i, x) ∈ l ∧ (i, y) ∈ m ∧ v = fp32.add 0 x y) ∧
    (calm → s.wroteOf cmd = [] → ctl.testBit 31 = false → cmd.fn = 3 → sram q → sram q2 →
      let all := 16 + 8 * max h.count h.cap
      let more := 16 + 8 * h.ovCap
      h.src = [⟨cmd.a, all, q⟩] → h.dst = h.src → h.spill = [⟨h.ov, more, q2⟩] → h.ovCount ≤ h.ovCap → h.cap < 2 ^ 32 → h.ovCap < 2 ^ 32 →
      q.gpa % 2 ^ 45 + all ≤ 0xC00000 → q2.gpa % 2 ^ 45 + more ≤ 0xC00000 → q.gpa + all ≤ q2.gpa ∨ q2.gpa + more ≤ q.gpa →
      let entry := fun (v : Nat) => (v % 2 ^ 32, v / 2 ^ 32)
      let l := (List.range h.count).map fun i => entry (s.readAs key (q.gpa + 16 + 8 * i) 8)
      let m := (List.range (cmd.head.getD 0)).map fun i => entry (((cmd.buf.find? fun x => x.1 == 16 + 8 * i).map (·.2)).getD 0)
      let u := mergeLists l m (l.length + m.length + 1)
      let left := u.drop h.cap
      let extra := left.take (h.ovCap - h.ovCount)
      (ascending l = false ∨ ascending m = false → s.mergePull cmd h = (s, 0x07, 0, cmd.a)) ∧
      (ascending l = true → ascending m = true → ∃ t : State,
        s.mergePull cmd h = (t, if extra.length < left.length then 0x08 else 0, u.length, cmd.a) ∧
        t.readAs key q.gpa 8 = (u.take h.cap).length + 2 ^ 32 * h.cap ∧
        (∀ i x, (u.take h.cap)[i]? = some x → t.readAs key (q.gpa + 16 + 8 * i) 8 = (x.1 + 2 ^ 32 * x.2) % 2 ^ 64) ∧
        (∀ i x, extra[i]? = some x → t.readAs key (q2.gpa + 16 + 8 * (h.ovCount + i)) 8 = (x.1 + 2 ^ 32 * x.2) % 2 ^ 64) ∧
        (extra ≠ [] → t.readAs key q2.gpa 8 = h.ovCount + extra.length + 2 ^ 32 * h.ovCap) ∧ t.regs = s.regs ∧ t.slots = s.slots)) ∧
    -- completion
    (calm → quiet → cmd.fn ≤ 2 → cmd.issued = true → cmd.slot < 2 ^ 28 →
      (cmd.fail = none → (if cmd.fn = 1 then len * esz else len) < 2 ^ 32 →
        ends (s.settlePull cmd) 0 (if cmd.fn = 1 then len * esz else len) ∧
        (cmd.comp ≠ [] → ((s.settlePull cmd).creel (cmd.slot / 512)).recs = (s.creel (cmd.slot / 512)).recs)) ∧
      (∀ f, cmd.fail = some f → f.at_ < 2 ^ 32 → 0 < f.status → f.status < 2 ^ 8 →
        ends (s.settlePull cmd) f.status f.at_ ∧ Logs s (s.settlePull cmd) (cmd.slot / 512) 0x04
          (if f.status = 5 then 0x4 else if f.status = 6 then 0x5 else 0x2) f.status 0)) ∧
    -- CPULL
    (calm → quiet → cmd.fn = 4 → cmd.fail = none → s.treeArm cmd = none → cmd.phase % 2 = 0 → cmd.phase ≠ 0 → len ≤ cmd.cur → cmd.slot < 2 ^ 28 →
      let ch' := cmd.phase / 2
      (ch' < treeNch (s.creel (cmd.slot / 512)) cmd.group →
        s.settlePull cmd = s.setPull { cmd with phase := 1 + 2 * ch', cur := 0, since := s.cycle }) ∧
      (treeNch (s.creel (cmd.slot / 512)) cmd.group ≤ ch' → ∀ sp l, cmd.iseq = sp :: l → sram sp.place → cmd.inst < 2 ^ 64 →
        (∀ x m, cmd.comp = x :: m → sram x.place ∧ x.place.gpa / 8 ≠ sp.place.gpa / 8) → ends (s.settlePull cmd) 0 len ∧
          (s.settlePull cmd).readAs key sp.place.gpa 8 = max (s.readAs key sp.place.gpa 8) cmd.inst)) ∧
    (calm → s.wroteOf cmd = [] → ctl.testBit 31 = false → len = 8 → cmd.a ≠ cmd.b → spanPlace cmd.src cmd.b = some q → spanPlace cmd.dst cmd.a = some q2 →
      sram q → sram q2 → ∃ t : State, s.copyOwn cmd 0 1 = (t, 8, 0) ∧ Stored s t key q2.gpa (natBytes old 8) ∧
        (0 < treeNch (s.creel (cmd.slot / 512)) cmd.group →
          s.treeBegin cmd = t.setPull { cmd with phase := 1, cur := 0, since := t.cycle })) ∧
    (group = some cmd →
      (cmd.phase = 0 → treeParent c cmd.group = 0xFFFFF → exec (.cpullPeerReady lin cmd.group) s = .next (s.treeBegin cmd)) ∧
      (∀ rank target, cmd.awaited c = some (rank, target) → cmd.phase ≠ 0 ∨ rank ≠ 0xFFFFF →
        let va := treeAddr c cmd.group rank (treeIseq c cmd.group)
        (s.treeArm cmd = none → 2 ^ 64 ≤ target → exec (.cpullPeerReady lin cmd.group) s = .next s) ∧
        (s.treeArm cmd = none → target < 2 ^ 64 → s.pullSource cmd va = (s1, .ok p) → linOf p.gpa = lin ∨ s1.budgetOpen lin 2 = true →
          ∃ (t : State) (due : Nat), exec (.cpullPeerReady lin cmd.group) s = .next t ∧ s1.cycle < due ∧
            t.arms = s1.arms ++ [⟨s1.nextId, cmd.slot, 16 + cmd.group, va, p.gpa, BitVec.ofNat 64 target, .sent, due, s1.cycle⟩] ∧
            mapGet (t.creel lin).spent 0 2 = mapGet (s1.creel lin).spent 0 2 + (if linOf p.gpa = lin then 0 else 1) ∧
            t.regs = s1.regs ∧ t.mem = s1.mem) ∧
        (s.treeArm cmd = none → target < 2 ^ 64 → s.pullSource cmd va = (s1, .wait) →
          exec (.cpullPeerReady lin cmd.group) s = .next s1) ∧
        (s.treeArm cmd = none → target < 2 ^ 64 → ∀ st g, s.pullSource cmd va = (s1, .stop st g) →
          exec (.cpullPeerReady lin cmd.group) s = .next (s1.endPull cmd st written va g)) ∧
        (∀ v, s.treeArm cmd = some a → a.due ≤ s.cycle → a.stage = .answered v → exec (.cpullPeerReady lin cmd.group) s =
          .next (if cmd.phase = 0 then (s.dropArm a.id).treeBegin cmd
            else (s.dropArm a.id).setPull { cmd with phase := cmd.phase + 1, cur := 0 })) ∧
        (s.treeArm cmd = some a → a.due ≤ s.cycle → a.stage = .refused →
          exec (.cpullPeerReady lin cmd.group) s = .next ((s.dropArm a.id).endPull cmd 0x03 written a.va a.gpa))) ∧
      (cmd.awaited c ≠ none → cmd.since + 2 ^ c.params.jwd < s.cycle → cmd.slot / 512 = lin → lin < 2 ^ 19 → cmd.comp ≠ [] → calm →
        s.wroteOf cmd = [] → ∃ t : State, exec (.cpullWatchdog lin cmd.group) s = .next t ∧ ends t 0x0A written ∧
          ((∀ sp l, cmd.comp = sp :: l → sram sp.place) → Logs s t lin 0x04 0x2 0x0A 0))) ∧
    (c.periodEnd ≤ s.cycle →
      let n := max 1 ((mapGet c.tree 0 0x204).toNat % 2 ^ 16)
      let c' : Creel := { c with spent := [], periodEnd := c.periodEnd + ((s.cycle - c.periodEnd) / n + 1) * n }
      ((∀ a ∈ s.arms, ¬(a.stage = .unsent ∧ a.slot / 512 = lin)) → CreelGets s (.budgetPeriod lin) lin c') ∧
      (s.arms = [a] → a.stage = .unsent → a.slot / 512 = lin → ∃ (t : State) (due : Nat), exec (.budgetPeriod lin) s = .next t ∧
        s.cycle < due ∧ t.arms = [{ a with stage := .sent, due := due, since := s.cycle }] ∧ t.creel lin = { c' with spent := [(0, 1)] } ∧
        t.regs = s.regs ∧ t.slots = s.slots))

/-- R125, R213, R215 to R222, R227, R333: a queued matrix command that is due takes its next step or row; it goes on, waits for a walk, or ends, with
a pending failure when it met a fault. MZERO clears the tile; a step of MMA and MMAS adds the exact sum of its products, one rounding an element, with
the panels' addresses and MMAS's block scales; MIN loads a row; MOUT converts and writes one in every format it has. R258 to R261, R266: a Gaussian
command passes its waits, reads its records, starts and completes: its writes, or its failure, or the value of GRES. R259 to R266: what GUPD, GBEL,
GADD, GELIM, GDAMP, GSOLVE and GRES compute, with damping. The model's choices: a step or row of a matrix command, and a Gaussian command's reads
and writes, are whole (log 12), latencies are free (log 5), a ninth failure is recorded (log 46), the first operand in the order A before B
is the one recorded (log 48), and a value that is not finite is met when it is loaded, before any pivot, as is a sum or a residual that is not (log
31). -/
def Obligations.EngineEvents : Prop :=
  ∀ (s s1 s2 : State) (core : Nat) (c : MCmd) (g : GCmd) (e : EFault) (i : Nat) (xs ys : List (Nat × Nat × Fv)) (bs : List Byte) (sp : Span),
    let act := fun (u : State) (id : Nat) (w : BitVec 6) (a : BitVec 9) (m : Bool) =>
      u.updSlot id fun sl => { sl with world := w, asid := a, mode := m }
    let back := fun (u v : State) (id : Nat) => { v.slot id with world := (u.slot id).world, asid := (u.slot id).asid, mode := (u.slot id).mode }
    let undue := fun (x : MCmd) => { x with due := 0 }
    let pend := fun (b : Bool) (sl : Slot) =>
      if b then { sl with upend := sl.upend ||| 8, ctxWait := sl.ctxWait.map fun x => (x.1, x.2 ||| 8) } else sl
    let tile := c.ctl % 4
    let here := c.slot / 16
    let ran := (s.matrixPart c).1
    let finished : Except EStop Unit := .ok ()
    let wa := codeWidth (descCode c.fa)
    let wb := codeWidth (descCode c.fb)
    let step := min (16 / wa) (16 / wb)
    let n := cfgN c.cfg
    let el := fun (u : State) (r k : Nat) => (u.core here).element tile r k
    let ks := (List.range (cfgK c.cfg)).filter fun k => decide (step * c.pos ≤ k ∧ k < step * (c.pos + 1))
    let pairs := fun (m : Nat) => ks.flatMap fun k => (List.range m).map fun r => (k, r)
    let sum := fun (r k : Nat) => ks.foldl (fun acc q => Fv.add false acc (Fv.mul (groupVal xs q r) (groupVal ys q k))) (.fin false 0 0)
    let m := s.acting c.slot c.world c.asid c.mode fun s => s.matrixPart c
    let due := (s.core core).mq.find? (·.id == c.id) = some c ∧ c.due ≠ 0 ∧ c.due ≤ s.cycle ∧ s.unitWaits (core / 32) (unitReq c.id) = false
    let key := s.key (g.slot / 512) g.world.toNat
    let gl := g.slot / 512
    let gdone := (s.core core).gq.find? (fun x => x.started && decide (x.due ≤ s.cycle)) = some g
    let gsl := s.slot g.slot
    let as : State → State := fun u => act u g.slot g.world g.asid g.mode
    (due →
      (∀ x, m = (s1, .ok x) → c.pos + 1 < c.parts → ∃ (t : State) (d : Nat), exec (.matrixCommandComplete core c.id) s = .next t ∧
        s1.cycle < d ∧ (c.fn = 2 ∨ c.fn = 3 → d = s1.cycle + 1) ∧
        (t.core core).mq = (s1.core core).mq.map (fun x => if x.id = c.id then { x with pos := c.pos + 1, due := d } else x) ∧
        (t.core core).tiles = (s1.core core).tiles ∧ t.slots = s1.slots ∧ t.mem = s1.mem ∧ t.regs = s1.regs) ∧
      (∀ x, m = (s1, .ok x) → c.parts ≤ c.pos + 1 → ∃ t : State, exec (.matrixCommandComplete core c.id) s = .next t ∧
        (t.core core).tiles = (s1.core core).tiles ∧ (t.core core).tables = (s1.core core).tables ∧
        (t.core core).mq.map undue = ((s1.core core).mq.filter fun x => x.id != c.id).map undue ∧
        t.slot c.slot = pend (c.ctl.testBit 8) (s1.slot c.slot) ∧ t.mem = s1.mem ∧ t.regs = s1.regs) ∧
      (m = (s1, .error (.fault e)) → (s1.slot c.slot).terminating = false → (s1.slot c.slot).failures.length < 8 →
        c.slot / 512 < 2 ^ 19 → e.detail ≠ 5 → ∃ t : State, exec (.matrixCommandComplete core c.id) s = .next t ∧
          t.slot c.slot = pend (c.ctl.testBit 8) { s1.slot c.slot with failures := (s1.slot c.slot).failures ++ [⟨c.ticket, 0x10, c.pc⟩] } ∧
          (t.core core).mq.map undue = ((s1.core core).mq.filter fun x => x.id != c.id).map undue ∧
          Logs s1 t (c.slot / 512) 0x02 2 0x10 e.detail ∧ t.mem = s1.mem ∧ t.regs = s1.regs) ∧
      (m = (s1, .error .walk) → exec (.matrixCommandComplete core c.id) s = .next s1)) ∧
    ((c.fn = 2 ∨ c.fn = 3 → descCode c.fa ≠ 1 → descCode c.fb ≠ 1 → c.parts = (cfgK c.cfg + step - 1) / step) ∧
      (c.fn = 4 ∨ c.fn = 5 → let row0 := c.ctl / 2 ^ 16 % 2 ^ 7
        let count := c.ctl / 2 ^ 24 % 2 ^ 7
        c.parts = (if count = 0 then cfgM c.cfg else min (row0 + count) (cfgM c.cfg)) - row0 ∧ ∀ r ∈ nth c.rows i, r = row0 + i)) ∧
    (c.fn = 1 → Rising ((s.core here).tiles.map (·.1)) → (s.matrixPart c).2 = finished ∧ ∀ r k, r < 96 → k < 96 → el ran r k = 0 ∧
      ∀ u, u ≠ tile → u < 4 → (ran.core here).element u r k = (s.core here).element u r k) ∧
    (c.fn = 2 ∨ c.fn = 3 → descCode c.fa ≠ 1 → descCode c.fb ≠ 1 → cfgM c.cfg ≤ 96 → n ≤ 96 →
      s.fetchGroup c false (pairs (cfgM c.cfg)) = (s1, .ok xs) → s1.fetchGroup c true (pairs n) = (s2, .ok ys) →
      (s.matrixPart c).2 = finished ∧ ∀ r k, r < 96 → k < 96 → el ran r k =
        if r < cfgM c.cfg ∧ k < n then fp32.round 0 (Fv.add false (fp32.decode (el s2 r k)) (sum r k)) % 2 ^ 32 else el s2 r k) ∧
    (∀ (isB : Bool) (k r v w : Nat), let d := if isB then c.fb else c.fa
      let code := descCode d
      let panel := if isB then c.b else c.a
      let scale := (if isB then c.sb else c.sa) + 96 * (c.ctl / 2 ^ 48 % 2 ^ 16 + k / 32) + r
      let held := 96 * (if isB then 1 else 0) + r
      let x := decodeCode code ((s.core here).entry (if isB then 1 else 0)) v
      (codeWidth code = 16 → s.fetchCode c panel code k r = s.fetchOperand c (panel + 192 * k + 2 * r) 2) ∧
      (codeWidth code = 8 → s.fetchCode c panel code k r = s.fetchOperand c (panel + 96 * k + r) 1) ∧
      (codeWidth code = 4 → s.fetchOperand c (panel + 48 * k + r / 2) 1 = (s1, .ok v) →
        s.fetchCode c panel code k r = (s1, .ok (v / 2 ^ (4 * (r % 2)) % 2 ^ 4))) ∧
      (s.fetchCode c panel code k r = (s1, .ok v) → (c.fn = 2 ∨ descBs d = false → s.fetchElem c isB k r = (s1, .ok x)) ∧
        (c.fn = 3 → descBs d = true → k % 32 = 0 → s1.fetchOperand c scale 1 = (s2, .ok w) → s.fetchElem c isB k r =
          (s2.updCore here fun q => { q with mq := q.mq.map fun b => if b.id = c.id then { b with scales := mapPut b.scales held w } else b },
            .ok (Fv.mul x (scaleValue w)))) ∧
        (c.fn = 3 → descBs d = true → k % 32 ≠ 0 → ∀ b, (s1.core here).mq.find? (·.id == c.id) = some b →
          s.fetchElem c isB k r = (s1, .ok (Fv.mul x (scaleValue (mapGet b.scales 0 held))))))) ∧
    (c.fn = 5 → nth c.rows c.pos = some i → i < 96 → n ≤ 96 →
      let sz := if c.ctl.testBit 13 then 2 else 4
      s.engineSpans (unitReq c.id) c.slot (c.a + i * c.b) (n * sz) .read true 2 = (s1, .ok [sp]) → s1.readSpans c.slot [sp] = (s2, .ok bs) →
      (s.matrixPart c).2 = finished ∧ ∀ r k, r < 96 → k < 96 → el ran r k =
        if r = i ∧ k < n then (if c.ctl.testBit 13 then bytesNat bs / 2 ^ (16 * k) % 2 ^ 16 * 2 ^ 16 else bytesNat bs / 2 ^ (32 * k) % 2 ^ 32)
        else el s2 r k) ∧
    (c.fn = 4 → nth c.rows c.pos = some i → i < 96 → n ≤ 96 →
      let sz := codeWidth (descCode c.fc) / 8
      let code := fun (v : Nat) => if descCode c.fc = 1 then v
        else if descCode c.fc = 0x10 then encodeTable 128 ((s1.core here).entry (c.ctl / 2 ^ 9 % 2)) (fp32.decode v)
        else encodeBuiltin (descCode c.fc) (c.ctl / 2 ^ 10 % 4) (fp32.decode v)
      s.engineSpans (unitReq c.id) c.slot (c.a + i * c.b) (n * sz) .write true 2 = (s1, .ok [sp]) → sp.n = n * sz → 0 < sp.n →
      sp.place.gpa + sp.n < 2 ^ 64 → Clean s1 (sp.place.gpa / 16 * 16) (sp.n + 32) → Memory.wf s1.mem = true → Rising s1.empties →
      (∀ l, NoBarriers s1 l ∧ (s1.creel l).lwaits = []) →
      (s.matrixPart c).2 = finished ∧
        Stored s1 ran (s1.slotKey c.slot) sp.place.gpa ((List.range n).flatMap fun k => natBytes (code (el s1 i k)) sz) ∧
        (∀ k, k < sp.n → ran.fe (sp.place.gpa + k) = true) ∧
        ∀ r k, r < 96 → k < 96 → el ran r k = if r = i ∧ k < n ∧ c.ctl.testBit 12 = true then 0 else el s1 r k) ∧
    (s.gaussNext core = some g →
      (s.gNext g = (s1, .walk) → exec (.gaussCommandStart core) s = .next s1) ∧
      (∀ k, s.gNext g = (s1, .passed k) → exec (.gaussCommandStart core) s = .next (s1.setGauss core { g with waited := k })) ∧
      (s.gNext g = (s1, .start) →
        let starts := fun (res : GResult) (places : List Nat) => ∃ (t : State) (d : Nat) (ds : List (Nat × Nat)),
          exec (.gaussCommandStart core) s = .next t ∧ s2.cycle < d ∧ ds.map (·.1) = places ∧ (t.core core).gq = (s2.core core).gq.map (fun x =>
            if x.id = g.id then { g with started := true, due := d, result := res, dests := ds } else x) ∧
          (t.core core).gnext = s2.cycle + 8 ∧ t.slot g.slot = back s1 s2 g.slot ∧ t.mem = s2.mem ∧ t.regs = s2.regs ∧
          (∀ f, res = .fault → (as s1).gCompute g = (s2, .error (.fault f)) → f.detail ≠ 5 → Logs s2 t gl 0x03 2 0x10 f.detail)
        (∀ o, (as s1).gCompute g = (s2, .ok o) → (∀ b ∈ runBlocks o.ws, s2.badBlock b = false ∨ runsCover o.ws b = true) →
          starts (.writes o.ws o.v) (o.dests.map (·.va))) ∧
        (∀ o b, (as s1).gCompute g = (s2, .ok o) → b ∈ runBlocks o.ws → s2.badBlock b = true → runsCover o.ws b = false →
          (∀ l, (s2.creel l).lwaits = []) → starts .fault []) ∧
        (∀ k, (as s1).gCompute g = (s2, .error (.fail k)) → starts (.fail k) []) ∧
        (∀ f, (as s1).gCompute g = (s2, .error (.fault f)) → gl < 2 ^ 19 → (∀ l, (s2.creel l).lwaits = []) → starts .fault []))) ∧
    (gdone → g.fn ≠ 6 →
      (∀ ws v, g.result = .writes ws v → Memory.wf s.mem = true → Rising s.empties → s.soft = [] → gl < 2 ^ 19 → NoBarriers s gl →
        (s.creel gl).lwaits = [] → (∀ x ∈ ws, 0 < x.2.1 ∧ x.1 / 2 ^ 45 = gl ∧ (x.1 + x.2.1 - 1) / 2 ^ 45 = gl) →
        (∀ x ∈ ws, x.2.1 = 4 → x.1 % 4 = 0 ∧ x.2.2 < 2 ^ 32) →
        ws.Pairwise (fun x y => x.1 + x.2.1 ≤ y.1 ∨ y.1 + y.2.1 ≤ x.1) → ∃ t : State, exec (.gaussCommandComplete core) s = .next t ∧
          (∀ x ∈ ws, ∀ k, k < x.2.1 → t.byteAs key (x.1 + k) = (natBytes x.2.2 x.2.1).getD k 0 ∧ t.fe (x.1 + k) = true) ∧
          (∀ b, (∀ x ∈ ws, b < x.1 ∨ x.1 + x.2.1 ≤ b) → t.byteAs key b = s.byteAs key b) ∧
          (t.core core).gq = (s.core core).gq.filter (fun x => x.id != g.id) ∧ t.regs = s.regs ∧ OtherSlots s t g.slot ∧
          t.slot g.slot = pend (g.ctl.testBit 8) gsl) ∧
      (∀ k, (g.result = .fail k ∨ (g.result = .fault ∧ k = 0x10)) → gsl.terminating = false → gsl.failures.length < 8 → ∃ t : State,
        exec (.gaussCommandComplete core) s = .next t ∧ (t.core core).gq = (s.core core).gq.filter (fun x => x.id != g.id) ∧
          t.regs = s.regs ∧ SameMemory s t ∧ OtherSlots s t g.slot ∧ t.slot g.slot = pend (g.ctl.testBit 8)
            (if k = 0x10 ∨ g.quiet = false then { gsl with failures := gsl.failures ++ [⟨g.ticket, k, g.pc⟩] }
              else if k = 0x11 then { gsl with gsb := true } else { gsl with gnf := true }))) ∧
    (∀ v, gdone → g.fn = 6 → (g.result = .writes [] v ∨ ((∃ k, g.result = .fail k) ∨ g.result = .fault) ∧ v = 0x7FC00000) → g.reg ≠ 0 →
      (s.entry g.entry).tok = g.id → g.id ≠ 0 → gsl.terminating = false → gsl.failures.length < 8 →
      ∃ t : State, exec (.gaussCommandComplete core) s = .next t ∧ t.entry g.entry = ⟨BitVec.ofNat 64 v, true, false, 0⟩ ∧
        OtherEntries s t (· = g.entry) ∧ (t.core core).gq = (s.core core).gq.filter (fun x => x.id != g.id) ∧ SameMemory s t ∧
        OtherSlots s t g.slot) ∧
    (∀ (u v w : State) (f o r : GRec), let out := fun (x : Except GErr (List (Nat × Nat × Nat))) (d : GRec) => x.map fun ws => GOut.mk ws 0 [d]
      (g.fn = 3 → s.gFactor g g.a false = (u, .ok f) → u.gMsg g g.b true = (v, .ok o) →
        s.gCompute g = (v, out (computeGelim g.tau (g.ctl % 4) f o) o)) ∧
      (g.fn = 4 → s.gMsg g g.a true = (u, .ok o) → u.gMsg g g.b false = (v, .ok r) → s.gCompute g = (v, out (computeGdamp o r) o)) ∧
      (g.fn = 5 → s.gMsg g g.a true = (u, .ok r) → s.gCompute g = (u, out (computeGsolve g.tau (g.ctl.testBit 4) r) r)) ∧
      (g.fn = 6 → s.gMsg g g.a false = (u, .ok o) → u.gMsg g g.b false = (v, .ok r) →
        s.gCompute g = (v, (computeGres o r).map fun x => ⟨[], x, []⟩)) ∧
      (g.fn = 2 → g.ctl.testBit 1 = false → s.gMsg g g.a true = (u, .ok o) → u.gMsg g g.b false = (v, .ok r) →
        s.gCompute g = (v, out (computeGaddMsg (if g.ctl.testBit 0 then gSub else gAdd) o r) o)) ∧
      (∀ (ws : List Nat) (ms : List GRec), let j := g.ctl % 4
        let others := (List.range (min f.v 4)).filter fun k => decide (k ≠ j)
        g.fn = 0 → s.gFactor g g.a false = (u, .ok f) → u.gWords g (others.map fun k => g.b + 8 * k) = (v, .ok ws) →
        v.gMsgs g false ws = (w, .ok ms) → w.gMsg g g.c1 true = (s1, .ok o) →
        s.gCompute g = (s1, out (computeGupd g.tau j f (others.zip ms) o) o)) ∧
      (∀ (first : Nat) (ws : List Nat) (ms : List GRec), g.fn = 1 → g.ctl.testBit 4 = false →
        s.gWords g ((List.range (g.ctl % 16 + 1)).map fun k => g.b + 8 * k) = (u, .ok (first :: ws)) → first ≠ 0 →
        u.gMsg g first false = (v, .ok f) → v.gMsgs g false ws = (w, .ok ms) → w.gMsg g g.a true = (s1, .ok o) →
        s.gCompute g = (s1, out (computeGbel ⟨g.b, 0, 0⟩ (some f) ms o []) o))) ∧
    (∀ (va p : Nat) (dest : Bool), s.gPlace g va 256 256 dest = (s1, .ok p) → (∀ k, k < 256 → setHas s1.bad (unitOf (p + k)) = false) → s1.soft = [] →
      let read := fun (k n : Nat) => s1.readAs (s1.slotKey g.slot) (p + k) n
      let d := read 0 8 % 16
      let kind := read 0 8 / 2 ^ 4 % 16
      if d ≤ 8 ∧ (kind = 0 ∨ kind = 2) then
        ∃ r : GRec, s.gMsg g va dest = (s1, .ok r) ∧ r.va = va ∧ r.gpa = p ∧ r.raw % 2 ^ 64 = read 0 8 ∧ r.d = d ∧
          (∀ k, k < d → r.val (8 + 4 * k) = read (8 + 4 * k) 4) ∧
          ∀ k, k < d * (d + 1) / 2 → r.val (40 + 4 * k) = read (40 + 4 * k) 4
      else s.gMsg g va dest = (s1, .error (.fault ⟨6, va, p⟩))) ∧
    (∀ (o r : GRec) (neg : Bool), let new := (List.range (r.d + r.d * (r.d + 1) / 2)).map fun k =>
        (if neg then fp32.sub else fp32.add) 0 (getNth (oldEntries o r.d) k) (getNth (r.entries r.d) k)
      1 ≤ r.d → (∀ v ∈ r.entries r.d, fpFinite v = true) → OutputOk o r.d new false →
      computeGaddMsg (if neg then gSub else gAdd) o r = .ok (outputWrites o r.d new false (if o.d = 0 then 0 else o.kind))) ∧
    (∀ (tau j : Nat) (f o : GRec) (ms : Nat → GRec) (A : Nat → Nat → Nat → Nat) (H : Nat → Nat → Nat), let others := (List.range f.v).filter fun k => decide (k ≠ j)
      let inJ := fun r => decide (f.off j ≤ r ∧ r < f.off j + f.dim j)
      let fH := fun r => f.val (8 + 4 * r)
      let fA := fun r q => f.val (72 + 4 * (r * f.n - r * (r - 1) / 2 + (q - r)))
      let new := blockOf (A f.n) (H f.n) (f.off j) (f.dim j)
      f.factorOk = true → j < f.v → (∀ r, r < f.n → fpFinite (fH r) = true) →
      (∀ k, k < f.n * (f.n + 1) / 2 → fpFinite (f.val (72 + 4 * k)) = true) → Eliminates f.n tau inJ A H →
      ((∀ r, r < f.n → H 0 r = fH r) → (∀ r q, r ≤ q → q < f.n → A 0 r q = fA r q) → OutputOk o (f.dim j) new false →
        computeGelim tau j f o = .ok (outputWrites o (f.dim j) new false 0)) ∧
      ((∀ k ∈ others, (ms k).d = f.dim k ∧ ∀ r, r < f.dim k → fpFinite ((ms k).val (8 + 4 * r)) = true ∧
          H 0 (f.off k + r) = fp32.add 0 (fH (f.off k + r)) ((ms k).val (8 + 4 * r)) ∧ fpFinite (H 0 (f.off k + r)) = true ∧
          ∀ q, r ≤ q → q < f.dim k → let x := (ms k).val (40 + 4 * (r * f.dim k - r * (r - 1) / 2 + (q - r)))
            fpFinite x = true ∧ A 0 (f.off k + r) (f.off k + q) = fp32.add 0 (fA (f.off k + r) (f.off k + q)) x ∧
              fpFinite (A 0 (f.off k + r) (f.off k + q)) = true) →
        (∀ r, r < f.n → inJ r = true → H 0 r = fH r) →
        (∀ r q, r ≤ q → q < f.n → (∀ k ∈ others, ¬(f.off k ≤ r ∧ q < f.off k + f.dim k)) → A 0 r q = fA r q) →
        OutputOk o (f.dim j) new true →
        computeGupd tau j f (others.map fun k => (k, ms k)) o = .ok (outputWrites o (f.dim j) new true 0))) ∧
    (∀ (list bel : GRec) (prior : Option GRec) (ms outs : List GRec) (d : Nat), let len := d + d * (d + 1) / 2
      let start := (prior.map fun p => p.entries d).getD (List.replicate len 0)
      let add := fun (acc : List Nat) (r : GRec) => (acc.zip (r.entries d)).map fun x => fp32.add 0 x.1 x.2
      let sums := ms.foldl add start
      let out := fun (r : GRec) => (sums.zip (r.entries d)).map fun x => fp32.sub 0 x.1 x.2
      (∃ r ∈ prior.toList ++ ms, r.va ≠ 0) → 1 ≤ d → (∀ r ∈ prior.toList ++ ms, r.d = d ∧ ∀ v ∈ r.entries d, fpFinite v = true) →
      (∀ k, ∀ v ∈ (ms.take k).foldl add start, fpFinite v = true) → OutputOk bel d sums false →
      (∀ x ∈ outs.zip ms, OutputOk x.1 d (out x.2) true) → outs.length ≤ ms.length →
      computeGbel list prior ms bel outs =
        .ok ((outs.zip ms).flatMap (fun x => outputWrites x.1 d (out x.2) true 0) ++ outputWrites bel d sums false 2)) ∧
    (∀ (o r : GRec), 1 ≤ r.d → OutputOk o r.d (r.entries r.d) (decide (o.d ≠ 0)) →
      computeGdamp o r = .ok (outputWrites o r.d (r.entries r.d) (decide (o.d ≠ 0)) o.kind)) ∧
    (∀ (tau : Nat) (diag : Bool) (r : GRec) (A : Nat → Nat → Nat → Nat) (H : Nat → Nat → Nat) (mu sigma : Nat → Nat) (W : Nat → Nat → Nat),
      let d := r.d
      let D := fun p => A p p p
      let L := fun k p => fp32.div 0 (A p p k) (D p)
      let from' := fun (a b : Nat) => (List.range b).filter fun k => decide (a ≤ k)
      let back' := fun p => fun (x k : Nat) => lessProduct x (L k p) (mu k)
      1 ≤ d → (∀ v ∈ r.entries d, fpFinite v = true) → (∀ k, k < d → H 0 k = r.val (8 + 4 * k)) →
      (∀ p q, p ≤ q → q < d → A 0 p q = r.val (40 + 4 * (p * d - p * (p - 1) / 2 + (q - p)))) → Eliminates d tau (fun _ => false) A H →
      (∀ p, p < d → mu p = (from' (p + 1) d).foldl (back' p) (fp32.div 0 (H d p) (D p)) ∧
        FoldFinite (back' p) (fp32.div 0 (H d p) (D p)) (from' (p + 1) d)) →
      (diag = true → ∀ k, k < d →
        let w := W k
        let acc := fun (q : Nat) => fun (x t : Nat) => fp32.fma 0 (L q t) (w t) x false
        let term := fun (x t : Nat) => fp32.add 0 x (fp32.div 0 (fp32.mul 0 (w t) (w t)) (D t))
        w k = 0x3F800000 ∧ (∀ q, k < q → q < d → w q = ((from' k q).foldl (acc q) 0 + 2 ^ 31) % 2 ^ 32 ∧ FoldFinite (acc q) 0 (from' k q)) ∧
        sigma k = (from' k d).foldl term 0 ∧ FoldFinite term 0 (from' k d) ∧
        ∀ t, k ≤ t → t < d → fpFinite (fp32.mul 0 (w t) (w t)) = true ∧ fpFinite (fp32.div 0 (fp32.mul 0 (w t) (w t)) (D t)) = true) →
      computeGsolve tau diag r = .ok ([(r.gpa + 184, 32, wordsNat ((List.range d).map mu ++ List.replicate (8 - d) 0))] ++
        (if diag then [(r.gpa + 216, 32, wordsNat ((List.range d).map sigma ++ List.replicate (8 - d) 0))] else []) ++
        [(r.gpa, 8, r.raw % 2 ^ 64)])) ∧
    (∀ (tau : Nat) (diag : Bool) (r : GRec), 1 ≤ r.d →
      ((∃ v ∈ r.entries r.d, fpFinite v = false) → computeGsolve tau diag r = .error (.fail 0x12)) ∧
      ((∀ v ∈ r.entries r.d, fpFinite v = true) → pivotPasses tau (r.val 40) = false → computeGsolve tau diag r = .error (.fail 0x11))) ∧
    (∀ (a b : GRec),
      (a.d = 0 → computeGres a b = .error (.fault ⟨6, a.va, a.gpa⟩)) ∧ (1 ≤ a.d → b.d ≠ a.d → computeGres a b = .error (.fault ⟨6, b.va, b.gpa⟩)) ∧
      (1 ≤ a.d → b.d = a.d → let x := a.entries a.d
        let y := b.entries a.d
        ((∃ v ∈ x ++ y, fpFinite v = false) → computeGres a b = .error (.fail 0x12)) ∧
        ∀ k m, (∀ v ∈ x ++ y, fpFinite v = true) → k < x.length → (fpUnits (getNth x k) - fpUnits (getNth y k)).natAbs = m →
          (∀ q, q < x.length → (fpUnits (getNth x q) - fpUnits (getNth y q)).natAbs ≤ m) → fpFinite (fp32.round 0 (.fin false m (-149))) = true →
          computeGres a b = .ok (fp32.round 0 (.fin false m (-149)))))

/-! ### Cerern ports (R303 to R305, R360 to R369, R385, R386) -/

/-- R303 to R305, R385, R386: a flit's 256 bytes and its IV; KPEND, rotation of the key, the receiver's two generations, and the two limits of the
counter. R363 to R367: a flit that arrives is acknowledged, ordered and delivered, or discarded and asked for again; replay requests and their
repetition, the resend after an acknowledgement that is late, and idle flits that carry ACK. R367 to R369: lanes fail, a port retrains or goes down,
and its traffic goes over another port. R360, R361: a module is declared lost, and R362: the loss is cleared. The model's choices: that KPEND gives
the receiver its next key, that link control and idle flits stay with their link, that an idle flit follows each flit that passes, and the order of
steps in a port (log 13); that a flit which fails its CRC or tag counts as the next unknown one, that one whose SEQ no counter explains is one whose
tag fails, which of two flits a replay request names, when an ACK counts, and that a discarded request was acknowledged (log 38); AES-GCM and CRC are
uninterpreted (log 14). -/
def Obligations.LinkEvents : Prop :=
  ∀ (s : State) (port word lane k lost m : Nat) (v : BitVec 64) (f : Flit) (r : List Flit) (pay : BitVec 1824),
    let p := s.link port
    let q := s.module m
    let lin := 128 * (port / 32)
    let key := fun (p : Port) => BitVec.ofNat 256 ((mapGet p.kpend 0 0).toNat + (mapGet p.kpend 0 1).toNat * 2 ^ 64 +
      (mapGet p.kpend 0 2).toNat * 2 ^ 128 + (mapGet p.kpend 0 3).toNat * 2 ^ 192)
    let rotated := fun (p : Port) => { p with
      key := key p, gen := p.gen + 1, ctr := 0, warned := false, par := !p.par, pv := false, rot := false, stop := false }
    let p3 := let p := { p with kpend := mapPut p.kpend 3 v }
      { p with pv := true, rpend := key p, rnext := true }
    let steady := fun (p : Port) => p.rot = false ∧ p.stop = false ∧ p.ctr < 2 ^ 64 - 2 ^ 16 ∧ p.unsent = []
    let carries := fun (p : Port) => p.width ≠ 0 ∧ p.retrainAt = 0
    let noReplay := fun (l : List Nat) => ∀ x ∈ l, x % 2 ^ 8 ≠ 1
    let clear := steady p ∧ noReplay p.control
    let current := ∀ x ∈ p.window, x.gen = p.gen.toNat
    let detail := fun (p : Port) (seq : Nat) => port % 32 * 2 ^ 24 + p.fail.toNat * 2 ^ 16 + seq % 2 ^ 16
    let logged := fun (i : Instr) (p' : Port) (code seq : Nat) => ∃ t : State, exec i s = .next t ∧ t.link port = p' ∧
      (∀ j, j ≠ port → t.link j = s.link j) ∧ Logs s t lin 0x0A 0x6 code (detail p' seq) ∧ SameMemory s t ∧ t.slots = s.slots
    let iv := fun (a gen ctr : Nat) => (a / 32 * 2 ^ 20 + a % 32 * 2 ^ 15 + gen) % 2 ^ 32 * 2 ^ 64 + ctr
    let send := fun (a : Nat) (p : Port) (ty payload : Nat) =>
      let hdr := p.ctr % 2 ^ 16 * 2 ^ 48 + p.last * 2 ^ 32 + ty % 16 * 2 ^ 28 + (if p.par then 2 ^ 27 else 0)
      let body := hdr + 2 ^ 64 * (Config.linkSeal p.key (iv a p.gen.toNat p.ctr) hdr payload).toNat
      let image := body + 2 ^ 2016 * (Config.crc32 body).toNat
      { p with
        window := p.window ++ [⟨p.ctr, p.gen.toNat, ty, payload, image, 0⟩], wire := image :: p.wire, ctr := p.ctr + 1, up := true,
        acked := if p.window.isEmpty then s.cycle else p.acked }
    let ask := fun (first n : Nat) => 1 + 2 ^ 8 + (first % 2 ^ 16 * 2 ^ 16 + n) * 2 ^ 64
    let asked := fun (p : Port) (first n : Nat) => send port { p with asks := p.asks ++ [(first, n, s.cycle)] } 6 (ask first n)
    let traffic := (p.window.map (fun x => (x.type_, x.payload)) ++ p.unsent).filter fun x => decide (1 ≤ x.1 ∧ x.1 ≤ 5)
    let down := fun (p : Port) => { p with width := 0, newWidth := 0, retrainAt := 0, up := false, window := [], unsent := [] }
    let goesDown := fun (i : Instr) (p' : Port) (seq : Nat) => ∃ t : State, exec i s = .next t ∧ t.link port = down p' ∧
      Logs s t lin 0x0A 0x6 0x04 (detail p' seq) ∧ SameMemory s t ∧ t.slots = s.slots ∧
      (traffic = [] ∨ s.otherPort port = none → ∀ j, j ≠ port → t.link j = s.link j) ∧
      (∀ o ty x, traffic = [(ty, x)] → s.otherPort port = some o → o / 32 = port / 32 → let y := s.link o
        carries y → steady y → noReplay y.control → y.window.length < 512 → t.link o = send o y ty x ∧
          ∀ j, j ≠ port → j ≠ o → t.link j = s.link j)
    let failed := { p with fail := p.fail ||| BitVec.ofNat 8 (2 ^ lane) }
    let half : BitVec 2 := if 4 ≤ lane then 1 else 2
    let resent := fun (p : Port) (sel : Flit → Bool) => { p with
      window := p.window.map fun x => if sel x then { x with resent := x.resent + 1 } else x
      wire := ((p.window.filter sel).map (·.image)).reverse ++ p.wire
      rpl := BitVec.ofNat 32 (min (p.rpl.toNat + (p.window.filter sel).length) (2 ^ 32 - 1)) }
    let named := fun (x : Flit) => inRanges k x && (p.window.find? fun y => y.ctr % 2 ^ 16 == x.ctr % 2 ^ 16) == some x
    let same := fun (x : Flit) => x.ctr == f.ctr && x.gen == f.gen
    let seq := k / 2 ^ 48 % 2 ^ 16
    let ack := k / 2 ^ 32 % 2 ^ 16
    let ty := k / 2 ^ 28 % 2 ^ 4
    let arrives := carries p ∧ flitCrcOk k = true ∧ k.testBit 27 = p.rpar
    let opens := fun (c : Nat) => Config.linkOpen p.rkey (iv (s.peer port) p.rgen.toNat c) k
    let unacked := ack = p.ackSeq ∨ ∀ x ∈ p.window, x.ctr % 2 ^ 16 ≠ ack
    let idle := fun (p : Port) => if ty = 6 ∧ pay.toNat % 2 ^ 8 = 1 then p else send port p 0 0
    (word < 3 → LinkGets s (.kpendWrite port word v) port { p with kpend := mapPut p.kpend word v }) ∧
    (steady p → LinkGets s (.kpendWrite port 3 v) port p3) ∧
    (p.stop = true → current → p.unsent = [] → LinkGets s (.kpendWrite port 3 v) port (rotated p3)) ∧
    (p.pv = false → LinkGets s (.kctlRotWrite port) port p) ∧
    (p.pv = true → current → p.unsent = [] → LinkGets s (.kctlRotWrite port) port (rotated p)) ∧
    (p.pv = true → ¬current → p.unsent = [] → LinkGets s (.kctlRotWrite port) port { p with rot := true }) ∧
    (2 ^ 64 - 2 ^ 32 ≤ p.ctr → p.pv = false → p.warned = false →
      logged (.ivExhaustionWarning port) { p with warned := true } 0x06 p.ctr) ∧
    (2 ^ 64 - 2 ^ 16 ≤ p.ctr → p.pv = false → p.stop = false → p.unsent = [] →
      logged (.ivLimitReached port) { p with stop := true } 0x05 p.ctr) ∧
    (2 ^ 64 - 2 ^ 16 ≤ p.ctr → p.pv = true → p.stop = false → current → p.unsent = [] →
      LinkGets s (.ivLimitReached port) port (rotated p)) ∧
    LinkGets s (.lstatFailClear port v) port { p with fail := p.fail &&& ~~~(BitVec.ofNat 8 (v.toNat / 2 ^ 8)) } ∧
    (laneWidth p.fail.toNat ≠ 0 → ∃ (t : State) (at_ : Nat), exec (.lstatRetrain port) s = .next t ∧ s.cycle < at_ ∧ at_ ≤ s.cycle + 2 ^ 18 ∧
      t.link port = { p with newWidth := laneWidth p.fail.toNat, retrainAt := at_, up := false } ∧
      t = { s with mods := t.mods, fresh := t.fresh }) ∧
    (laneWidth p.fail.toNat = 0 → goesDown (.lstatRetrain port) p p.ctr) ∧
    (lane < 8 → p.width ≠ 0 →
      (p.newWidth = 3 → ∃ (t : State) (at_ : Nat), exec (.laneFailure port lane) s = .next t ∧ s.cycle < at_ ∧ at_ ≤ s.cycle + 2 ^ 18 ∧
        t.link port = { failed with newWidth := half, retrainAt := at_, up := false } ∧
        Logs s t lin 0x0A 0x6 0x03 (detail failed p.ctr) ∧ SameMemory s t ∧ t.slots = s.slots) ∧
      (p.newWidth = half → LinkGets s (.laneFailure port lane) port failed) ∧
      (p.newWidth ≠ 3 → p.newWidth ≠ half → p.newWidth ≠ 0 → goesDown (.laneFailure port lane) failed p.ctr)) ∧
    (p.retrainAt ≠ 0 → p.retrainAt ≤ s.cycle → p.newWidth ≠ 0 → (∀ x ∈ p.window, x.resent < 7) → p.window.length < 512 → clear →
      let back := resent { p with width := p.newWidth, retrainAt := 0, up := true, acked := s.cycle } fun _ => true
      (p.width = p.newWidth → LinkGets s (.portRetrainComplete port) port back) ∧
      (p.width ≠ p.newWidth → LinkGets s (.portRetrainComplete port) port (send port back 6 (2 + p.newWidth.toNat * 2 ^ 64)))) ∧
    (k ∈ p.control → k % 2 ^ 8 = 1 → (∀ x ∈ p.window, named x = true → x.resent < 7) → steady p →
      let after := resent { p with control := p.control.erase k } named
      (carries p → p.window.length < 512 → noReplay (p.control.erase k) → LinkGets s (.replayRequest port k) port (send port after 0 0)) ∧
      (¬carries p ∨ ¬noReplay (p.control.erase k) → LinkGets s (.replayRequest port k) port after)) ∧
    (∀ n, p.notice n = some k →
      LinkGets s (.widthNotice port n) port { p with control := p.control.erase k, peerWidth := BitVec.ofNat 2 n }) ∧
    (∀ a n c, carries p → p.asks = [(a, n, c)] → c + 4096 ≤ s.cycle → p.expect ≤ a → 0 < n → p.held = [] → clear → p.window.length < 512 →
      LinkGets s (.replayRequestRepeat port) port (send port { p with asks := [(a, n, s.cycle)] } 6 (ask a n))) ∧
    (carries p → p.window = f :: r → p.acked + 16384 ≤ s.cycle →
      ((∀ x ∈ p.window, same x = true → x.resent < 7) → LinkGets s (.ackTimeoutResend port) port (resent { p with acked := s.cycle } same)) ∧
      (7 ≤ f.resent → (∀ x ∈ p.window, same x = true → x = f) →
        goesDown (.ackTimeoutResend port) (resent { p with acked := s.cycle } same) f.ctr)) ∧
    (¬carries p → exec (.flitArrival port k) s = .next s) ∧
    (carries p → flitCrcOk k = false → p.held = [] → clear → p.window.length < 512 → let c := max p.known p.expect
      LinkGets s (.flitArrival port k) port
        (asked { p with crce := BitVec.ofNat 16 (min (p.crce.toNat + 1) 0xFFFF), known := c + 1 } c 1)) ∧
    (arrives → extendSeq p.expect seq = some p.expect → ty ≤ 6 → p.held = [] → clear → opens p.expect = some pay → p.window.length < 512 →
      (∀ a ∈ p.asks, a.1 + a.2.1 ≤ p.expect + 1) →
      let got := { p with
        up := true, expect := p.expect + 1, last := p.expect % 2 ^ 16, known := max p.known (p.expect + 1), asks := []
        control := if ty = 6 then p.control ++ [pay.toNat] else p.control }
      (unacked ∨ p.expect < p.known → LinkGets s (.flitArrival port k) port (idle got)) ∧
      (p.known ≤ p.expect → ack ≠ p.ackSeq → p.window = f :: r → f.ctr % 2 ^ 16 = ack →
        LinkGets s (.flitArrival port k) port (idle { got with window := r, acked := s.cycle, ackSeq := ack }))) ∧
    (∀ c, arrives → extendSeq p.expect seq = some c → p.expect < c → ty ≤ 6 → p.held = [] → p.known ≤ p.expect → clear → opens c = some pay →
      p.window.length < 511 → unacked → LinkGets s (.flitArrival port k) port
        (send port { asked { p with up := true, held := [(c, ty, pay.toNat)] } p.expect (c - p.expect) with known := c + 1 } 0 0)) ∧
    (arrives → (∀ c, extendSeq p.expect seq = some c → opens c = none) → p.held = [] → clear → p.window.length < 512 →
      let n := max p.known p.expect
      logged (.flitArrival port k) (asked { p with known := n + 1 } n 1) 0x02 seq) ∧
    (∀ c, arrives → extendSeq p.expect seq = some c → c < p.expect → ty ≤ 6 → clear → unacked → opens c = some pay → p.window.length < 512 →
      LinkGets s (.flitArrival port k) port (send port { p with up := true } 0 0)) ∧
    (carries p → flitCrcOk k = true → k.testBit 27 ≠ p.rpar → p.rnext = true → p.asks = [] → p.held = [] → seq = 0 → ty ≤ 6 → clear → unacked →
      p.window.length < 512 → Config.linkOpen p.rpend (iv (s.peer port) (p.rgen + 1).toNat 0) k = some pay →
      LinkGets s (.flitArrival port k) port (idle { p with
        up := true, rgen := p.rgen + 1, rpar := !p.rpar, rkey := p.rpend, rother := p.rkey, rnext := false, oexpect := p.expect, expect := 1,
        known := 1, last := 0, asks := [], control := if ty = 6 then p.control ++ [pay.toNat] else p.control })) ∧
    (carries p → flitCrcOk k = true → k.testBit 27 ≠ p.rpar → p.rnext = false → p.rgen = 0 → p.held = [] → clear → p.window.length < 512 →
      let n := max p.known p.expect
      logged (.flitArrival port k) (asked { p with known := n + 1 } n 1) 0x02 seq) ∧
    (m ≠ lost → (mapFind s.mods m).isSome = true → setHas q.mlost lost = false → (∀ c, c < 128 → (s.creel (128 * m + c)).pulls = []) →
      (∀ a ∈ s.accesses, isGld a.kind = false) → ∃ t : State, exec (.lossTimeout m lost) s = .next t ∧ (t.module m).mlost = setAdd q.mlost lost ∧
        (∀ x ∈ s.lostWatches m lost, ((t.slot x.1).watch x.2).state = .lost) ∧ t.regs = s.regs ∧
        (∀ a ∈ t.arms, ¬(a.slot / 512 / 128 = lost ∧ linOf a.gpa / 128 = m)) ∧
        ∀ c, c < 128 → Logs s t (128 * m + c) 0x05 0x5 0x0A
          ((s.lostWatches m lost).filter fun x => x.1 / 512 == 128 * m + c).length) ∧
    (setHas q.mlost lost = false → exec (.mlostClear m lost) s = .next s) ∧
    (setHas q.mlost lost = true → ∃ t : State, exec (.mlostClear m lost) s = .next t ∧ t.module m = { q with mlost := setDel q.mlost lost } ∧
      t = { s with mods := t.mods, arms := t.arms, discarded := t.discarded } ∧
      (∀ x ∈ s.preqs, x.answered = false → x.lin / 128 = lost → linOf x.gpa / 128 = m → x.due ≤ s.cycle → x.id ∈ t.discarded) ∧
      ∀ a, a ∈ t.arms ↔ a ∈ s.arms ∧ ¬(a.slot / 512 / 128 = lost ∧ linOf a.gpa / 128 = m ∧ a.stage = .sent ∧ a.due ≤ s.cycle))
/-! ### The housekeeping controller (R306, R313 to R317, R352, R357, R388 to R393) -/

/-- R316, R317, R392: the supply's sag and the steps of power and heat, with their records. R313, R388: power gating, with the world of a unit's last
user, and waking. R315, R390: a firmware image is checked, again when the module boots, and the floor raised. R306, R389: a world is created, and is
destroyed once the slots that it had have ended. R352, R357: what a scrubber finds. R314, R317, R326, R381, R390, R393: a module after a reset or
a change of its life cycle, whose hosts and whose peers lose it, and R337, R388: a creel that system software resets. What reset leaves where
no rule says it, the image that the module came with, and new link keys are the model's choice (logs 1, 3 and 17); what the sensors show is free
(log 58). Choices too: the free length of a firmware write, the check at boot, the commands that need Owned, when a destroyed world's slots count as
ended, and what CREEL_RESET keeps (log 39); the one step by which a recovery raises the clock, and the units and last users of gating (log 40). -/
def Obligations.HouseEvents : Prop :=
  ∀ (s : State) (m lin core unit addr ag img floor world attr w : Nat),
    let x := s.module m
    let k := s.core core
    let logs := fun (i : Instr) (y : Module) (code cls : Nat) => ∃ t : State, exec i s = .next t ∧ t.module m = y ∧
      (∀ j, j ≠ m → t.module j = s.module j) ∧ Logs s t (128 * m) 0x0C cls code 0 ∧ t = { s with mods := t.mods, creels := t.creels }
    let reads := fun (i : Instr) (y : Module) (code cls : Nat) => ∃ (t : State) (power temp : Nat), exec i s = .next t ∧
      t.module m = { y with power := power, temp := temp } ∧ (∀ j, j ≠ m → t.module j = s.module j) ∧ Logs s t (128 * m) 0x0C cls code 0 ∧
      t = { s with mods := t.mods, creels := t.creels, fresh := t.fresh }
    let slower := { x with clock := if x.clock ≤ 1 then 1 else x.clock - 1 }
    let signedIn := fun (life : LifeCycle) (img : Nat) => match life with
      | .provisioned => Config.makerSigned img
      | .owned => Config.makerSigned img && Config.ownerSigned img
      | _ => false
    let signed := signedIn x.life img
    let version := (Config.imageVersion img).toNat
    let taken := fun (passed : Bool) (last next : Nat) =>
      if x.active = 0 then { x with imageB := ⟨img, version, passed⟩, lastCheck := last, nextActive := next, writing := none }
      else { x with imageA := ⟨img, version, passed⟩, lastCheck := last, nextActive := next, writing := none }
    let begun := fun (due : Nat) =>
      if x.active = 0 then { x with imageB := ⟨img, version, false⟩, writing := some (img, due) }
      else { x with imageA := ⟨img, version, false⟩, writing := some (img, due) }
    let written := ∃ due, x.writing = some (img, due) ∧ due ≤ s.cycle
    let gen := (worldOf x world).gen
    let gone := fun (y : Module) => { y with
      dying := mapDel y.dying world, worlds := mapPut y.worlds world ⟨false, false, false, gen + 1⟩ }
    let unused := (∀ e ∈ s.slots, e.1 / 512 / 128 = m → e.2.world.toNat ≠ world) ∧
      (∀ a, a < 2 → ∀ e ∈ (s.agent m a).ctxs, e.2.en = true → e.2.world ≠ world) ∧
      (∀ e ∈ s.creels, e.1 / 128 = m → ∀ y ∈ e.2.residents, y.2.world ≠ world)
    let dram := gpaOf lin addr / 128 * 128
    let resets := fun (i : Instr) (life : LifeCycle) (change : Bool) =>
      let slot := fun (n : Nat) => if n = 0 then x.imageA else x.imageB
      let ok := fun (n : Nat) => (life = .provisioned ∨ life = .owned) ∧ (slot n).passed = true ∧
        signedIn life (slot n).image = true ∧ x.floor ≤ (slot n).version
      ∃ t : State, exec i s = .next t ∧
      (let y := t.module m
       y.resetAt = s.cycle + 1 ∧ y.life = life ∧ y.imageA = x.imageA ∧ y.imageB = x.imageB ∧ y.floor = x.floor ∧ y.clock = 16 ∧ y.hold = false ∧
       y.droops = 0 ∧ y.mlost = [] ∧ y.dying = [] ∧ y.writing = none ∧
       (∀ n, n < 32 → ∃ a b, t.link (32 * m + n) = { Port.initial with key := a, rkey := b }) ∧
       (∀ n, n < 64 → (worldOf y n).gen = (worldOf x n).gen +
         (if change = true then 2 else if (mapFind x.worlds n).isSome = true then 1 else 0)) ∧
       (ok x.nextActive → y.active = x.nextActive) ∧ (¬ok x.nextActive → ok (1 - x.nextActive) → y.active = 1 - x.nextActive) ∧
       (¬ok x.nextActive → ¬ok (1 - x.nextActive) → y.active = 3) ∧
       (y.active ≠ 3 → ∀ c, c < 128 → ∃ wv, t.slot (512 * (128 * m + c)) = { Slot.idle with
         busy := true, limit := Config.firmwareWindow, pc := Config.firmwareEntry, weave := wv, mode := true }) ∧
       ∀ id, id / 512 / 128 = m → id % 512 ≠ 0 ∨ y.active = 3 → t.slot id = Slot.idle) ∧
      (∀ e ∈ t.regs, e.1 / 2048 / 32 / 128 ≠ m) ∧
      (∀ n, n < 2 → (∀ h, h < 1024 → (t.ctxOf (2 * m + n) h).err = true ∧ (t.ctxOf (2 * m + n) h).en = false) ∧
        ∃ r ∈ (t.creel (128 * m + 64 * n)).recs, r.source = 0x0B ∧ r.words.getD 0 0 / 2 ^ 8 % 2 ^ 8 = 5) ∧
      ∀ j y, j ≠ m → mapFind s.mods j = some y → setHas (t.module j).mlost m = true
    let wipes := fun (i : Instr) => ∀ t : State, exec i s = .next t → ∀ c ∈ t.mem, ∀ l, locLin c.1 = some l → l / 128 ≠ m
    let keeps := fun (i : Instr) => (∀ e ∈ s.mods, e.1 = m) → m < 4096 → Memory.wf s.mem = true → ∀ t : State, exec i s = .next t →
      t.sysRead (128 * m) 0xBF0000 = 1
    ModuleGets s (.droopDetect m) m { x with droop := true, droops := x.droops + 1 } ∧
    ModuleGets s (.droopRecover m) m { x with droop := false } ∧
    reads (.powerLimitStep m) slower 0x24 1 ∧
    reads (.thermalStep m) slower 0x21 1 ∧
    (∃ (t : State) (power temp : Nat), exec (.thermalRecover m) s = .next t ∧
      t.module m = { x with hold := false, clock := min 16 (x.clock + 1), power := power, temp := temp } ∧
      (∀ j, j ≠ m → t.module j = s.module j) ∧ t = { s with mods := t.mods, fresh := t.fresh }) ∧
    reads (.thermalHold m) { x with hold := true, clock := 1 } 0x22 8 ∧
    (s.unitIdle core unit = true → (∀ e ∈ k.l2, e.1 % 16 + 4 ≠ unit) →
      CoreGets s (.powerGating core unit) core { k with gated := mapPut k.gated unit (mapGet k.users 0 unit) }) ∧
    (s.unitIdle core unit = false → exec (.powerGating core unit) s = .next s) ∧
    (mapFind k.gated unit = some w → w < 64 →
      (setHas k.faulty unit = false → CoreGets s (.unitWake core unit) core { k with
        gated := mapDel k.gated unit, tiles := if unit = 0 then [] else k.tiles, tables := if unit = 0 then [] else k.tables }) ∧
      (setHas k.faulty unit = true → ∃ t : State, exec (.unitWake core unit) s = .next t ∧
        t.core core = { k with gated := mapPut k.gated unit (64 + w) } ∧ Logs s t (core / 32) 0x0C 7 0x30 0 ∧
        t = { s with cores := t.cores, creels := t.creels })) ∧
    (¬written → ∃ (t : State) (due : Nat), exec (.firmwareImageWrite m img) s = .next t ∧ s.cycle < due ∧ t.module m = begun due ∧
      (∀ j, j ≠ m → t.module j = s.module j) ∧ t = { s with mods := t.mods, fresh := t.fresh }) ∧
    (written → signed = true → x.floor ≤ version →
      ModuleGets s (.firmwareImageWrite m img) m (taken true 1 (if x.active = 0 then 1 else 0))) ∧
    (∀ keeps, written → keeps = (if x.active = 3 then 1 else x.active) →
      (signed = false → logs (.firmwareImageWrite m img) (taken false 2 keeps) 0x10 8) ∧
      (signed = true → version < x.floor → logs (.firmwareImageWrite m img) (taken false 3 keeps) 0x11 8)) ∧
    (x.life = .owned → floor ≤ x.activeVersion → ModuleGets s (.floorRaise m floor) m { x with floor := max x.floor floor }) ∧
    (x.life = .owned → x.activeVersion < floor → logs (.floorRaise m floor) x 0x12 8) ∧
    (x.life = .owned → 0 < world → world < 64 →
      ((worldOf x world).live = false → ModuleGets s (.worldCreate m world attr) m { x with
        worlds := mapPut x.worlds world ⟨true, attr.testBit 0, attr.testBit 1, gen⟩ }) ∧
      ((worldOf x world).live = true → mapFind x.dying world = none → unused →
        ModuleGets s (.worldDestroy m world) m (gone { x with dying := mapPut x.dying world [] })) ∧
      ((worldOf x world).live = true → mapFind x.dying world = none → (∀ l, (s.creel l).bwaits = []) →
        (∀ a, a < 2 → ∀ e ∈ (s.agent m a).ctxs, e.2.en = true → e.2.world ≠ world) →
        (∀ e ∈ s.creels, e.1 / 128 = m → ∀ y ∈ e.2.residents, y.2.world ≠ world) → ∃ t : State, exec (.worldDestroy m world) s = .next t ∧
          ∀ id, (id, s.slot id) ∈ s.slots → id / 512 / 128 = m → (s.slot id).world.toNat = world → (s.slot id).busy = true →
            (t.slot id).terminating = true ∧ (t.slot id).wait = .hold)) ∧
    (∀ l, 0 < world → world < 64 → mapFind x.dying world = some l →
      let ended := ∀ e ∈ l, (s.slot e.1).busy = false ∨ (s.slot e.1).weave ≠ e.2
      (¬ended → exec (.worldDestroy m world) s = .next s) ∧
      (ended → (∀ e ∈ l, (s.slot e.1).slock = false) → ModuleGets s (.worldDestroy m world) m (gone x)) ∧
      (ended → ∃ t : State, exec (.worldDestroy m world) s = .next t ∧ t.module m = gone x ∧ ∀ e ∈ l, (t.slot e.1).slock = false)) ∧
    (lin < 2 ^ 19 → isDram addr = true →
      (setHas s.bad dram = true → (s.creel lin).lwaits = [] → ∃ t : State, exec (.dramScrubRead lin addr) s = .next t ∧
        Logs s t lin 0x08 4 0x09 2 ∧ t = { s with creels := t.creels }) ∧
      (setHas s.bad dram = false → Rising s.soft → ∃ t : State, exec (.dramScrubRead lin addr) s = .next t ∧ setHas t.soft dram = false) ∧
      (setHas s.bad dram = false → setHas s.soft dram = false → exec (.dramScrubRead lin addr) s = .next s)) ∧
    (lin < 2 ^ 19 → isSram addr = true → Rising s.soft → ∃ t : State, exec (.sramScrubRead lin addr) s = .next t ∧
      ∀ i, i < 16 → setHas s.bad (gpaOf lin addr / 128 * 128 + 8 * i) = false → setHas t.soft (gpaOf lin addr / 128 * 128 + 8 * i) = false) ∧
    (ag < 8192 → addr < 2 ^ 23 → Rising s.soft → let row := agentGpa (ag / 2) (ag % 2) addr / 128 * 128
      ∃ t : State, exec (.agentScrubRead ag addr) s = .next t ∧
        ∀ i, i < 16 → setHas s.bad (row + 8 * i) = false → setHas t.soft (row + 8 * i) = false) ∧
    ((mapFind s.mods m).isSome = true →
      resets (.moduleReset m) x.life false ∧ resets (.thermalReset m) x.life false ∧ resets (.supplyUndervoltReset m) x.life false ∧
      resets (.stretchLimitReset m) x.life false ∧ wipes (.moduleReset m) ∧ keeps (.thermalReset m) ∧ keeps (.supplyUndervoltReset m) ∧
      keeps (.stretchLimitReset m) ∧
      (x.life = .blank → resets (.provision m) .provisioned true ∧ wipes (.provision m)) ∧
      (x.life = .provisioned → resets (.ownerKeyInstall m) .owned true ∧ wipes (.ownerKeyInstall m)) ∧
      (x.life = .owned → resets (.ownerRelease m) .provisioned true ∧ wipes (.ownerRelease m) ∧
        resets (.retire m) .retired true ∧ wipes (.retire m))) ∧
    ((s.module (lin / 128)).active = 3 → exec (.creelReset lin) s = .next s) ∧
    ((s.module (lin / 128)).active ≠ 3 → (∀ c, c < 24 → (s.core (32 * lin + c)).l2 = []) → Rising (s.slots.map (·.1)) → Rising (s.tags.map (·.1)) → Memory.wf s.mem = true →
      ∃ t : State, exec (.creelReset lin) s = .next t ∧
      (∃ wv, t.slot (512 * lin) = { Slot.idle with
        busy := true, limit := Config.firmwareWindow, pc := Config.firmwareEntry, weave := wv, mode := true }) ∧
      (∀ id, id / 512 = lin → id % 512 ≠ 0 → t.slot id = Slot.idle) ∧ (∀ id, id / 512 ≠ lin → t.slot id = s.slot id) ∧
      (∀ c ∈ t.mem, locLin c.1 = some lin → locSpace c.1 = 0 ∧ (isDram (lpaOf (locGpa c.1)) = true ∨ isAgent (lpaOf (locGpa c.1)) = true)) ∧
      ∀ key loc, locLin loc ≠ some lin ∨ locSpace loc = 0 ∧ (isDram (lpaOf (locGpa loc)) = true ∨ isAgent (lpaOf (locGpa loc)) = true) →
        t.byteAs key loc = s.byteAs key loc)
/-! ### Encoding (R6, R130, R133 to R135, R339, R341, R342, R343) -/

/-- Words that the spec writes out decode to the instructions it gives for them (R52, R55, R139, R154, R156 to R161, R166, R167, R170, R172, R173,
R177, R182, R190, R192, R204, R211, R228, R255, R275, R285, R293), and words with an unassigned code, a nonzero reserved field or a value
that the form does not accept to none (R135, R341). -/
def Obligations.DecodeWords : Prop :=
  (∀ p ∈ ([(0x04514120, .add 10 20 9), (0x2828683F, .srai 5 6 63), (0x30302000, .mkg 6 2), (0x44200FFC, .bne 4 0 0xFFC),
      (0x60001000, .jalr 0 1 0), (0x60089000, .jalr 1 9 0), (0x64030840, .coil 0 3 1 1 0), (0x64421080, .coil 1 2 2 2 0), (0x68000000, .join),
      (0x68386006, .votecnt 7 6), (0x80209808, .ld 4 9 4 2 0), (0x84284C00, .st 5 4 6 0 0), (0x8838A208, .ldfe 7 10 2 0),
      (0x8C206C02, .gld 4 6 6 0 2), (0x90289192, .acasD 5 9 12), (0x94289195, .afadd 5 9 12 1), (0x98289141, .bara 5 9 10),
      (0x9C289140, .putx 5 9 10), (0xA0000002, .fenceI), (0xA5090000, .vld 2 9 0), (0xA8A71003, .vfma 1 2 3 4 1 0 0), (0xBD894B00, .vbuck 3 9 2 1),
      (0xC0600000, .mcfg 12 0), (0xC0000161, .mzero 11), (0xC048A162, .mma 9 10 11), (0xC068E164, .mout 13 14 11), (0xC0000008, .msync),
      (0xC450B180, .pull 10 11 12), (0xC42860E7, .watch 5 6 7), (0xC44000E9, .wwait 8 7), (0xC848A180, .gupd 9 10 12), (0xC858C2C1, .gbel 11 12 22),
      (0xC8000007, .gsync), (0xCC289140, .tqput 5 9 10), (0xCC289001, .tqget 5 9), (0xCC000002, .exit), (0xCC300004, .sleep 6),
      (0xD0009000, .trap 9), (0xD0009143, .csave 9 10), (0xD0009006, .scrub 9), (0xD448A000, .l2wb 9 10), (0xD448A003, .rinv 9 10),
      (0xD8280000, .mfs 5 0), (0xDC006013, .mts 6 0x013)] : List (BitVec 32 × Instr)),
    decodeWord p.1 0 = .ok p.2 ∧ encode p.2 = [p.1]) ∧
  decodeWord 0x34284000 0x00100400 = .ok (.liu 5 0x00100400) ∧
  (∀ w ∈ ([0x00100400, 0x0001FE00, 0x64030841, 0x04000018, 0x98000004, 0xC000000B, 0xC8000008, 0xCC080002, 0xD0001001] : List (BitVec 32)),
    (∀ i, decodeWord w 0 ≠ .ok i) ∧ decodeOrIllegal w 0 = .illegalInstruction w)

/-- R6, R130, R133 to R135, R342: every well-formed instruction's words, laid out as memory holds them, decode to it, whatever follows; and a run
of bytes that decodes begins with the words of a well-formed instruction. So no two instructions share a word. -/
def Obligations.EncodeDecode : Prop :=
  (∀ (i : Instr) (rest : List (BitVec 8)), i.wf = true → encode i ≠ [] → (∀ w, i ≠ .illegalInstruction w) →
    decodeBytes (encodeBytes i ++ rest) = .ok (i, rest)) ∧
  ∀ (bs rest : List (BitVec 8)) (i : Instr), decodeBytes bs = .ok (i, rest) → i.wf = true ∧ bs = encodeBytes i ++ rest

/-! ### Steps -/

/-- R44, R47, R48, R76, R341, R343: when nothing from outside and no event is due, the slot whose turn it is runs the instruction that the bytes
at its program counter decode to, or the word at the head of its queue. A word that decodes to nothing runs as the illegal word. `step` adds
that the slot is the current one, and that a unit which the instruction needs notes its world (R313). A step from outside runs as it is. -/
def Obligations.StepRunsDecoded : Prop :=
  ∀ (s : State) (id : Nat) (rest : List Nat) (w x : BitVec 32) (o : Instr) (os : List Instr),
    let s1 := { s with turnq := rest, cur := id }
    let sl := s.slot id
    let at_ := fun (va : Nat) (v : BitVec 32) => va < 2 ^ 47 ∧ ∃ (e : Tlb) (p : Place),
      (s.core (id / 16)).tlb.find? (fun e => e.hit sl.asid.toNat false sl.world.toNat va) = some e ∧
      s.fetchPlace (id / 512) va sl.mode e = .ok p ∧ p.gpa / 8 ∈ (s.core (id / 16)).icache ∧
      v = BitVec.ofNat 32 (s.readAs (s.slotKey id) (strandLoc (id / 16) p.gpa) 4)
    let noted := fun (s : State) => match s.unitFor id w with
      | some (c, u) => s.useUnit id c u
      | none => s
    let awake := fun (s : State) => ∀ c u, s.unitFor id w = some (c, u) → mapFind (s.core c).gated u = none
    let runs := fun (s2 : State) => (∀ i, decodeWord w x = .ok i → step s = exec i (noted s2)) ∧
      (∀ e, decodeWord w x = .error e → step s = exec (.illegalInstruction w) (noted s2))
    (s.inputs = o :: os → fromOutside o = true → step s = exec o { s with inputs := os }) ∧
    (s.inputs = [] → s.dueEvent = none → s.turnq = id :: rest → sl.busy = true → sl.terminating = false → s1.timerTakes id = false →
      s1.userTakes id = false → sl.wait.boundary = true → sl.replay = none →
      (sl.member ≠ .attached → at_ sl.pc w → (w.toNat / 2 ^ 26 = 0x0D → at_ (sl.pc + 4) x) → (w.toNat / 2 ^ 26 ≠ 0x0D → x = 0) →
        (sl.xfer = false → awake s1 → runs s1) ∧
        (∀ s2, sl.xfer = true → s1.extensionTest (sweepReq id) (id / 512) sl.asid.toNat sl.world.toNat (s.slotKey id) sl.pc sl.mode
          (s.core (id / 16)).icache (strandLoc (id / 16)) w = (s2, .word w) → s2.cur = id → awake s2 → runs s2)) ∧
      (∀ e q, sl.member = .attached → sl.queue = e :: q → e.at_ + 2 ≤ s.cycle → e.fault = none → e.word = w → e.ext = x → awake s1 → runs s1))

/-- Reset: every slot but slot 0 of core 0 of each creel of the module is idle, and that one is in supervisor mode (R326); every register is zero
and present, every byte of memory reads zero under every key, and every word is full (R83, R311, R326); the cycle count is zero (R1). Which address and
window firmware has, and registers whose reset no rule gives, are the model's choice (logs 1, 3 and 17). -/
def Obligations.ResetState : Prop :=
  MemoryOk State.reset ∧
  (∀ key loc, State.reset.byteAs key loc = 0) ∧ (∀ gpa, State.reset.fe gpa = true) ∧
  (∀ e, State.reset.entry e = Reg.initial) ∧ Reg.initial.val = 0 ∧ Reg.initial.pres = true ∧
  (∀ lin, lin < 128 → let sl := State.reset.slot (512 * lin)
    sl.busy = true ∧ sl.mode = true ∧ sl.pc = Config.firmwareEntry ∧ sl.member = .strand ∧ sl.uvec = 0 ∧ sl.uepc = 0 ∧ sl.upend = 0 ∧ sl.umask = 0 ∧
      sl.utimer = 0 ∧ sl.sepc = 0 ∧ sl.scause = 0 ∧ sl.stval = 0 ∧ sl.nosave = false ∧ sl.nest = false ∧ sl.uf = false ∧ sl.pm = false ∧
      sl.slock = false ∧ sl.sbase = 0 ∧ sl.sbound = 0 ∧ sl.stimer = 0 ∧ (∀ k, (sl.watch k).state = .free)) ∧
  (∀ id, id % 512 ≠ 0 ∨ 65536 ≤ id → State.reset.slot id = Slot.idle) ∧
  (∀ lin, (State.reset.creel lin).svec = 0 ∧ ∀ k, mapGet (State.reset.creel lin).hmask 0 k = 0) ∧
  State.reset.cycle - (State.reset.module 0).resetAt = 0

/-- R3, R308, the canonical form of memory is kept: whatever a step does, memory lists rising addresses and no zero byte. The form is the model's own. -/
def Obligations.StepKeepsMemory : Prop :=
  ∀ s t : State, MemoryOk s → step s = .next t → MemoryOk t
end

