-- ==== Sys2Proof/Laws/Exec.lean ====
section
/-!
SUPPORT. What exec answers for each constructor: its meaning. These stand in place of unfolding the dispatch.
-/

namespace Sys2Proof.Laws

open Sys2Proof Sys2Proof.Machine

@[simp] theorem exec_add d a b (s : State) : exec (.add d a b) s = execAdd d a b s := rfl
@[simp] theorem exec_sub d a b (s : State) : exec (.sub d a b) s = execSub d a b s := rfl
@[simp] theorem exec_and d a b (s : State) : exec (.and d a b) s = execAnd d a b s := rfl
@[simp] theorem exec_or d a b (s : State) : exec (.or d a b) s = execOr d a b s := rfl
@[simp] theorem exec_xor d a b (s : State) : exec (.xor d a b) s = execXor d a b s := rfl
@[simp] theorem exec_andn d a b (s : State) : exec (.andn d a b) s = execAndn d a b s := rfl
@[simp] theorem exec_sll d a b (s : State) : exec (.sll d a b) s = execSll d a b s := rfl
@[simp] theorem exec_srl d a b (s : State) : exec (.srl d a b) s = execSrl d a b s := rfl
@[simp] theorem exec_sra d a b (s : State) : exec (.sra d a b) s = execSra d a b s := rfl
@[simp] theorem exec_rotr d a b (s : State) : exec (.rotr d a b) s = execRotr d a b s := rfl
@[simp] theorem exec_mins d a b (s : State) : exec (.mins d a b) s = execMins d a b s := rfl
@[simp] theorem exec_maxs d a b (s : State) : exec (.maxs d a b) s = execMaxs d a b s := rfl
@[simp] theorem exec_minu d a b (s : State) : exec (.minu d a b) s = execMinu d a b s := rfl
@[simp] theorem exec_maxu d a b (s : State) : exec (.maxu d a b) s = execMaxu d a b s := rfl
@[simp] theorem exec_slt d a b (s : State) : exec (.slt d a b) s = execSlt d a b s := rfl
@[simp] theorem exec_sltu d a b (s : State) : exec (.sltu d a b) s = execSltu d a b s := rfl
@[simp] theorem exec_seq d a b (s : State) : exec (.seq d a b) s = execSeq d a b s := rfl
@[simp] theorem exec_sne d a b (s : State) : exec (.sne d a b) s = execSne d a b s := rfl
@[simp] theorem exec_addw d a b (s : State) : exec (.addw d a b) s = execAddw d a b s := rfl
@[simp] theorem exec_subw d a b (s : State) : exec (.subw d a b) s = execSubw d a b s := rfl
@[simp] theorem exec_sllw d a b (s : State) : exec (.sllw d a b) s = execSllw d a b s := rfl
@[simp] theorem exec_srlw d a b (s : State) : exec (.srlw d a b) s = execSrlw d a b s := rfl
@[simp] theorem exec_sraw d a b (s : State) : exec (.sraw d a b) s = execSraw d a b s := rfl
@[simp] theorem exec_sel d a b (s : State) : exec (.sel d a b) s = execSel d a b s := rfl
@[simp] theorem exec_mul d a b (s : State) : exec (.mul d a b) s = execMul d a b s := rfl
@[simp] theorem exec_mulh d a b (s : State) : exec (.mulh d a b) s = execMulh d a b s := rfl
@[simp] theorem exec_mulhu d a b (s : State) : exec (.mulhu d a b) s = execMulhu d a b s := rfl
@[simp] theorem exec_mulw d a b (s : State) : exec (.mulw d a b) s = execMulw d a b s := rfl
@[simp] theorem exec_mad d a b (s : State) : exec (.mad d a b) s = execMad d a b s := rfl
@[simp] theorem exec_div d a b (s : State) : exec (.div d a b) s = execDiv d a b s := rfl
@[simp] theorem exec_divu d a b (s : State) : exec (.divu d a b) s = execDivu d a b s := rfl
@[simp] theorem exec_rem d a b (s : State) : exec (.rem d a b) s = execRem d a b s := rfl
@[simp] theorem exec_remu d a b (s : State) : exec (.remu d a b) s = execRemu d a b s := rfl
@[simp] theorem exec_divw d a b (s : State) : exec (.divw d a b) s = execDivw d a b s := rfl
@[simp] theorem exec_remw d a b (s : State) : exec (.remw d a b) s = execRemw d a b s := rfl
@[simp] theorem exec_clz d a (s : State) : exec (.clz d a) s = execClz d a s := rfl
@[simp] theorem exec_ctz d a (s : State) : exec (.ctz d a) s = execCtz d a s := rfl
@[simp] theorem exec_popc d a (s : State) : exec (.popc d a) s = execPopc d a s := rfl
@[simp] theorem exec_brev d a (s : State) : exec (.brev d a) s = execBrev d a s := rfl
@[simp] theorem exec_bswap d a (s : State) : exec (.bswap d a) s = execBswap d a s := rfl
@[simp] theorem exec_bfx d a b (s : State) : exec (.bfx d a b) s = execBfx d a b s := rfl
@[simp] theorem exec_bfxu d a b (s : State) : exec (.bfxu d a b) s = execBfxu d a b s := rfl
@[simp] theorem exec_bfi d a b (s : State) : exec (.bfi d a b) s = execBfi d a b s := rfl
@[simp] theorem exec_sext d a b (s : State) : exec (.sext d a b) s = execSext d a b s := rfl
@[simp] theorem exec_addi d a i (s : State) : exec (.addi d a i) s = execAddi d a i s := rfl
@[simp] theorem exec_andi d a i (s : State) : exec (.andi d a i) s = execAndi d a i s := rfl
@[simp] theorem exec_ori d a i (s : State) : exec (.ori d a i) s = execOri d a i s := rfl
@[simp] theorem exec_xori d a i (s : State) : exec (.xori d a i) s = execXori d a i s := rfl
@[simp] theorem exec_slti d a i (s : State) : exec (.slti d a i) s = execSlti d a i s := rfl
@[simp] theorem exec_sltiu d a i (s : State) : exec (.sltiu d a i) s = execSltiu d a i s := rfl
@[simp] theorem exec_slli d a s_ (s : State) : exec (.slli d a s_) s = execSlli d a s_ s := rfl
@[simp] theorem exec_srli d a s_ (s : State) : exec (.srli d a s_) s = execSrli d a s_ s := rfl
@[simp] theorem exec_srai d a s_ (s : State) : exec (.srai d a s_) s = execSrai d a s_ s := rfl
@[simp] theorem exec_rotri d a s_ (s : State) : exec (.rotri d a s_) s = execRotri d a s_ s := rfl
@[simp] theorem exec_lea d a b s_ (s : State) : exec (.lea d a b s_) s = execLea d a b s_ s := rfl
@[simp] theorem exec_mkg d a (s : State) : exec (.mkg d a) s = execMkg d a s := rfl
@[simp] theorem exec_li d imm (s : State) : exec (.li d imm) s = execLi d imm s := rfl
@[simp] theorem exec_liu d imm (s : State) : exec (.liu d imm) s = execLiu d imm s := rfl
@[simp] theorem exec_lihi d imm (s : State) : exec (.lihi d imm) s = execLihi d imm s := rfl
@[simp] theorem exec_addl d imm (s : State) : exec (.addl d imm) s = execAddl d imm s := rfl
@[simp] theorem exec_andl d imm (s : State) : exec (.andl d imm) s = execAndl d imm s := rfl
@[simp] theorem exec_orl d imm (s : State) : exec (.orl d imm) s = execOrl d imm s := rfl
@[simp] theorem exec_xorl d imm (s : State) : exec (.xorl d imm) s = execXorl d imm s := rfl
@[simp] theorem exec_beq a b o (s : State) : exec (.beq a b o) s = execBeq a b o s := rfl
@[simp] theorem exec_bne a b o (s : State) : exec (.bne a b o) s = execBne a b o s := rfl
@[simp] theorem exec_blt a b o (s : State) : exec (.blt a b o) s = execBlt a b o s := rfl
@[simp] theorem exec_bge a b o (s : State) : exec (.bge a b o) s = execBge a b o s := rfl
@[simp] theorem exec_bltu a b o (s : State) : exec (.bltu a b o) s = execBltu a b o s := rfl
@[simp] theorem exec_bgeu a b o (s : State) : exec (.bgeu a b o) s = execBgeu a b o s := rfl
@[simp] theorem exec_j o (s : State) : exec (.j o) s = execJ o s := rfl
@[simp] theorem exec_jal o (s : State) : exec (.jal o) s = execJal o s := rfl
@[simp] theorem exec_jalr d a i (s : State) : exec (.jalr d a i) s = execJalr d a i s := rfl
@[simp] theorem exec_coil n r s_ t u (s : State) : exec (.coil n r s_ t u) s = execCoil n r s_ t u s := rfl
@[simp] theorem exec_join (s : State) : exec (.join) s = execJoin s := rfl
@[simp] theorem exec_leave (s : State) : exec (.leave) s = execLeave s := rfl
@[simp] theorem exec_detach (s : State) : exec (.detach) s = execDetach s := rfl
@[simp] theorem exec_lag d (s : State) : exec (.lag d) s = execLag d s := rfl
@[simp] theorem exec_voteany d a (s : State) : exec (.voteany d a) s = execVoteany d a s := rfl
@[simp] theorem exec_voteall d a (s : State) : exec (.voteall d a) s = execVoteall d a s := rfl
@[simp] theorem exec_votecnt d a (s : State) : exec (.votecnt d a) s = execVotecnt d a s := rfl
@[simp] theorem exec_votemax d a (s : State) : exec (.votemax d a) s = execVotemax d a s := rfl
@[simp] theorem exec_ld t b z o r (s : State) : exec (.ld t b z o r) s = execLd t b z o r s := rfl
@[simp] theorem exec_st t b z o r (s : State) : exec (.st t b z o r) s = execSt t b z o r s := rfl
@[simp] theorem exec_ldf t b o r (s : State) : exec (.ldf t b o r) s = execLdf t b o r s := rfl
@[simp] theorem exec_ldfe t b o r (s : State) : exec (.ldfe t b o r) s = execLdfe t b o r s := rfl
@[simp] theorem exec_stfe t b o r (s : State) : exec (.stfe t b o r) s = execStfe t b o r s := rfl
@[simp] theorem exec_stf t b o r (s : State) : exec (.stf t b o r) s = execStf t b o r s := rfl
@[simp] theorem exec_sete b o r (s : State) : exec (.sete b o r) s = execSete b o r s := rfl
@[simp] theorem exec_gld t b z o r (s : State) : exec (.gld t b z o r) s = execGld t b z o r s := rfl
@[simp] theorem exec_aaddD d a v c (s : State) : exec (.aaddD d a v c) s = execAaddD d a v c s := rfl
@[simp] theorem exec_aandD d a v c (s : State) : exec (.aandD d a v c) s = execAandD d a v c s := rfl
@[simp] theorem exec_aorD d a v c (s : State) : exec (.aorD d a v c) s = execAorD d a v c s := rfl
@[simp] theorem exec_axorD d a v c (s : State) : exec (.axorD d a v c) s = execAxorD d a v c s := rfl
@[simp] theorem exec_aminD d a v c (s : State) : exec (.aminD d a v c) s = execAminD d a v c s := rfl
@[simp] theorem exec_amaxD d a v c (s : State) : exec (.amaxD d a v c) s = execAmaxD d a v c s := rfl
@[simp] theorem exec_aminuD d a v c (s : State) : exec (.aminuD d a v c) s = execAminuD d a v c s := rfl
@[simp] theorem exec_amaxuD d a v c (s : State) : exec (.amaxuD d a v c) s = execAmaxuD d a v c s := rfl
@[simp] theorem exec_aswapD d a v (s : State) : exec (.aswapD d a v) s = execAswapD d a v s := rfl
@[simp] theorem exec_acasD d a v (s : State) : exec (.acasD d a v) s = execAcasD d a v s := rfl
@[simp] theorem exec_aaddW d a v c (s : State) : exec (.aaddW d a v c) s = execAaddW d a v c s := rfl
@[simp] theorem exec_aandW d a v c (s : State) : exec (.aandW d a v c) s = execAandW d a v c s := rfl
@[simp] theorem exec_aorW d a v c (s : State) : exec (.aorW d a v c) s = execAorW d a v c s := rfl
@[simp] theorem exec_axorW d a v c (s : State) : exec (.axorW d a v c) s = execAxorW d a v c s := rfl
@[simp] theorem exec_aminW d a v c (s : State) : exec (.aminW d a v c) s = execAminW d a v c s := rfl
@[simp] theorem exec_amaxW d a v c (s : State) : exec (.amaxW d a v c) s = execAmaxW d a v c s := rfl
@[simp] theorem exec_aminuW d a v c (s : State) : exec (.aminuW d a v c) s = execAminuW d a v c s := rfl
@[simp] theorem exec_amaxuW d a v c (s : State) : exec (.amaxuW d a v c) s = execAmaxuW d a v c s := rfl
@[simp] theorem exec_aswapW d a v (s : State) : exec (.aswapW d a v) s = execAswapW d a v s := rfl
@[simp] theorem exec_acasW d a v (s : State) : exec (.acasW d a v) s = execAcasW d a v s := rfl
@[simp] theorem exec_afadd d a v c (s : State) : exec (.afadd d a v c) s = execAfadd d a v c s := rfl
@[simp] theorem exec_afmin d a v c (s : State) : exec (.afmin d a v c) s = execAfmin d a v c s := rfl
@[simp] theorem exec_afmax d a v c (s : State) : exec (.afmax d a v c) s = execAfmax d a v c s := rfl
@[simp] theorem exec_bari a b (s : State) : exec (.bari a b) s = execBari a b s := rfl
@[simp] theorem exec_bara d a b (s : State) : exec (.bara d a b) s = execBara d a b s := rfl
@[simp] theorem exec_barw d a b (s : State) : exec (.barw d a b) s = execBarw d a b s := rfl
@[simp] theorem exec_bart d a b (s : State) : exec (.bart d a b) s = execBart d a b s := rfl
@[simp] theorem exec_putx d a b (s : State) : exec (.putx d a b) s = execPutx d a b s := rfl
@[simp] theorem exec_emptyx d a (s : State) : exec (.emptyx d a) s = execEmptyx d a s := rfl
@[simp] theorem exec_spawn d a b (s : State) : exec (.spawn d a b) s = execSpawn d a b s := rfl
@[simp] theorem exec_fence (s : State) : exec (.fence) s = execFence s := rfl
@[simp] theorem exec_fenceE (s : State) : exec (.fenceE) s = execFenceE s := rfl
@[simp] theorem exec_fenceI (s : State) : exec (.fenceI) s = execFenceI s := rfl
@[simp] theorem exec_vld w a m (s : State) : exec (.vld w a m) s = execVld w a m s := rfl
@[simp] theorem exec_vst w a m (s : State) : exec (.vst w a m) s = execVst w a m s := rfl
@[simp] theorem exec_vlds w a b m (s : State) : exec (.vlds w a b m) s = execVlds w a b m s := rfl
@[simp] theorem exec_vsts w a b m (s : State) : exec (.vsts w a b m) s = execVsts w a b m s := rfl
@[simp] theorem exec_vldx w a i m (s : State) : exec (.vldx w a i m) s = execVldx w a i m s := rfl
@[simp] theorem exec_vstx w a i m (s : State) : exec (.vstx w a i m) s = execVstx w a i m s := rfl
@[simp] theorem exec_vadd d a b m y r (s : State) : exec (.vadd d a b m y r) s = execVadd d a b m y r s := rfl
@[simp] theorem exec_vsub d a b m y r (s : State) : exec (.vsub d a b m y r) s = execVsub d a b m y r s := rfl
@[simp] theorem exec_vmul d a b m y r (s : State) : exec (.vmul d a b m y r) s = execVmul d a b m y r s := rfl
@[simp] theorem exec_vfma d a b c m y r (s : State) : exec (.vfma d a b c m y r) s = execVfma d a b c m y r s := rfl
@[simp] theorem exec_vmin d a b m y (s : State) : exec (.vmin d a b m y) s = execVmin d a b m y s := rfl
@[simp] theorem exec_vmax d a b m y (s : State) : exec (.vmax d a b m y) s = execVmax d a b m y s := rfl
@[simp] theorem exec_vabs d a m y (s : State) : exec (.vabs d a m y) s = execVabs d a m y s := rfl
@[simp] theorem exec_vneg d a m y (s : State) : exec (.vneg d a m y) s = execVneg d a m y s := rfl
@[simp] theorem exec_vcmpeq d a b m y (s : State) : exec (.vcmpeq d a b m y) s = execVcmpeq d a b m y s := rfl
@[simp] theorem exec_vcmplt d a b m y (s : State) : exec (.vcmplt d a b m y) s = execVcmplt d a b m y s := rfl
@[simp] theorem exec_vcmple d a b m y (s : State) : exec (.vcmple d a b m y) s = execVcmple d a b m y s := rfl
@[simp] theorem exec_vsel d a b c m y (s : State) : exec (.vsel d a b c m y) s = execVsel d a b c m y s := rfl
@[simp] theorem exec_vdiv d a b m y r (s : State) : exec (.vdiv d a b m y r) s = execVdiv d a b m y r s := rfl
@[simp] theorem exec_vsqrt d a m y r (s : State) : exec (.vsqrt d a m y r) s = execVsqrt d a m y r s := rfl
@[simp] theorem exec_vfms d a b c m y r (s : State) : exec (.vfms d a b c m y r) s = execVfms d a b c m y r s := rfl
@[simp] theorem exec_viadd d a b m y (s : State) : exec (.viadd d a b m y) s = execViadd d a b m y s := rfl
@[simp] theorem exec_visub d a b m y (s : State) : exec (.visub d a b m y) s = execVisub d a b m y s := rfl
@[simp] theorem exec_vimul d a b m y (s : State) : exec (.vimul d a b m y) s = execVimul d a b m y s := rfl
@[simp] theorem exec_vimad d a b c m y (s : State) : exec (.vimad d a b c m y) s = execVimad d a b c m y s := rfl
@[simp] theorem exec_vand d a b m y (s : State) : exec (.vand d a b m y) s = execVand d a b m y s := rfl
@[simp] theorem exec_vor d a b m y (s : State) : exec (.vor d a b m y) s = execVor d a b m y s := rfl
@[simp] theorem exec_vxor d a b m y (s : State) : exec (.vxor d a b m y) s = execVxor d a b m y s := rfl
@[simp] theorem exec_vshl d a b m y (s : State) : exec (.vshl d a b m y) s = execVshl d a b m y s := rfl
@[simp] theorem exec_vshr d a b m y (s : State) : exec (.vshr d a b m y) s = execVshr d a b m y s := rfl
@[simp] theorem exec_vsra d a b m y (s : State) : exec (.vsra d a b m y) s = execVsra d a b m y s := rfl
@[simp] theorem exec_vimin d a b m y (s : State) : exec (.vimin d a b m y) s = execVimin d a b m y s := rfl
@[simp] theorem exec_vimax d a b m y (s : State) : exec (.vimax d a b m y) s = execVimax d a b m y s := rfl
@[simp] theorem exec_vicmpeq d a b m y (s : State) : exec (.vicmpeq d a b m y) s = execVicmpeq d a b m y s := rfl
@[simp] theorem exec_vicmplt d a b m y (s : State) : exec (.vicmplt d a b m y) s = execVicmplt d a b m y s := rfl
@[simp] theorem exec_vidot4 d a b c m (s : State) : exec (.vidot4 d a b c m) s = execVidot4 d a b c m s := rfl
@[simp] theorem exec_vcvt d a b c m y r (s : State) : exec (.vcvt d a b c m y r) s = execVcvt d a b c m y r s := rfl
@[simp] theorem exec_vdec d a b c m (s : State) : exec (.vdec d a b c m) s = execVdec d a b c m s := rfl
@[simp] theorem exec_venc d a b c m r (s : State) : exec (.venc d a b c m r) s = execVenc d a b c m r s := rfl
@[simp] theorem exec_vscl d a b c m r (s : State) : exec (.vscl d a b c m r) s = execVscl d a b c m r s := rfl
@[simp] theorem exec_vqnt d a b c m y r (s : State) : exec (.vqnt d a b c m y r) s = execVqnt d a b c m y r s := rfl
@[simp] theorem exec_vsgn1 d a b c m (s : State) : exec (.vsgn1 d a b c m) s = execVsgn1 d a b c m s := rfl
@[simp] theorem exec_vdup d x m y (s : State) : exec (.vdup d x m y) s = execVdup d x m y s := rfl
@[simp] theorem exec_vlane x a y (s : State) : exec (.vlane x a y) s = execVlane x a y s := rfl
@[simp] theorem exec_vins d x y (s : State) : exec (.vins d x y) s = execVins d x y s := rfl
@[simp] theorem exec_vperm d a m y (s : State) : exec (.vperm d a m y) s = execVperm d a m y s := rfl
@[simp] theorem exec_viota d x m y u (s : State) : exec (.viota d x m y u) s = execViota d x m y u s := rfl
@[simp] theorem exec_vrsum x a m y u (s : State) : exec (.vrsum x a m y u) s = execVrsum x a m y u s := rfl
@[simp] theorem exec_vrmax x a m y (s : State) : exec (.vrmax x a m y) s = execVrmax x a m y s := rfl
@[simp] theorem exec_vrmin x a m y (s : State) : exec (.vrmin x a m y) s = execVrmin x a m y s := rfl
@[simp] theorem exec_vmsk a m u (s : State) : exec (.vmsk a m u) s = execVmsk a m u s := rfl
@[simp] theorem exec_vexp2 d a m y r (s : State) : exec (.vexp2 d a m y r) s = execVexp2 d a m y r s := rfl
@[simp] theorem exec_vlog2 d a m y r (s : State) : exec (.vlog2 d a m y r) s = execVlog2 d a m y r s := rfl
@[simp] theorem exec_vrcp d a m y r (s : State) : exec (.vrcp d a m y r) s = execVrcp d a m y r s := rfl
@[simp] theorem exec_vrsq d a m y r (s : State) : exec (.vrsq d a m y r) s = execVrsq d a m y r s := rfl
@[simp] theorem exec_vexp d a m y r (s : State) : exec (.vexp d a m y r) s = execVexp d a m y r s := rfl
@[simp] theorem exec_vbuck d x a m (s : State) : exec (.vbuck d x a m) s = execVbuck d x a m s := rfl
@[simp] theorem exec_vcnt d a m (s : State) : exec (.vcnt d a m) s = execVcnt d a m s := rfl
@[simp] theorem exec_vmovmToVector d u (s : State) : exec (.vmovmToVector d u) s = execVmovmToVector d u s := rfl
@[simp] theorem exec_vmovmToMask a u (s : State) : exec (.vmovmToMask a u) s = execVmovmToMask a u s := rfl
@[simp] theorem exec_mcfg a b (s : State) : exec (.mcfg a b) s = execMcfg a b s := rfl
@[simp] theorem exec_mzero c (s : State) : exec (.mzero c) s = execMzero c s := rfl
@[simp] theorem exec_mma a b c (s : State) : exec (.mma a b c) s = execMma a b c s := rfl
@[simp] theorem exec_mmas a b c (s : State) : exec (.mmas a b c) s = execMmas a b c s := rfl
@[simp] theorem exec_mout a b c (s : State) : exec (.mout a b c) s = execMout a b c s := rfl
@[simp] theorem exec_min a b c (s : State) : exec (.min a b c) s = execMin a b c s := rfl
@[simp] theorem exec_msave a b (s : State) : exec (.msave a b) s = execMsave a b s := rfl
@[simp] theorem exec_mrest a b (s : State) : exec (.mrest a b) s = execMrest a b s := rfl
@[simp] theorem exec_msync (s : State) : exec (.msync) s = execMsync s := rfl
@[simp] theorem exec_tfpin a b c (s : State) : exec (.tfpin a b c) s = execTfpin a b c s := rfl
@[simp] theorem exec_tfrel a (s : State) : exec (.tfrel a) s = execTfrel a s := rfl
@[simp] theorem exec_pull a b c (s : State) : exec (.pull a b c) s = execPull a b c s := rfl
@[simp] theorem exec_pullx a b c (s : State) : exec (.pullx a b c) s = execPullx a b c s := rfl
@[simp] theorem exec_pullr a b c (s : State) : exec (.pullr a b c) s = execPullr a b c s := rfl
@[simp] theorem exec_pullm a b c (s : State) : exec (.pullm a b c) s = execPullm a b c s := rfl
@[simp] theorem exec_cpull a b c (s : State) : exec (.cpull a b c) s = execCpull a b c s := rfl
@[simp] theorem exec_pub a b (s : State) : exec (.pub a b) s = execPub a b s := rfl
@[simp] theorem exec_puba a b (s : State) : exec (.puba a b) s = execPuba a b s := rfl
@[simp] theorem exec_watch a b c (s : State) : exec (.watch a b c) s = execWatch a b c s := rfl
@[simp] theorem exec_wrange a b c (s : State) : exec (.wrange a b c) s = execWrange a b c s := rfl
@[simp] theorem exec_wwait a c (s : State) : exec (.wwait a c) s = execWwait a c s := rfl
@[simp] theorem exec_wcancel c (s : State) : exec (.wcancel c) s = execWcancel c s := rfl
@[simp] theorem exec_psync (s : State) : exec (.psync) s = execPsync s := rfl
@[simp] theorem exec_gupd a b c (s : State) : exec (.gupd a b c) s = execGupd a b c s := rfl
@[simp] theorem exec_gbel a b c (s : State) : exec (.gbel a b c) s = execGbel a b c s := rfl
@[simp] theorem exec_gadd a b c (s : State) : exec (.gadd a b c) s = execGadd a b c s := rfl
@[simp] theorem exec_gelim a b c (s : State) : exec (.gelim a b c) s = execGelim a b c s := rfl
@[simp] theorem exec_gdamp a b c (s : State) : exec (.gdamp a b c) s = execGdamp a b c s := rfl
@[simp] theorem exec_gsolve a c (s : State) : exec (.gsolve a c) s = execGsolve a c s := rfl
@[simp] theorem exec_gres a b c (s : State) : exec (.gres a b c) s = execGres a b c s := rfl
@[simp] theorem exec_gsync (s : State) : exec (.gsync) s = execGsync s := rfl
@[simp] theorem exec_tqput a b c (s : State) : exec (.tqput a b c) s = execTqput a b c s := rfl
@[simp] theorem exec_tqget a b (s : State) : exec (.tqget a b) s = execTqget a b s := rfl
@[simp] theorem exec_exit (s : State) : exec (.exit) s = execExit s := rfl
@[simp] theorem exec_yield (s : State) : exec (.yield) s = execYield s := rfl
@[simp] theorem exec_sleep a (s : State) : exec (.sleep a) s = execSleep a s := rfl
@[simp] theorem exec_trap a (s : State) : exec (.trap a) s = execTrap a s := rfl
@[simp] theorem exec_eret (s : State) : exec (.eret) s = execEret s := rfl
@[simp] theorem exec_sret (s : State) : exec (.sret) s = execSret s := rfl
@[simp] theorem exec_csave a b (s : State) : exec (.csave a b) s = execCsave a b s := rfl
@[simp] theorem exec_crest a b (s : State) : exec (.crest a b) s = execCrest a b s := rfl
@[simp] theorem exec_brk (s : State) : exec (.brk) s = execBrk s := rfl
@[simp] theorem exec_scrub a (s : State) : exec (.scrub a) s = execScrub a s := rfl
@[simp] theorem exec_pause a (s : State) : exec (.pause a) s = execPause a s := rfl
@[simp] theorem exec_l2wb a b (s : State) : exec (.l2wb a b) s = execL2wb a b s := rfl
@[simp] theorem exec_l2inv a b (s : State) : exec (.l2inv a b) s = execL2inv a b s := rfl
@[simp] theorem exec_l2wbi a b (s : State) : exec (.l2wbi a b) s = execL2wbi a b s := rfl
@[simp] theorem exec_rinv a b (s : State) : exec (.rinv a b) s = execRinv a b s := rfl
@[simp] theorem exec_l2hm a b (s : State) : exec (.l2hm a b) s = execL2hm a b s := rfl
@[simp] theorem exec_l2pf a b (s : State) : exec (.l2pf a b) s = execL2pf a b s := rfl
@[simp] theorem exec_mfs d s_ (s : State) : exec (.mfs d s_) s = execMfs d s_ s := rfl
@[simp] theorem exec_mts a s_ (s : State) : exec (.mts a s_) s = execMts a s_ s := rfl
@[simp] theorem exec_illegalInstruction w (s : State) : exec (.illegalInstruction w) s = execIllegalInstruction w s := rfl
@[simp] theorem exec_registerWrite unit reg v (s : State) : exec (.registerWrite unit reg v) s = execRegisterWrite unit reg v s := rfl
@[simp] theorem exec_utimerWrite sl v (s : State) : exec (.utimerWrite sl v) s = execUtimerWrite sl v s := rfl
@[simp] theorem exec_stimerWrite sl v (s : State) : exec (.stimerWrite sl v) s = execStimerWrite sl v s := rfl
@[simp] theorem exec_slockWrite sl v (s : State) : exec (.slockWrite sl v) s = execSlockWrite sl v s := rfl
@[simp] theorem exec_hmaskWrite sl k v (s : State) : exec (.hmaskWrite sl k v) s = execHmaskWrite sl k v s := rfl
@[simp] theorem exec_rootEntryWrite sl idx v (s : State) : exec (.rootEntryWrite sl idx v) s = execRootEntryWrite sl idx v s := rfl
@[simp] theorem exec_treeTableWrite sl idx v (s : State) : exec (.treeTableWrite sl idx v) s = execTreeTableWrite sl idx v s := rfl
@[simp] theorem exec_translationInvalidate sl idx v (s : State) :
    exec (.translationInvalidate sl idx v) s = execTranslationInvalidate sl idx v s := rfl
@[simp] theorem exec_partitionRegisterWrite sl idx v (s : State) :
    exec (.partitionRegisterWrite sl idx v) s = execPartitionRegisterWrite sl idx v s := rfl
@[simp] theorem exec_ttdataRead sl d (s : State) : exec (.ttdataRead sl d) s = execTtdataRead sl d s := rfl
@[simp] theorem exec_invalidationComplete sl (s : State) : exec (.invalidationComplete sl) s = execInvalidationComplete sl s := rfl
@[simp] theorem exec_slotTableEntryWrite sl idx v (s : State) : exec (.slotTableEntryWrite sl idx v) s = execSlotTableEntryWrite sl idx v s := rfl
@[simp] theorem exec_taskParameterWrite sl idx v (s : State) : exec (.taskParameterWrite sl idx v) s = execTaskParameterWrite sl idx v s := rfl
@[simp] theorem exec_slottabSelect sl v (s : State) : exec (.slottabSelect sl v) s = execSlottabSelect sl v s := rfl
@[simp] theorem exec_worldWrite sl v (s : State) : exec (.worldWrite sl v) s = execWorldWrite sl v s := rfl
@[simp] theorem exec_contextWordWrite ag ctx word v (s : State) :
    exec (.contextWordWrite ag ctx word v) s = execContextWordWrite ag ctx word v s := rfl
@[simp] theorem exec_contextEnable ag ctx v (s : State) : exec (.contextEnable ag ctx v) s = execContextEnable ag ctx v s := rfl
@[simp] theorem exec_errClear ag ctx (s : State) : exec (.errClear ag ctx) s = execErrClear ag ctx s := rfl
@[simp] theorem exec_kpendWrite port word v (s : State) : exec (.kpendWrite port word v) s = execKpendWrite port word v s := rfl
@[simp] theorem exec_kctlRotWrite port (s : State) : exec (.kctlRotWrite port) s = execKctlRotWrite port s := rfl
@[simp] theorem exec_lstatRetrain port (s : State) : exec (.lstatRetrain port) s = execLstatRetrain port s := rfl
@[simp] theorem exec_lstatFailClear port v (s : State) : exec (.lstatFailClear port v) s = execLstatFailClear port v s := rfl
@[simp] theorem exec_mlostClear m lost (s : State) : exec (.mlostClear m lost) s = execMlostClear m lost s := rfl
@[simp] theorem exec_hostReadBar1 ag addr n (s : State) : exec (.hostReadBar1 ag addr n) s = execHostReadBar1 ag addr n s := rfl
@[simp] theorem exec_hostReadBar2 ag off n (s : State) : exec (.hostReadBar2 ag off n) s = execHostReadBar2 ag off n s := rfl
@[simp] theorem exec_hostWriteDiscard ag bar addr (s : State) : exec (.hostWriteDiscard ag bar addr) s = execHostWriteDiscard ag bar addr s := rfl
@[simp] theorem exec_channelPoll ag ctx (s : State) : exec (.channelPoll ag ctx) s = execChannelPoll ag ctx s := rfl
@[simp] theorem exec_launchRecord ag ctx (s : State) : exec (.launchRecord ag ctx) s = execLaunchRecord ag ctx s := rfl
@[simp] theorem exec_stageRecord ag ctx (s : State) : exec (.stageRecord ag ctx) s = execStageRecord ag ctx s := rfl
@[simp] theorem exec_markerRecord ag ctx (s : State) : exec (.markerRecord ag ctx) s = execMarkerRecord ag ctx s := rfl
@[simp] theorem exec_inboxPlace ag ctx (s : State) : exec (.inboxPlace ag ctx) s = execInboxPlace ag ctx s := rfl
@[simp] theorem exec_inboxPull lin k (s : State) : exec (.inboxPull lin k) s = execInboxPull lin k s := rfl
@[simp] theorem exec_inboxPacketAccept lin k (s : State) : exec (.inboxPacketAccept lin k) s = execInboxPacketAccept lin k s := rfl
@[simp] theorem exec_placePacket lin (s : State) : exec (.placePacket lin) s = execPlacePacket lin s := rfl
@[simp] theorem exec_balancingInterval lin (s : State) : exec (.balancingInterval lin) s = execBalancingInterval lin s := rfl
@[simp] theorem exec_levellingClaim lin nb (s : State) : exec (.levellingClaim lin nb) s = execLevellingClaim lin nb s := rfl
@[simp] theorem exec_grantRound lin (s : State) : exec (.grantRound lin) s = execGrantRound lin s := rfl
@[simp] theorem exec_levelledStagePull lin nb (s : State) : exec (.levelledStagePull lin nb) s = execLevelledStagePull lin nb s := rfl
@[simp] theorem exec_levelledAccept lin nb (s : State) : exec (.levelledAccept lin nb) s = execLevelledAccept lin nb s := rfl
@[simp] theorem exec_levelledCompletionUpdate lin nb (s : State) :
    exec (.levelledCompletionUpdate lin nb) s = execLevelledCompletionUpdate lin nb s := rfl
@[simp] theorem exec_frontEndDeliver lin (s : State) : exec (.frontEndDeliver lin) s = execFrontEndDeliver lin s := rfl
@[simp] theorem exec_strandFetchFill sl (s : State) : exec (.strandFetchFill sl) s = execStrandFetchFill sl s := rfl
@[simp] theorem exec_coilReplayIssue sl (s : State) : exec (.coilReplayIssue sl) s = execCoilReplayIssue sl s := rfl
@[simp] theorem exec_joinWatchdog sl (s : State) : exec (.joinWatchdog sl) s = execJoinWatchdog sl s := rfl
@[simp] theorem exec_memoryReply id (s : State) : exec (.memoryReply id) s = execMemoryReply id s := rfl
@[simp] theorem exec_barwBoundExpire sl (s : State) : exec (.barwBoundExpire sl) s = execBarwBoundExpire sl s := rfl
@[simp] theorem exec_putxLand id (s : State) : exec (.putxLand id) s = execPutxLand id s := rfl
@[simp] theorem exec_pageWalkComplete lin id (s : State) : exec (.pageWalkComplete lin id) s = execPageWalkComplete lin id s := rfl
@[simp] theorem exec_sectorFill id (s : State) : exec (.sectorFill id) s = execSectorFill id s := rfl
@[simp] theorem exec_readPortRead id (s : State) : exec (.readPortRead id) s = execReadPortRead id s := rfl
@[simp] theorem exec_watchArmArrive id (s : State) : exec (.watchArmArrive id) s = execWatchArmArrive id s := rfl
@[simp] theorem exec_watchWithdrawArrive id (s : State) : exec (.watchWithdrawArrive id) s = execWatchWithdrawArrive id s := rfl
@[simp] theorem exec_watchAnswer id (s : State) : exec (.watchAnswer id) s = execWatchAnswer id s := rfl
@[simp] theorem exec_watchRefusal id (s : State) : exec (.watchRefusal id) s = execWatchRefusal id s := rfl
@[simp] theorem exec_pullRequestIssue lin ch (s : State) : exec (.pullRequestIssue lin ch) s = execPullRequestIssue lin ch s := rfl
@[simp] theorem exec_pullSectorData id (s : State) : exec (.pullSectorData id) s = execPullSectorData id s := rfl
@[simp] theorem exec_cpullPeerReady lin g (s : State) : exec (.cpullPeerReady lin g) s = execCpullPeerReady lin g s := rfl
@[simp] theorem exec_treePullServe id (s : State) : exec (.treePullServe id) s = execTreePullServe id s := rfl
@[simp] theorem exec_cpullWatchdog lin g (s : State) : exec (.cpullWatchdog lin g) s = execCpullWatchdog lin g s := rfl
@[simp] theorem exec_budgetPeriod lin (s : State) : exec (.budgetPeriod lin) s = execBudgetPeriod lin s := rfl
@[simp] theorem exec_matrixCommandComplete core id (s : State) : exec (.matrixCommandComplete core id) s = execMatrixCommandComplete core id s := rfl
@[simp] theorem exec_gaussCommandStart core (s : State) : exec (.gaussCommandStart core) s = execGaussCommandStart core s := rfl
@[simp] theorem exec_gaussCommandComplete core (s : State) : exec (.gaussCommandComplete core) s = execGaussCommandComplete core s := rfl
@[simp] theorem exec_utimerExpire sl (s : State) : exec (.utimerExpire sl) s = execUtimerExpire sl s := rfl
@[simp] theorem exec_userInterruptDelivery sl (s : State) : exec (.userInterruptDelivery sl) s = execUserInterruptDelivery sl s := rfl
@[simp] theorem exec_stimerExpire sl (s : State) : exec (.stimerExpire sl) s = execStimerExpire sl s := rfl
@[simp] theorem exec_supervisorTimerTrap sl (s : State) : exec (.supervisorTimerTrap sl) s = execSupervisorTimerTrap sl s := rfl
@[simp] theorem exec_slotTerminate sl (s : State) : exec (.slotTerminate sl) s = execSlotTerminate sl s := rfl
@[simp] theorem exec_sleepExpire sl (s : State) : exec (.sleepExpire sl) s = execSleepExpire sl s := rfl
@[simp] theorem exec_pauseEnd sl (s : State) : exec (.pauseEnd sl) s = execPauseEnd sl s := rfl
@[simp] theorem exec_dramScrubRead lin addr (s : State) : exec (.dramScrubRead lin addr) s = execDramScrubRead lin addr s := rfl
@[simp] theorem exec_sramScrubRead lin addr (s : State) : exec (.sramScrubRead lin addr) s = execSramScrubRead lin addr s := rfl
@[simp] theorem exec_agentScrubRead ag addr (s : State) : exec (.agentScrubRead ag addr) s = execAgentScrubRead ag addr s := rfl
@[simp] theorem exec_flitArrival port k (s : State) : exec (.flitArrival port k) s = execFlitArrival port k s := rfl
@[simp] theorem exec_replayRequest port k (s : State) : exec (.replayRequest port k) s = execReplayRequest port k s := rfl
@[simp] theorem exec_widthNotice port width (s : State) : exec (.widthNotice port width) s = execWidthNotice port width s := rfl
@[simp] theorem exec_replayRequestRepeat port (s : State) : exec (.replayRequestRepeat port) s = execReplayRequestRepeat port s := rfl
@[simp] theorem exec_ackTimeoutResend port (s : State) : exec (.ackTimeoutResend port) s = execAckTimeoutResend port s := rfl
@[simp] theorem exec_laneFailure port lane (s : State) : exec (.laneFailure port lane) s = execLaneFailure port lane s := rfl
@[simp] theorem exec_portRetrainComplete port (s : State) : exec (.portRetrainComplete port) s = execPortRetrainComplete port s := rfl
@[simp] theorem exec_ivExhaustionWarning port (s : State) : exec (.ivExhaustionWarning port) s = execIvExhaustionWarning port s := rfl
@[simp] theorem exec_ivLimitReached port (s : State) : exec (.ivLimitReached port) s = execIvLimitReached port s := rfl
@[simp] theorem exec_lossTimeout m lost (s : State) : exec (.lossTimeout m lost) s = execLossTimeout m lost s := rfl
@[simp] theorem exec_hostLinkDown ag (s : State) : exec (.hostLinkDown ag) s = execHostLinkDown ag s := rfl
@[simp] theorem exec_functionLevelReset ag (s : State) : exec (.functionLevelReset ag) s = execFunctionLevelReset ag s := rfl
@[simp] theorem exec_hostLinkUp ag (s : State) : exec (.hostLinkUp ag) s = execHostLinkUp ag s := rfl
@[simp] theorem exec_hostReadTimeout ag ctx (s : State) : exec (.hostReadTimeout ag ctx) s = execHostReadTimeout ag ctx s := rfl
@[simp] theorem exec_droopDetect m (s : State) : exec (.droopDetect m) s = execDroopDetect m s := rfl
@[simp] theorem exec_droopRecover m (s : State) : exec (.droopRecover m) s = execDroopRecover m s := rfl
@[simp] theorem exec_powerLimitStep m (s : State) : exec (.powerLimitStep m) s = execPowerLimitStep m s := rfl
@[simp] theorem exec_thermalStep m (s : State) : exec (.thermalStep m) s = execThermalStep m s := rfl
@[simp] theorem exec_thermalRecover m (s : State) : exec (.thermalRecover m) s = execThermalRecover m s := rfl
@[simp] theorem exec_thermalHold m (s : State) : exec (.thermalHold m) s = execThermalHold m s := rfl
@[simp] theorem exec_thermalReset m (s : State) : exec (.thermalReset m) s = execThermalReset m s := rfl
@[simp] theorem exec_supplyUndervoltReset m (s : State) : exec (.supplyUndervoltReset m) s = execSupplyUndervoltReset m s := rfl
@[simp] theorem exec_stretchLimitReset m (s : State) : exec (.stretchLimitReset m) s = execStretchLimitReset m s := rfl
@[simp] theorem exec_moduleReset m (s : State) : exec (.moduleReset m) s = execModuleReset m s := rfl
@[simp] theorem exec_unitWake core unit (s : State) : exec (.unitWake core unit) s = execUnitWake core unit s := rfl
@[simp] theorem exec_firmwareImageWrite m img (s : State) : exec (.firmwareImageWrite m img) s = execFirmwareImageWrite m img s := rfl
@[simp] theorem exec_floorRaise m floor (s : State) : exec (.floorRaise m floor) s = execFloorRaise m floor s := rfl
@[simp] theorem exec_worldCreate m world attr (s : State) : exec (.worldCreate m world attr) s = execWorldCreate m world attr s := rfl
@[simp] theorem exec_worldDestroy m world (s : State) : exec (.worldDestroy m world) s = execWorldDestroy m world s := rfl
@[simp] theorem exec_provision m (s : State) : exec (.provision m) s = execProvision m s := rfl
@[simp] theorem exec_ownerKeyInstall m (s : State) : exec (.ownerKeyInstall m) s = execOwnerKeyInstall m s := rfl
@[simp] theorem exec_ownerRelease m (s : State) : exec (.ownerRelease m) s = execOwnerRelease m s := rfl
@[simp] theorem exec_retire m (s : State) : exec (.retire m) s = execRetire m s := rfl
@[simp] theorem exec_storeCompletion id (s : State) : exec (.storeCompletion id) s = execStoreCompletion id s := rfl
@[simp] theorem exec_powerGating core unit (s : State) : exec (.powerGating core unit) s = execPowerGating core unit s := rfl
@[simp] theorem exec_creelReset lin (s : State) : exec (.creelReset lin) s = execCreelReset lin s := rfl

end Sys2Proof.Laws
end

