-- ==== Sys2Proof/Laws/Maps.lean ====
section
/-!
SUPPORT. What a look-up in a table gives after a write and after a removal.
-/

namespace Sys2Proof.Laws

open Sys2Proof.Machine

variable {α : Type}

@[simp] theorem mapFind_nil (k : Nat) : mapFind ([] : SMap α) k = none := rfl

@[simp] theorem mapFind_mapPut_self (m : SMap α) (k : Nat) (x : α) : mapFind (mapPut m k x) k = some x := by
  induction m with
  | nil => simp [mapPut, mapFind]
  | cons e m ih =>
    obtain ⟨n, v⟩ := e
    by_cases h : n = k
    · simp [mapPut, mapFind, h]
    · by_cases h' : k < n
      · simp [mapPut, mapFind, h, h']
      · simp [mapPut, mapFind, h, h', ih]

theorem mapFind_mapPut_ne (m : SMap α) {k n : Nat} (x : α) (h : n ≠ k) : mapFind (mapPut m k x) n = mapFind m n := by
  induction m with
  | nil =>
    have h' : ¬k = n := fun e => h e.symm
    simp [mapPut, mapFind, h']
  | cons e m ih =>
    obtain ⟨j, v⟩ := e
    by_cases h1 : j = k
    · subst h1
      have h' : ¬j = n := fun e => h e.symm
      simp [mapPut, mapFind, h']
    · by_cases h2 : k < j
      · have h' : ¬k = n := fun e => h e.symm
        by_cases h3 : n < k
        · have h4 : n < j := Nat.lt_trans h3 h2
          have h5 : ¬j = n := by omega
          simp [mapPut, mapFind, h1, h2, h', h3, h4, h5]
        · simp [mapPut, mapFind, h1, h2, h', h3]
      · simp [mapPut, mapFind, h1, h2, ih]

theorem mapFind_mapPut (m : SMap α) (k n : Nat) (x : α) :
    mapFind (mapPut m k x) n = if n = k then some x else mapFind m n := by
  by_cases h : n = k
  · subst h; simp
  · simp [h, mapFind_mapPut_ne m x h]

@[simp] theorem mapGet_nil (d : α) (k : Nat) : mapGet ([] : SMap α) d k = d := rfl

@[simp] theorem mapGet_mapPut_self (m : SMap α) (d : α) (k : Nat) (x : α) : mapGet (mapPut m k x) d k = x := by
  simp [mapGet]

theorem mapGet_mapPut_ne (m : SMap α) (d : α) {k n : Nat} (x : α) (h : n ≠ k) :
    mapGet (mapPut m k x) d n = mapGet m d n := by
  simp [mapGet, mapFind_mapPut_ne m x h]

theorem mapGet_mapPut (m : SMap α) (d : α) (k n : Nat) (x : α) :
    mapGet (mapPut m k x) d n = if n = k then x else mapGet m d n := by
  by_cases h : n = k
  · subst h; simp
  · simp [h, mapGet_mapPut_ne m d x h]

/-! ### Sets of numbers -/

@[simp] theorem setHas_setAdd_self (l : List Nat) (n : Nat) : setHas (setAdd l n) n = true := by
  induction l with
  | nil => simp [setAdd, setHas]
  | cons k l ih =>
    by_cases h : k = n
    · simp [setAdd, setHas, h]
    · by_cases h' : n < k
      · simp [setAdd, setHas, h, h']
      · simp [setAdd, setHas, h, h', ih]

theorem setHas_setAdd_ne (l : List Nat) {n m : Nat} (h : m ≠ n) : setHas (setAdd l n) m = setHas l m := by
  induction l with
  | nil =>
    have h' : ¬n = m := fun e => h e.symm
    simp [setAdd, setHas, h']
  | cons k l ih =>
    by_cases h1 : k = n
    · simp [setAdd, setHas, h1]
    · by_cases h2 : n < k
      · have h' : ¬n = m := fun e => h e.symm
        by_cases h3 : m < n
        · have h5 : ¬k = m := by omega
          have h4 : m < k := by omega
          simp [setAdd, setHas, h1, h2, h', h3, h4, h5]
        · simp [setAdd, setHas, h1, h2, h', h3]
      · simp [setAdd, setHas, h1, h2, ih]

end Sys2Proof.Laws
end

