-- ==== Sys2Proof/Laws/Mem.lean ====
section
/-!
SUPPORT. Memory: every operation keeps the canonical form, a read after a write gives the value written, and a write leaves every other
byte alone.
-/

namespace Sys2Proof.Laws

open Sys2Proof.Machine

/-! ### The canonical form -/

theorem wf_cons (a : Nat) (b : Byte) (m : List Host.Cell) :
    Memory.wf ((a, b) :: m) = true ↔ b ≠ 0 ∧ (∀ c ∈ m, a < c.1) ∧ Memory.wf m = true := by
  induction m generalizing a b with
  | nil => simp [Memory.wf]
  | cons c m ih =>
    obtain ⟨a', b'⟩ := c
    constructor
    · intro h
      simp only [Memory.wf, Bool.and_eq_true, bne_iff_ne, decide_eq_true_eq] at h
      obtain ⟨⟨hb, ha⟩, hw⟩ := h
      refine ⟨hb, ?_, hw⟩
      intro c hc
      rcases List.mem_cons.mp hc with h | h
      · subst h; exact ha
      · exact Nat.lt_trans ha (((ih a' b').mp hw).2.1 c h)
    · rintro ⟨hb, ha, hw⟩
      have h0 : a < a' := ha (a', b') (by simp)
      simpa [Memory.wf, h0, hw] using hb

theorem wf_tail {c : Host.Cell} {m : List Host.Cell} (h : Memory.wf (c :: m) = true) : Memory.wf m = true :=
  ((wf_cons c.1 c.2 m).mp h).2.2

theorem wf_filter (p : Host.Cell → Bool) (m : List Host.Cell) (h : Memory.wf m = true) : Memory.wf (m.filter p) = true := by
  induction m with
  | nil => rfl
  | cons c m ih =>
    obtain ⟨hb, ha, hw⟩ := (wf_cons c.1 c.2 m).mp h
    by_cases hp : p c
    · rw [List.filter_cons_of_pos hp]
      exact (wf_cons c.1 c.2 _).mpr ⟨hb, fun d hd => ha d (List.mem_filter.mp hd).1, ih hw⟩
    · rw [List.filter_cons_of_neg hp]
      exact ih hw

theorem mem_memSet (m : List Host.Cell) (a : Nat) (v : Byte) (c : Host.Cell) (h : c ∈ memSet m a v) : c.1 = a ∨ c ∈ m := by
  have cons : ∀ l : List Host.Cell, c ∈ memCons a v l → c.1 = a ∨ c ∈ l := by
    intro l hl
    unfold memCons at hl
    split at hl
    · exact .inr hl
    · rcases List.mem_cons.mp hl with h | h
      · exact .inl (by rw [h])
      · exact .inr h
  induction m with
  | nil => exact cons [] h
  | cons d m ih =>
    obtain ⟨k, b⟩ := d
    simp only [memSet] at h
    split at h
    · rcases cons m h with h | h
      · exact .inl h
      · exact .inr (List.mem_cons_of_mem _ h)
    · split at h
      · exact cons _ h
      · rcases List.mem_cons.mp h with h | h
        · exact .inr (by rw [h]; simp)
        · rcases ih h with h | h
          · exact .inl h
          · exact .inr (List.mem_cons_of_mem _ h)

/-- Writing a byte keeps the canonical form. -/
theorem wf_memSet (m : List Host.Cell) (a : Nat) (v : Byte) (h : Memory.wf m = true) : Memory.wf (memSet m a v) = true := by
  have cons : ∀ l : List Host.Cell, (∀ c ∈ l, a < c.1) → Memory.wf l = true → Memory.wf (memCons a v l) = true := by
    intro l hl hw
    unfold memCons
    split
    · exact hw
    · exact (wf_cons a v l).mpr ⟨by assumption, hl, hw⟩
  induction m with
  | nil => exact cons [] (by simp) rfl
  | cons d m ih =>
    obtain ⟨k, b⟩ := d
    obtain ⟨hb, hk, hw⟩ := (wf_cons k b m).mp h
    simp only [memSet]
    split
    · subst k
      exact cons m hk hw
    · split
      · refine cons _ ?_ h
        intro c hc
        rcases List.mem_cons.mp hc with h | h
        · subst h; assumption
        · exact Nat.lt_trans (by assumption) (hk c h)
      · refine (wf_cons k b _).mpr ⟨hb, ?_, ih hw⟩
        intro c hc
        rcases mem_memSet m a v c hc with h | h
        · rw [h]; omega
        · exact hk c h

/-- Writing a run of bytes keeps the canonical form. -/
theorem wf_memSetList (bs : List Byte) (m : List Host.Cell) (a : Nat) (h : Memory.wf m = true) :
    Memory.wf (memSetList m a bs) = true := by
  induction bs generalizing m a with
  | nil => exact h
  | cons v bs ih => exact ih _ _ (wf_memSet m a v h)

/-! ### Reads after writes -/

theorem memGet_lt (m : List Host.Cell) (a : Nat) (h : ∀ c ∈ m, a < c.1) : memGet m a = 0 := by
  cases m with
  | nil => rfl
  | cons c m =>
    have hc := h c (by simp)
    have : ¬c.1 = a := by omega
    simp [memGet, this, hc]

theorem memGet_memSet (m : List Host.Cell) (a x : Nat) (v : Byte) (h : Memory.wf m = true) :
    memGet (memSet m a v) x = if x = a then v else memGet m x := by
  have cons : ∀ l : List Host.Cell, (∀ c ∈ l, a < c.1) →
      memGet (memCons a v l) x = if x = a then v else memGet l x := by
    intro l hl
    unfold memCons
    split
    · split
      · subst x; subst v; exact memGet_lt l a hl
      · rfl
    · by_cases hx : x = a
      · simp [memGet, hx]
      · have h' : ¬a = x := fun e => hx e.symm
        by_cases hxa : x < a
        · simp [memGet, h', hx, hxa, memGet_lt l x (fun c hc => Nat.lt_trans hxa (hl c hc))]
        · simp [memGet, h', hx, hxa]
  induction m with
  | nil => exact cons [] (by simp)
  | cons d m ih =>
    obtain ⟨k, b⟩ := d
    obtain ⟨hb, hk, hw⟩ := (wf_cons k b m).mp h
    simp only [memSet]
    split
    · subst k
      rw [cons m hk]
      split
      · rfl
      · have h' : ¬a = x := fun e => by simp_all
        by_cases hxa : x < a
        · simp [memGet, h', hxa, memGet_lt m x (fun c hc => Nat.lt_trans hxa (hk c hc))]
        · simp [memGet, h', hxa]
    · split
      · refine cons _ ?_
        intro c hc
        rcases List.mem_cons.mp hc with h | h
        · subst h; assumption
        · exact Nat.lt_trans (by assumption) (hk c h)
      · by_cases h1 : k = x
        · subst x
          have : ¬k = a := by assumption
          simp [memGet, this]
        · by_cases h2 : x < k
          · have : ¬x = a := by omega
            simp [memGet, h1, h2, this]
          · simp [memGet, h1, h2, ih hw]

theorem memGet_memSetList (bs : List Byte) (m : List Host.Cell) (a x : Nat) (h : Memory.wf m = true) :
    memGet (memSetList m a bs) x = if a ≤ x ∧ x < a + bs.length then bs.getD (x - a) 0 else memGet m x := by
  induction bs generalizing m a with
  | nil =>
    have : ¬(a ≤ x ∧ x < a) := by omega
    rw [memSetList, List.length_nil, Nat.add_zero, if_neg this]
  | cons v bs ih =>
    simp only [memSetList, List.length_cons]
    rw [ih _ _ (wf_memSet m a v h), memGet_memSet m a x v h]
    by_cases h1 : x = a
    · subst x
      have : ¬(a + 1 ≤ a ∧ a < a + 1 + bs.length) := by omega
      have h2 : a ≤ a ∧ a < a + (bs.length + 1) := by omega
      rw [if_neg this, if_pos rfl, if_pos h2, Nat.sub_self, List.getD_cons_zero]
    · by_cases h2 : a + 1 ≤ x ∧ x < a + 1 + bs.length
      · have h3 : a ≤ x ∧ x < a + (bs.length + 1) := by omega
        have h4 : x - a = (x - (a + 1)) + 1 := by omega
        rw [if_pos h2, if_pos h3, h4, List.getD_cons_succ]
      · have h3 : ¬(a ≤ x ∧ x < a + (bs.length + 1)) := by omega
        rw [if_neg h2, if_neg h1, if_neg h3]

@[simp] theorem natBytes_length (v n : Nat) : (natBytes v n).length = n := by
  induction n generalizing v with
  | zero => rfl
  | succ n ih => simp [natBytes, ih]

theorem natBytes_getD (v n i : Nat) (h : i < n) : (natBytes v n).getD i 0 = BitVec.ofNat 8 (v / 256 ^ i) := by
  induction n generalizing v i with
  | zero => omega
  | succ n ih =>
    cases i with
    | zero => simp [natBytes]
    | succ i =>
      have hp : v / 256 / 256 ^ i = v / 256 ^ (i + 1) := by
        rw [Nat.div_div_eq_div_mul, Nat.pow_succ, Nat.mul_comm]
      simp only [natBytes, List.getD_cons_succ]
      rw [ih (v / 256) i (by omega), hp]

/-- The low bytes of a number, read back, are the number modulo their range. -/
theorem bytesNat_natBytes (v n : Nat) : bytesNat (natBytes v n) = v % 256 ^ n := by
  induction n generalizing v with
  | zero => simp [natBytes, bytesNat, Nat.mod_one]
  | succ n ih =>
    have hv : (BitVec.ofNat 8 v).toNat = v % 256 := by simp
    rw [natBytes, bytesNat, ih, hv, Nat.pow_succ, Nat.mul_comm (256 ^ n) 256, Nat.mod_mul]

/-- A byte of a run of memory read as a number. -/
theorem memNat_byte (m : List Host.Cell) (a n i : Nat) (h : i < n) :
    BitVec.ofNat 8 (memNat m a n / 256 ^ i) = memGet m (a + i) := by
  induction n generalizing a i with
  | zero => omega
  | succ n ih =>
    have hlt : (memGet m a).toNat < 256 := (memGet m a).isLt
    cases i with
    | zero =>
      apply BitVec.eq_of_toNat_eq
      simp only [memNat, Nat.pow_zero, Nat.div_one, BitVec.toNat_ofNat, Nat.add_zero]
      omega
    | succ i =>
      have hd : memNat m a (n + 1) / 256 ^ (i + 1) = memNat m (a + 1) n / 256 ^ i := by
        rw [Nat.pow_succ, Nat.mul_comm (256 ^ i) 256, ← Nat.div_div_eq_div_mul]
        congr 1
        simp only [memNat]
        omega
      rw [hd, ih (a + 1) i (by omega)]
      congr 1
      omega

/-! ### Blocks and keys -/

/-- A byte is its part of the block that holds it. -/
theorem byteAs_blockAs (s : State) (key loc : Nat) :
    s.byteAs key loc = BitVec.ofNat 8 (s.blockAs key (loc / 16) / 256 ^ (loc % 16)) := by
  unfold State.byteAs
  split
  · rename_i h
    simp [State.blockAs, h]
  · rename_i k h
    split
    · rename_i hk
      have h2 : 16 * (loc / 16) + loc % 16 = loc := Nat.div_add_mod loc 16
      simp only [State.blockAs, h, hk, if_true]
      rw [memNat_byte _ _ _ _ (Nat.mod_lt _ (by decide)), h2]
    · rfl

theorem claimBlock_wf (s : State) (key blk : Nat) (h : Memory.wf s.mem = true) :
    Memory.wf (s.claimBlock key blk).mem = true := by
  unfold State.claimBlock
  split
  · exact h
  · exact wf_memSetList _ _ _ h

/-- A block reads the same where its bytes and its key are the same. -/
theorem blockAs_congr (s s' : State) (key blk : Nat) (ht : mapFind s'.tags blk = mapFind s.tags blk)
    (hm : memNat s'.mem (16 * blk) 16 = memNat s.mem (16 * blk) 16) : s'.blockAs key blk = s.blockAs key blk := by
  rw [State.blockAs, State.blockAs, ht, hm]

theorem memNat_congr (m m' : List Host.Cell) (n a : Nat) (h : ∀ i, i < n → memGet m' (a + i) = memGet m (a + i)) :
    memNat m' a n = memNat m a n := by
  induction n generalizing a with
  | zero => rfl
  | succ n ih =>
    have h0 : memGet m' a = memGet m a := h 0 (by omega)
    rw [memNat, memNat, h0, ih (a + 1) fun i hi => by
      have := h (i + 1) (by omega)
      rwa [show a + (i + 1) = a + 1 + i by omega] at this]

theorem memNat_memSetList_out (bs : List Byte) (m : List Host.Cell) (a x n : Nat) (h : Memory.wf m = true)
    (hx : x + n ≤ a ∨ a + bs.length ≤ x) : memNat (memSetList m a bs) x n = memNat m x n :=
  memNat_congr _ _ n x fun i hi => by rw [memGet_memSetList _ _ _ _ h, if_neg (by omega)]

/-- Claiming a block changes no byte as its new key reads it. -/
theorem claimBlock_byteAs (s : State) (key blk a : Nat) (h : Memory.wf s.mem = true) :
    (s.claimBlock key blk).byteAs key a = s.byteAs key a := by
  unfold State.claimBlock
  split
  · rfl
  · by_cases hb : a / 16 = blk
    · rw [byteAs_blockAs s key a]
      have h1 : 16 * blk ≤ a ∧ a < 16 * blk + 16 := by omega
      have h2 : a - 16 * blk = a % 16 := by omega
      unfold State.byteAs
      simp only [hb, mapFind_mapPut_self, if_true]
      rw [memGet_memSetList _ _ _ _ h]
      simp only [natBytes_length, h1, and_self, if_true]
      rw [h2, natBytes_getD _ _ _ (Nat.mod_lt _ (by decide))]
    · rw [byteAs_blockAs, byteAs_blockAs, blockAs_congr s]
      · exact mapFind_mapPut_ne _ _ hb
      · exact memNat_memSetList_out _ _ _ _ _ h (by rw [natBytes_length]; omega)

theorem claimBlock_tag (s : State) (key blk : Nat) : mapFind (s.claimBlock key blk).tags blk = some key := by
  unfold State.claimBlock
  split
  · assumption
  · simp

theorem claimBlock_tag_ne (s : State) (key blk b : Nat) (h : b ≠ blk) :
    mapFind (s.claimBlock key blk).tags b = mapFind s.tags b := by
  unfold State.claimBlock
  split
  · rfl
  · simp [mapFind_mapPut_ne _ _ h]

theorem claimBlocks_wf (n : Nat) (s : State) (key blk : Nat) (h : Memory.wf s.mem = true) :
    Memory.wf (s.claimBlocks key blk n).mem = true := by
  induction n generalizing s blk with
  | zero => exact h
  | succ n ih => exact ih _ _ (claimBlock_wf s key blk h)

theorem claimBlocks_byteAs (n : Nat) (s : State) (key blk a : Nat) (h : Memory.wf s.mem = true) :
    (s.claimBlocks key blk n).byteAs key a = s.byteAs key a := by
  induction n generalizing s blk with
  | zero => rfl
  | succ n ih =>
    simp only [State.claimBlocks]
    rw [ih _ _ (claimBlock_wf s key blk h), claimBlock_byteAs s key blk a h]

theorem claimBlocks_tag_out (n : Nat) (s : State) (key blk b : Nat) (hb : b < blk ∨ blk + n ≤ b) :
    mapFind (s.claimBlocks key blk n).tags b = mapFind s.tags b := by
  induction n generalizing s blk with
  | zero => rfl
  | succ n ih =>
    simp only [State.claimBlocks]
    rw [ih _ _ (by omega), claimBlock_tag_ne _ _ _ _ (by omega)]

theorem claimBlocks_tag (n : Nat) (s : State) (key blk b : Nat) (hb : blk ≤ b ∧ b < blk + n) :
    mapFind (s.claimBlocks key blk n).tags b = some key := by
  induction n generalizing s blk with
  | zero => omega
  | succ n ih =>
    simp only [State.claimBlocks]
    by_cases h : b = blk
    · subst h
      rw [claimBlocks_tag_out _ _ _ _ _ (by omega), claimBlock_tag]
    · exact ih _ _ (by omega)

/-- A write under a key keeps the canonical form. -/
theorem writeAs_wf (s : State) (key loc : Nat) (bs : List Byte) (h : Memory.wf s.mem = true) :
    Memory.wf (s.writeAs key loc bs).mem = true := by
  unfold State.writeAs
  split
  · exact h
  · exact wf_memSetList _ _ _ (claimBlocks_wf _ s key _ h)

/-- A read under the key of the last write gives the bytes written, and every other byte as before (R308). -/
theorem writeAs_byteAs (s : State) (key loc a : Nat) (bs : List Byte) (h : Memory.wf s.mem = true) :
    (s.writeAs key loc bs).byteAs key a =
      if loc ≤ a ∧ a < loc + bs.length then bs.getD (a - loc) 0 else s.byteAs key a := by
  unfold State.writeAs
  split
  · rename_i he
    have : bs = [] := List.isEmpty_iff.mp he
    subst this
    have : ¬(loc ≤ a ∧ a < loc) := by omega
    simp [this]
  · have hw := claimBlocks_wf ((loc % 16 + bs.length + 15) / 16) s key (loc / 16) h
    have hold := claimBlocks_byteAs ((loc % 16 + bs.length + 15) / 16) s key (loc / 16) a h
    by_cases hin : loc / 16 ≤ a / 16 ∧ a / 16 < loc / 16 + (loc % 16 + bs.length + 15) / 16
    · have ht := claimBlocks_tag _ s key (loc / 16) (a / 16) hin
      rw [← hold]
      unfold State.byteAs
      simp only [ht, if_true]
      rw [memGet_memSetList _ _ _ _ hw]
    · have hout : ¬(loc ≤ a ∧ a < loc + bs.length) := by omega
      have hm : ∀ c : State, Memory.wf c.mem = true →
          State.blockAs { c with mem := memSetList c.mem loc bs } key (a / 16) = c.blockAs key (a / 16) := fun c hc =>
        blockAs_congr c { c with mem := memSetList c.mem loc bs } key (a / 16) rfl
          (memNat_memSetList_out _ _ _ _ _ hc (by omega))
      rw [← hold, if_neg hout, byteAs_blockAs, byteAs_blockAs, hm _ hw]

theorem claimBlock_memNat_out (s : State) (key blk x : Nat) (h : Memory.wf s.mem = true)
    (hx : x + 16 ≤ 16 * blk ∨ 16 * blk + 16 ≤ x) : memNat (s.claimBlock key blk).mem x 16 = memNat s.mem x 16 := by
  unfold State.claimBlock
  split
  · rfl
  · exact memNat_memSetList_out _ _ _ _ _ h (by rw [natBytes_length]; omega)

theorem claimBlocks_memNat_out (n : Nat) (s : State) (key blk x : Nat) (h : Memory.wf s.mem = true)
    (hx : x + 16 ≤ 16 * blk ∨ 16 * (blk + n) ≤ x) : memNat (s.claimBlocks key blk n).mem x 16 = memNat s.mem x 16 := by
  induction n generalizing s blk with
  | zero => rfl
  | succ n ih =>
    rw [State.claimBlocks, ih _ _ (claimBlock_wf s key blk h) (by omega), claimBlock_memNat_out s key blk x h (by omega)]

/-- A write leaves every byte of every other block alone, whichever key reads it. -/
theorem writeAs_byteAs_far (s : State) (key key' loc a : Nat) (bs : List Byte) (h : Memory.wf s.mem = true)
    (hb : a / 16 < loc / 16 ∨ loc / 16 + (loc % 16 + bs.length + 15) / 16 ≤ a / 16) :
    (s.writeAs key loc bs).byteAs key' a = s.byteAs key' a := by
  unfold State.writeAs
  split
  · rfl
  · rw [byteAs_blockAs, byteAs_blockAs, blockAs_congr s]
    · exact claimBlocks_tag_out _ s key _ _ (by omega)
    · have hw := claimBlocks_wf ((loc % 16 + bs.length + 15) / 16) s key (loc / 16) h
      show memNat (memSetList _ loc bs) _ 16 = _
      rw [memNat_memSetList_out _ _ _ _ _ hw (by omega), claimBlocks_memNat_out _ s key _ _ h (by omega)]

theorem wipeBlocks_wf (n : Nat) (s : State) (blk : Nat) (h : Memory.wf s.mem = true) : Memory.wf (s.wipeBlocks blk n).mem = true := by
  induction n generalizing s blk with
  | zero => exact h
  | succ n ih => exact ih _ _ (wf_memSetList _ _ _ h)

theorem copyBlock_wf (s : State) (src dst : Nat) (h : Memory.wf s.mem = true) : Memory.wf (s.copyBlock src dst).mem = true :=
  wf_memSetList _ _ _ h

theorem copyBlocks_wf (n : Nat) (s : State) (src dst : Nat) (h : Memory.wf s.mem = true) :
    Memory.wf (s.copyBlocks src dst n).mem = true := by
  induction n generalizing s src dst with
  | zero => exact h
  | succ n ih => exact ih _ _ _ (copyBlock_wf s src dst h)

/-! ### What memory operations leave alone besides memory -/

theorem cleanUnit_mem (s : State) (u : Nat) : (s.cleanUnit u).mem = s.mem := rfl

theorem copyUnit_mem (s : State) (src dst n : Nat) : (s.copyUnit src dst n).mem = s.mem := rfl

theorem copySector_wf (s : State) (src dst : Nat) (h : Memory.wf s.mem = true) : Memory.wf (s.copySector src dst).mem = true := by
  rw [State.copySector, copyUnit_mem]
  exact copyBlocks_wf 8 s (src / 16) (dst / 16) h

theorem dropSector_wf (s : State) (loc : Nat) (h : Memory.wf s.mem = true) : Memory.wf (s.dropSector loc).mem = true := by
  rw [State.dropSector, cleanUnit_mem]
  exact wipeBlocks_wf 8 s (loc / 16) h

theorem setFe_mem (s : State) (gpa : Nat) (full : Bool) : (s.setFe gpa full).mem = s.mem := by
  unfold State.setFe
  split <;> rfl

end Sys2Proof.Laws
end

