-- ==== Sys2Proof/Laws/State.lean ====
section
/-!
SUPPORT. The fields of the state after each named update of one unit, and what a read of a unit gives after an update.
-/

namespace Sys2Proof.Laws

open Sys2Proof.Machine

/-! ### updSlot -/

@[simp] theorem updSlot_cycle (s : State) (id : Nat) (f : Slot → Slot) : (s.updSlot id f).cycle = s.cycle := rfl
@[simp] theorem updSlot_cur (s : State) (id : Nat) (f : Slot → Slot) : (s.updSlot id f).cur = s.cur := rfl
@[simp] theorem updSlot_turnq (s : State) (id : Nat) (f : Slot → Slot) : (s.updSlot id f).turnq = s.turnq := rfl
@[simp] theorem updSlot_inputs (s : State) (id : Nat) (f : Slot → Slot) : (s.updSlot id f).inputs = s.inputs := rfl
@[simp] theorem updSlot_fresh (s : State) (id : Nat) (f : Slot → Slot) : (s.updSlot id f).fresh = s.fresh := rfl
@[simp] theorem updSlot_nextId (s : State) (id : Nat) (f : Slot → Slot) : (s.updSlot id f).nextId = s.nextId := rfl
@[simp] theorem updSlot_mem (s : State) (id : Nat) (f : Slot → Slot) : (s.updSlot id f).mem = s.mem := rfl
@[simp] theorem updSlot_tags (s : State) (id : Nat) (f : Slot → Slot) : (s.updSlot id f).tags = s.tags := rfl
@[simp] theorem updSlot_empties (s : State) (id : Nat) (f : Slot → Slot) : (s.updSlot id f).empties = s.empties := rfl
@[simp] theorem updSlot_soft (s : State) (id : Nat) (f : Slot → Slot) : (s.updSlot id f).soft = s.soft := rfl
@[simp] theorem updSlot_bad (s : State) (id : Nat) (f : Slot → Slot) : (s.updSlot id f).bad = s.bad := rfl
@[simp] theorem updSlot_regs (s : State) (id : Nat) (f : Slot → Slot) : (s.updSlot id f).regs = s.regs := rfl
@[simp] theorem updSlot_running (s : State) (id : Nat) (f : Slot → Slot) : (s.updSlot id f).running = s.running := rfl
@[simp] theorem updSlot_cores (s : State) (id : Nat) (f : Slot → Slot) : (s.updSlot id f).cores = s.cores := rfl
@[simp] theorem updSlot_creels (s : State) (id : Nat) (f : Slot → Slot) : (s.updSlot id f).creels = s.creels := rfl
@[simp] theorem updSlot_mods (s : State) (id : Nat) (f : Slot → Slot) : (s.updSlot id f).mods = s.mods := rfl
@[simp] theorem updSlot_weaves (s : State) (id : Nat) (f : Slot → Slot) : (s.updSlot id f).weaves = s.weaves := rfl
@[simp] theorem updSlot_accesses (s : State) (id : Nat) (f : Slot → Slot) : (s.updSlot id f).accesses = s.accesses := rfl
@[simp] theorem updSlot_fills (s : State) (id : Nat) (f : Slot → Slot) : (s.updSlot id f).fills = s.fills := rfl
@[simp] theorem updSlot_putxs (s : State) (id : Nat) (f : Slot → Slot) : (s.updSlot id f).putxs = s.putxs := rfl
@[simp] theorem updSlot_arms (s : State) (id : Nat) (f : Slot → Slot) : (s.updSlot id f).arms = s.arms := rfl
@[simp] theorem updSlot_preqs (s : State) (id : Nat) (f : Slot → Slot) : (s.updSlot id f).preqs = s.preqs := rfl
@[simp] theorem updSlot_hostMem (s : State) (id : Nat) (f : Slot → Slot) : (s.updSlot id f).hostMem = s.hostMem := rfl
@[simp] theorem updSlot_links (s : State) (id : Nat) (f : Slot → Slot) : (s.updSlot id f).links = s.links := rfl
@[simp] theorem updSlot_discarded (s : State) (id : Nat) (f : Slot → Slot) : (s.updSlot id f).discarded = s.discarded := rfl

/-! ### updMe -/

@[simp] theorem updMe_cycle (s : State) (f : Slot → Slot) : (s.updMe f).cycle = s.cycle := rfl
@[simp] theorem updMe_cur (s : State) (f : Slot → Slot) : (s.updMe f).cur = s.cur := rfl
@[simp] theorem updMe_turnq (s : State) (f : Slot → Slot) : (s.updMe f).turnq = s.turnq := rfl
@[simp] theorem updMe_inputs (s : State) (f : Slot → Slot) : (s.updMe f).inputs = s.inputs := rfl
@[simp] theorem updMe_fresh (s : State) (f : Slot → Slot) : (s.updMe f).fresh = s.fresh := rfl
@[simp] theorem updMe_nextId (s : State) (f : Slot → Slot) : (s.updMe f).nextId = s.nextId := rfl
@[simp] theorem updMe_mem (s : State) (f : Slot → Slot) : (s.updMe f).mem = s.mem := rfl
@[simp] theorem updMe_tags (s : State) (f : Slot → Slot) : (s.updMe f).tags = s.tags := rfl
@[simp] theorem updMe_empties (s : State) (f : Slot → Slot) : (s.updMe f).empties = s.empties := rfl
@[simp] theorem updMe_soft (s : State) (f : Slot → Slot) : (s.updMe f).soft = s.soft := rfl
@[simp] theorem updMe_bad (s : State) (f : Slot → Slot) : (s.updMe f).bad = s.bad := rfl
@[simp] theorem updMe_regs (s : State) (f : Slot → Slot) : (s.updMe f).regs = s.regs := rfl
@[simp] theorem updMe_running (s : State) (f : Slot → Slot) : (s.updMe f).running = s.running := rfl
@[simp] theorem updMe_cores (s : State) (f : Slot → Slot) : (s.updMe f).cores = s.cores := rfl
@[simp] theorem updMe_creels (s : State) (f : Slot → Slot) : (s.updMe f).creels = s.creels := rfl
@[simp] theorem updMe_mods (s : State) (f : Slot → Slot) : (s.updMe f).mods = s.mods := rfl
@[simp] theorem updMe_weaves (s : State) (f : Slot → Slot) : (s.updMe f).weaves = s.weaves := rfl
@[simp] theorem updMe_accesses (s : State) (f : Slot → Slot) : (s.updMe f).accesses = s.accesses := rfl
@[simp] theorem updMe_fills (s : State) (f : Slot → Slot) : (s.updMe f).fills = s.fills := rfl
@[simp] theorem updMe_putxs (s : State) (f : Slot → Slot) : (s.updMe f).putxs = s.putxs := rfl
@[simp] theorem updMe_arms (s : State) (f : Slot → Slot) : (s.updMe f).arms = s.arms := rfl
@[simp] theorem updMe_preqs (s : State) (f : Slot → Slot) : (s.updMe f).preqs = s.preqs := rfl
@[simp] theorem updMe_hostMem (s : State) (f : Slot → Slot) : (s.updMe f).hostMem = s.hostMem := rfl
@[simp] theorem updMe_links (s : State) (f : Slot → Slot) : (s.updMe f).links = s.links := rfl
@[simp] theorem updMe_discarded (s : State) (f : Slot → Slot) : (s.updMe f).discarded = s.discarded := rfl

/-! ### updCore -/

@[simp] theorem updCore_cycle (s : State) (c : Nat) (f : Core → Core) : (s.updCore c f).cycle = s.cycle := rfl
@[simp] theorem updCore_cur (s : State) (c : Nat) (f : Core → Core) : (s.updCore c f).cur = s.cur := rfl
@[simp] theorem updCore_turnq (s : State) (c : Nat) (f : Core → Core) : (s.updCore c f).turnq = s.turnq := rfl
@[simp] theorem updCore_inputs (s : State) (c : Nat) (f : Core → Core) : (s.updCore c f).inputs = s.inputs := rfl
@[simp] theorem updCore_fresh (s : State) (c : Nat) (f : Core → Core) : (s.updCore c f).fresh = s.fresh := rfl
@[simp] theorem updCore_nextId (s : State) (c : Nat) (f : Core → Core) : (s.updCore c f).nextId = s.nextId := rfl
@[simp] theorem updCore_mem (s : State) (c : Nat) (f : Core → Core) : (s.updCore c f).mem = s.mem := rfl
@[simp] theorem updCore_tags (s : State) (c : Nat) (f : Core → Core) : (s.updCore c f).tags = s.tags := rfl
@[simp] theorem updCore_empties (s : State) (c : Nat) (f : Core → Core) : (s.updCore c f).empties = s.empties := rfl
@[simp] theorem updCore_soft (s : State) (c : Nat) (f : Core → Core) : (s.updCore c f).soft = s.soft := rfl
@[simp] theorem updCore_bad (s : State) (c : Nat) (f : Core → Core) : (s.updCore c f).bad = s.bad := rfl
@[simp] theorem updCore_regs (s : State) (c : Nat) (f : Core → Core) : (s.updCore c f).regs = s.regs := rfl
@[simp] theorem updCore_slots (s : State) (c : Nat) (f : Core → Core) : (s.updCore c f).slots = s.slots := rfl
@[simp] theorem updCore_running (s : State) (c : Nat) (f : Core → Core) : (s.updCore c f).running = s.running := rfl
@[simp] theorem updCore_creels (s : State) (c : Nat) (f : Core → Core) : (s.updCore c f).creels = s.creels := rfl
@[simp] theorem updCore_mods (s : State) (c : Nat) (f : Core → Core) : (s.updCore c f).mods = s.mods := rfl
@[simp] theorem updCore_weaves (s : State) (c : Nat) (f : Core → Core) : (s.updCore c f).weaves = s.weaves := rfl
@[simp] theorem updCore_accesses (s : State) (c : Nat) (f : Core → Core) : (s.updCore c f).accesses = s.accesses := rfl
@[simp] theorem updCore_fills (s : State) (c : Nat) (f : Core → Core) : (s.updCore c f).fills = s.fills := rfl
@[simp] theorem updCore_putxs (s : State) (c : Nat) (f : Core → Core) : (s.updCore c f).putxs = s.putxs := rfl
@[simp] theorem updCore_arms (s : State) (c : Nat) (f : Core → Core) : (s.updCore c f).arms = s.arms := rfl
@[simp] theorem updCore_preqs (s : State) (c : Nat) (f : Core → Core) : (s.updCore c f).preqs = s.preqs := rfl
@[simp] theorem updCore_hostMem (s : State) (c : Nat) (f : Core → Core) : (s.updCore c f).hostMem = s.hostMem := rfl
@[simp] theorem updCore_links (s : State) (c : Nat) (f : Core → Core) : (s.updCore c f).links = s.links := rfl
@[simp] theorem updCore_discarded (s : State) (c : Nat) (f : Core → Core) : (s.updCore c f).discarded = s.discarded := rfl

/-! ### updCreel -/

@[simp] theorem updCreel_cycle (s : State) (lin : Nat) (f : Creel → Creel) : (s.updCreel lin f).cycle = s.cycle := rfl
@[simp] theorem updCreel_cur (s : State) (lin : Nat) (f : Creel → Creel) : (s.updCreel lin f).cur = s.cur := rfl
@[simp] theorem updCreel_turnq (s : State) (lin : Nat) (f : Creel → Creel) : (s.updCreel lin f).turnq = s.turnq := rfl
@[simp] theorem updCreel_inputs (s : State) (lin : Nat) (f : Creel → Creel) : (s.updCreel lin f).inputs = s.inputs := rfl
@[simp] theorem updCreel_fresh (s : State) (lin : Nat) (f : Creel → Creel) : (s.updCreel lin f).fresh = s.fresh := rfl
@[simp] theorem updCreel_nextId (s : State) (lin : Nat) (f : Creel → Creel) : (s.updCreel lin f).nextId = s.nextId := rfl
@[simp] theorem updCreel_mem (s : State) (lin : Nat) (f : Creel → Creel) : (s.updCreel lin f).mem = s.mem := rfl
@[simp] theorem updCreel_tags (s : State) (lin : Nat) (f : Creel → Creel) : (s.updCreel lin f).tags = s.tags := rfl
@[simp] theorem updCreel_empties (s : State) (lin : Nat) (f : Creel → Creel) : (s.updCreel lin f).empties = s.empties := rfl
@[simp] theorem updCreel_soft (s : State) (lin : Nat) (f : Creel → Creel) : (s.updCreel lin f).soft = s.soft := rfl
@[simp] theorem updCreel_bad (s : State) (lin : Nat) (f : Creel → Creel) : (s.updCreel lin f).bad = s.bad := rfl
@[simp] theorem updCreel_regs (s : State) (lin : Nat) (f : Creel → Creel) : (s.updCreel lin f).regs = s.regs := rfl
@[simp] theorem updCreel_slots (s : State) (lin : Nat) (f : Creel → Creel) : (s.updCreel lin f).slots = s.slots := rfl
@[simp] theorem updCreel_running (s : State) (lin : Nat) (f : Creel → Creel) : (s.updCreel lin f).running = s.running := rfl
@[simp] theorem updCreel_cores (s : State) (lin : Nat) (f : Creel → Creel) : (s.updCreel lin f).cores = s.cores := rfl
@[simp] theorem updCreel_mods (s : State) (lin : Nat) (f : Creel → Creel) : (s.updCreel lin f).mods = s.mods := rfl
@[simp] theorem updCreel_weaves (s : State) (lin : Nat) (f : Creel → Creel) : (s.updCreel lin f).weaves = s.weaves := rfl
@[simp] theorem updCreel_accesses (s : State) (lin : Nat) (f : Creel → Creel) : (s.updCreel lin f).accesses = s.accesses := rfl
@[simp] theorem updCreel_fills (s : State) (lin : Nat) (f : Creel → Creel) : (s.updCreel lin f).fills = s.fills := rfl
@[simp] theorem updCreel_putxs (s : State) (lin : Nat) (f : Creel → Creel) : (s.updCreel lin f).putxs = s.putxs := rfl
@[simp] theorem updCreel_arms (s : State) (lin : Nat) (f : Creel → Creel) : (s.updCreel lin f).arms = s.arms := rfl
@[simp] theorem updCreel_preqs (s : State) (lin : Nat) (f : Creel → Creel) : (s.updCreel lin f).preqs = s.preqs := rfl
@[simp] theorem updCreel_hostMem (s : State) (lin : Nat) (f : Creel → Creel) : (s.updCreel lin f).hostMem = s.hostMem := rfl
@[simp] theorem updCreel_links (s : State) (lin : Nat) (f : Creel → Creel) : (s.updCreel lin f).links = s.links := rfl
@[simp] theorem updCreel_discarded (s : State) (lin : Nat) (f : Creel → Creel) : (s.updCreel lin f).discarded = s.discarded := rfl

/-! ### updModule -/

@[simp] theorem updModule_cycle (s : State) (m : Nat) (f : Module → Module) : (s.updModule m f).cycle = s.cycle := rfl
@[simp] theorem updModule_cur (s : State) (m : Nat) (f : Module → Module) : (s.updModule m f).cur = s.cur := rfl
@[simp] theorem updModule_turnq (s : State) (m : Nat) (f : Module → Module) : (s.updModule m f).turnq = s.turnq := rfl
@[simp] theorem updModule_inputs (s : State) (m : Nat) (f : Module → Module) : (s.updModule m f).inputs = s.inputs := rfl
@[simp] theorem updModule_fresh (s : State) (m : Nat) (f : Module → Module) : (s.updModule m f).fresh = s.fresh := rfl
@[simp] theorem updModule_nextId (s : State) (m : Nat) (f : Module → Module) : (s.updModule m f).nextId = s.nextId := rfl
@[simp] theorem updModule_mem (s : State) (m : Nat) (f : Module → Module) : (s.updModule m f).mem = s.mem := rfl
@[simp] theorem updModule_tags (s : State) (m : Nat) (f : Module → Module) : (s.updModule m f).tags = s.tags := rfl
@[simp] theorem updModule_empties (s : State) (m : Nat) (f : Module → Module) : (s.updModule m f).empties = s.empties := rfl
@[simp] theorem updModule_soft (s : State) (m : Nat) (f : Module → Module) : (s.updModule m f).soft = s.soft := rfl
@[simp] theorem updModule_bad (s : State) (m : Nat) (f : Module → Module) : (s.updModule m f).bad = s.bad := rfl
@[simp] theorem updModule_regs (s : State) (m : Nat) (f : Module → Module) : (s.updModule m f).regs = s.regs := rfl
@[simp] theorem updModule_slots (s : State) (m : Nat) (f : Module → Module) : (s.updModule m f).slots = s.slots := rfl
@[simp] theorem updModule_running (s : State) (m : Nat) (f : Module → Module) : (s.updModule m f).running = s.running := rfl
@[simp] theorem updModule_cores (s : State) (m : Nat) (f : Module → Module) : (s.updModule m f).cores = s.cores := rfl
@[simp] theorem updModule_creels (s : State) (m : Nat) (f : Module → Module) : (s.updModule m f).creels = s.creels := rfl
@[simp] theorem updModule_weaves (s : State) (m : Nat) (f : Module → Module) : (s.updModule m f).weaves = s.weaves := rfl
@[simp] theorem updModule_accesses (s : State) (m : Nat) (f : Module → Module) : (s.updModule m f).accesses = s.accesses := rfl
@[simp] theorem updModule_fills (s : State) (m : Nat) (f : Module → Module) : (s.updModule m f).fills = s.fills := rfl
@[simp] theorem updModule_putxs (s : State) (m : Nat) (f : Module → Module) : (s.updModule m f).putxs = s.putxs := rfl
@[simp] theorem updModule_arms (s : State) (m : Nat) (f : Module → Module) : (s.updModule m f).arms = s.arms := rfl
@[simp] theorem updModule_preqs (s : State) (m : Nat) (f : Module → Module) : (s.updModule m f).preqs = s.preqs := rfl
@[simp] theorem updModule_hostMem (s : State) (m : Nat) (f : Module → Module) : (s.updModule m f).hostMem = s.hostMem := rfl
@[simp] theorem updModule_links (s : State) (m : Nat) (f : Module → Module) : (s.updModule m f).links = s.links := rfl
@[simp] theorem updModule_discarded (s : State) (m : Nat) (f : Module → Module) : (s.updModule m f).discarded = s.discarded := rfl

/-! ### setEntry -/

@[simp] theorem setEntry_cycle (s : State) (e : Nat) (r : Reg) : (s.setEntry e r).cycle = s.cycle := rfl
@[simp] theorem setEntry_cur (s : State) (e : Nat) (r : Reg) : (s.setEntry e r).cur = s.cur := rfl
@[simp] theorem setEntry_turnq (s : State) (e : Nat) (r : Reg) : (s.setEntry e r).turnq = s.turnq := rfl
@[simp] theorem setEntry_inputs (s : State) (e : Nat) (r : Reg) : (s.setEntry e r).inputs = s.inputs := rfl
@[simp] theorem setEntry_fresh (s : State) (e : Nat) (r : Reg) : (s.setEntry e r).fresh = s.fresh := rfl
@[simp] theorem setEntry_nextId (s : State) (e : Nat) (r : Reg) : (s.setEntry e r).nextId = s.nextId := rfl
@[simp] theorem setEntry_mem (s : State) (e : Nat) (r : Reg) : (s.setEntry e r).mem = s.mem := rfl
@[simp] theorem setEntry_tags (s : State) (e : Nat) (r : Reg) : (s.setEntry e r).tags = s.tags := rfl
@[simp] theorem setEntry_empties (s : State) (e : Nat) (r : Reg) : (s.setEntry e r).empties = s.empties := rfl
@[simp] theorem setEntry_soft (s : State) (e : Nat) (r : Reg) : (s.setEntry e r).soft = s.soft := rfl
@[simp] theorem setEntry_bad (s : State) (e : Nat) (r : Reg) : (s.setEntry e r).bad = s.bad := rfl
@[simp] theorem setEntry_slots (s : State) (e : Nat) (r : Reg) : (s.setEntry e r).slots = s.slots := rfl
@[simp] theorem setEntry_running (s : State) (e : Nat) (r : Reg) : (s.setEntry e r).running = s.running := rfl
@[simp] theorem setEntry_cores (s : State) (e : Nat) (r : Reg) : (s.setEntry e r).cores = s.cores := rfl
@[simp] theorem setEntry_creels (s : State) (e : Nat) (r : Reg) : (s.setEntry e r).creels = s.creels := rfl
@[simp] theorem setEntry_mods (s : State) (e : Nat) (r : Reg) : (s.setEntry e r).mods = s.mods := rfl
@[simp] theorem setEntry_weaves (s : State) (e : Nat) (r : Reg) : (s.setEntry e r).weaves = s.weaves := rfl
@[simp] theorem setEntry_accesses (s : State) (e : Nat) (r : Reg) : (s.setEntry e r).accesses = s.accesses := rfl
@[simp] theorem setEntry_fills (s : State) (e : Nat) (r : Reg) : (s.setEntry e r).fills = s.fills := rfl
@[simp] theorem setEntry_putxs (s : State) (e : Nat) (r : Reg) : (s.setEntry e r).putxs = s.putxs := rfl
@[simp] theorem setEntry_arms (s : State) (e : Nat) (r : Reg) : (s.setEntry e r).arms = s.arms := rfl
@[simp] theorem setEntry_preqs (s : State) (e : Nat) (r : Reg) : (s.setEntry e r).preqs = s.preqs := rfl
@[simp] theorem setEntry_hostMem (s : State) (e : Nat) (r : Reg) : (s.setEntry e r).hostMem = s.hostMem := rfl
@[simp] theorem setEntry_links (s : State) (e : Nat) (r : Reg) : (s.setEntry e r).links = s.links := rfl
@[simp] theorem setEntry_discarded (s : State) (e : Nat) (r : Reg) : (s.setEntry e r).discarded = s.discarded := rfl

/-! ### waitOf -/

@[simp] theorem waitOf_cycle (s : State) (id : Nat) (w : Wait) : (s.waitOf id w).cycle = s.cycle := rfl
@[simp] theorem waitOf_cur (s : State) (id : Nat) (w : Wait) : (s.waitOf id w).cur = s.cur := rfl
@[simp] theorem waitOf_turnq (s : State) (id : Nat) (w : Wait) : (s.waitOf id w).turnq = s.turnq := rfl
@[simp] theorem waitOf_inputs (s : State) (id : Nat) (w : Wait) : (s.waitOf id w).inputs = s.inputs := rfl
@[simp] theorem waitOf_fresh (s : State) (id : Nat) (w : Wait) : (s.waitOf id w).fresh = s.fresh := rfl
@[simp] theorem waitOf_nextId (s : State) (id : Nat) (w : Wait) : (s.waitOf id w).nextId = s.nextId := rfl
@[simp] theorem waitOf_mem (s : State) (id : Nat) (w : Wait) : (s.waitOf id w).mem = s.mem := rfl
@[simp] theorem waitOf_tags (s : State) (id : Nat) (w : Wait) : (s.waitOf id w).tags = s.tags := rfl
@[simp] theorem waitOf_empties (s : State) (id : Nat) (w : Wait) : (s.waitOf id w).empties = s.empties := rfl
@[simp] theorem waitOf_soft (s : State) (id : Nat) (w : Wait) : (s.waitOf id w).soft = s.soft := rfl
@[simp] theorem waitOf_bad (s : State) (id : Nat) (w : Wait) : (s.waitOf id w).bad = s.bad := rfl
@[simp] theorem waitOf_regs (s : State) (id : Nat) (w : Wait) : (s.waitOf id w).regs = s.regs := rfl
@[simp] theorem waitOf_running (s : State) (id : Nat) (w : Wait) : (s.waitOf id w).running = s.running := rfl
@[simp] theorem waitOf_cores (s : State) (id : Nat) (w : Wait) : (s.waitOf id w).cores = s.cores := rfl
@[simp] theorem waitOf_creels (s : State) (id : Nat) (w : Wait) : (s.waitOf id w).creels = s.creels := rfl
@[simp] theorem waitOf_mods (s : State) (id : Nat) (w : Wait) : (s.waitOf id w).mods = s.mods := rfl
@[simp] theorem waitOf_weaves (s : State) (id : Nat) (w : Wait) : (s.waitOf id w).weaves = s.weaves := rfl
@[simp] theorem waitOf_accesses (s : State) (id : Nat) (w : Wait) : (s.waitOf id w).accesses = s.accesses := rfl
@[simp] theorem waitOf_fills (s : State) (id : Nat) (w : Wait) : (s.waitOf id w).fills = s.fills := rfl
@[simp] theorem waitOf_putxs (s : State) (id : Nat) (w : Wait) : (s.waitOf id w).putxs = s.putxs := rfl
@[simp] theorem waitOf_arms (s : State) (id : Nat) (w : Wait) : (s.waitOf id w).arms = s.arms := rfl
@[simp] theorem waitOf_preqs (s : State) (id : Nat) (w : Wait) : (s.waitOf id w).preqs = s.preqs := rfl
@[simp] theorem waitOf_hostMem (s : State) (id : Nat) (w : Wait) : (s.waitOf id w).hostMem = s.hostMem := rfl
@[simp] theorem waitOf_links (s : State) (id : Nat) (w : Wait) : (s.waitOf id w).links = s.links := rfl
@[simp] theorem waitOf_discarded (s : State) (id : Nat) (w : Wait) : (s.waitOf id w).discarded = s.discarded := rfl

/-! ### retireOf -/

@[simp] theorem retireOf_cycle (s : State) (id n : Nat) : (s.retireOf id n).cycle = s.cycle := rfl
@[simp] theorem retireOf_cur (s : State) (id n : Nat) : (s.retireOf id n).cur = s.cur := rfl
@[simp] theorem retireOf_turnq (s : State) (id n : Nat) : (s.retireOf id n).turnq = s.turnq := rfl
@[simp] theorem retireOf_inputs (s : State) (id n : Nat) : (s.retireOf id n).inputs = s.inputs := rfl
@[simp] theorem retireOf_fresh (s : State) (id n : Nat) : (s.retireOf id n).fresh = s.fresh := rfl
@[simp] theorem retireOf_nextId (s : State) (id n : Nat) : (s.retireOf id n).nextId = s.nextId := rfl
@[simp] theorem retireOf_mem (s : State) (id n : Nat) : (s.retireOf id n).mem = s.mem := rfl
@[simp] theorem retireOf_tags (s : State) (id n : Nat) : (s.retireOf id n).tags = s.tags := rfl
@[simp] theorem retireOf_empties (s : State) (id n : Nat) : (s.retireOf id n).empties = s.empties := rfl
@[simp] theorem retireOf_soft (s : State) (id n : Nat) : (s.retireOf id n).soft = s.soft := rfl
@[simp] theorem retireOf_bad (s : State) (id n : Nat) : (s.retireOf id n).bad = s.bad := rfl
@[simp] theorem retireOf_regs (s : State) (id n : Nat) : (s.retireOf id n).regs = s.regs := rfl
@[simp] theorem retireOf_running (s : State) (id n : Nat) : (s.retireOf id n).running = s.running := rfl
@[simp] theorem retireOf_cores (s : State) (id n : Nat) : (s.retireOf id n).cores = s.cores := rfl
@[simp] theorem retireOf_creels (s : State) (id n : Nat) : (s.retireOf id n).creels = s.creels := rfl
@[simp] theorem retireOf_mods (s : State) (id n : Nat) : (s.retireOf id n).mods = s.mods := rfl
@[simp] theorem retireOf_weaves (s : State) (id n : Nat) : (s.retireOf id n).weaves = s.weaves := rfl
@[simp] theorem retireOf_accesses (s : State) (id n : Nat) : (s.retireOf id n).accesses = s.accesses := rfl
@[simp] theorem retireOf_fills (s : State) (id n : Nat) : (s.retireOf id n).fills = s.fills := rfl
@[simp] theorem retireOf_putxs (s : State) (id n : Nat) : (s.retireOf id n).putxs = s.putxs := rfl
@[simp] theorem retireOf_arms (s : State) (id n : Nat) : (s.retireOf id n).arms = s.arms := rfl
@[simp] theorem retireOf_preqs (s : State) (id n : Nat) : (s.retireOf id n).preqs = s.preqs := rfl
@[simp] theorem retireOf_hostMem (s : State) (id n : Nat) : (s.retireOf id n).hostMem = s.hostMem := rfl
@[simp] theorem retireOf_links (s : State) (id n : Nat) : (s.retireOf id n).links = s.links := rfl
@[simp] theorem retireOf_discarded (s : State) (id n : Nat) : (s.retireOf id n).discarded = s.discarded := rfl

/-! ### retire -/

@[simp] theorem retire_cycle (s : State) (n : Nat) : (s.retire n).cycle = s.cycle := rfl
@[simp] theorem retire_cur (s : State) (n : Nat) : (s.retire n).cur = s.cur := rfl
@[simp] theorem retire_turnq (s : State) (n : Nat) : (s.retire n).turnq = s.turnq := rfl
@[simp] theorem retire_inputs (s : State) (n : Nat) : (s.retire n).inputs = s.inputs := rfl
@[simp] theorem retire_fresh (s : State) (n : Nat) : (s.retire n).fresh = s.fresh := rfl
@[simp] theorem retire_nextId (s : State) (n : Nat) : (s.retire n).nextId = s.nextId := rfl
@[simp] theorem retire_mem (s : State) (n : Nat) : (s.retire n).mem = s.mem := rfl
@[simp] theorem retire_tags (s : State) (n : Nat) : (s.retire n).tags = s.tags := rfl
@[simp] theorem retire_empties (s : State) (n : Nat) : (s.retire n).empties = s.empties := rfl
@[simp] theorem retire_soft (s : State) (n : Nat) : (s.retire n).soft = s.soft := rfl
@[simp] theorem retire_bad (s : State) (n : Nat) : (s.retire n).bad = s.bad := rfl
@[simp] theorem retire_regs (s : State) (n : Nat) : (s.retire n).regs = s.regs := rfl
@[simp] theorem retire_running (s : State) (n : Nat) : (s.retire n).running = s.running := rfl
@[simp] theorem retire_cores (s : State) (n : Nat) : (s.retire n).cores = s.cores := rfl
@[simp] theorem retire_creels (s : State) (n : Nat) : (s.retire n).creels = s.creels := rfl
@[simp] theorem retire_mods (s : State) (n : Nat) : (s.retire n).mods = s.mods := rfl
@[simp] theorem retire_weaves (s : State) (n : Nat) : (s.retire n).weaves = s.weaves := rfl
@[simp] theorem retire_accesses (s : State) (n : Nat) : (s.retire n).accesses = s.accesses := rfl
@[simp] theorem retire_fills (s : State) (n : Nat) : (s.retire n).fills = s.fills := rfl
@[simp] theorem retire_putxs (s : State) (n : Nat) : (s.retire n).putxs = s.putxs := rfl
@[simp] theorem retire_arms (s : State) (n : Nat) : (s.retire n).arms = s.arms := rfl
@[simp] theorem retire_preqs (s : State) (n : Nat) : (s.retire n).preqs = s.preqs := rfl
@[simp] theorem retire_hostMem (s : State) (n : Nat) : (s.retire n).hostMem = s.hostMem := rfl
@[simp] theorem retire_links (s : State) (n : Nat) : (s.retire n).links = s.links := rfl
@[simp] theorem retire_discarded (s : State) (n : Nat) : (s.retire n).discarded = s.discarded := rfl

/-! ### jump -/

@[simp] theorem jump_cycle (s : State) (t : Nat) : (s.jump t).cycle = s.cycle := rfl
@[simp] theorem jump_cur (s : State) (t : Nat) : (s.jump t).cur = s.cur := rfl
@[simp] theorem jump_turnq (s : State) (t : Nat) : (s.jump t).turnq = s.turnq := rfl
@[simp] theorem jump_inputs (s : State) (t : Nat) : (s.jump t).inputs = s.inputs := rfl
@[simp] theorem jump_fresh (s : State) (t : Nat) : (s.jump t).fresh = s.fresh := rfl
@[simp] theorem jump_nextId (s : State) (t : Nat) : (s.jump t).nextId = s.nextId := rfl
@[simp] theorem jump_mem (s : State) (t : Nat) : (s.jump t).mem = s.mem := rfl
@[simp] theorem jump_tags (s : State) (t : Nat) : (s.jump t).tags = s.tags := rfl
@[simp] theorem jump_empties (s : State) (t : Nat) : (s.jump t).empties = s.empties := rfl
@[simp] theorem jump_soft (s : State) (t : Nat) : (s.jump t).soft = s.soft := rfl
@[simp] theorem jump_bad (s : State) (t : Nat) : (s.jump t).bad = s.bad := rfl
@[simp] theorem jump_regs (s : State) (t : Nat) : (s.jump t).regs = s.regs := rfl
@[simp] theorem jump_running (s : State) (t : Nat) : (s.jump t).running = s.running := rfl
@[simp] theorem jump_cores (s : State) (t : Nat) : (s.jump t).cores = s.cores := rfl
@[simp] theorem jump_creels (s : State) (t : Nat) : (s.jump t).creels = s.creels := rfl
@[simp] theorem jump_mods (s : State) (t : Nat) : (s.jump t).mods = s.mods := rfl
@[simp] theorem jump_weaves (s : State) (t : Nat) : (s.jump t).weaves = s.weaves := rfl
@[simp] theorem jump_accesses (s : State) (t : Nat) : (s.jump t).accesses = s.accesses := rfl
@[simp] theorem jump_fills (s : State) (t : Nat) : (s.jump t).fills = s.fills := rfl
@[simp] theorem jump_putxs (s : State) (t : Nat) : (s.jump t).putxs = s.putxs := rfl
@[simp] theorem jump_arms (s : State) (t : Nat) : (s.jump t).arms = s.arms := rfl
@[simp] theorem jump_preqs (s : State) (t : Nat) : (s.jump t).preqs = s.preqs := rfl
@[simp] theorem jump_hostMem (s : State) (t : Nat) : (s.jump t).hostMem = s.hostMem := rfl
@[simp] theorem jump_links (s : State) (t : Nat) : (s.jump t).links = s.links := rfl
@[simp] theorem jump_discarded (s : State) (t : Nat) : (s.jump t).discarded = s.discarded := rfl

/-! ### park -/

@[simp] theorem park_cycle (s : State) (w : Wait) : (s.park w).cycle = s.cycle := rfl
@[simp] theorem park_cur (s : State) (w : Wait) : (s.park w).cur = s.cur := rfl
@[simp] theorem park_turnq (s : State) (w : Wait) : (s.park w).turnq = s.turnq := rfl
@[simp] theorem park_inputs (s : State) (w : Wait) : (s.park w).inputs = s.inputs := rfl
@[simp] theorem park_fresh (s : State) (w : Wait) : (s.park w).fresh = s.fresh := rfl
@[simp] theorem park_nextId (s : State) (w : Wait) : (s.park w).nextId = s.nextId := rfl
@[simp] theorem park_mem (s : State) (w : Wait) : (s.park w).mem = s.mem := rfl
@[simp] theorem park_tags (s : State) (w : Wait) : (s.park w).tags = s.tags := rfl
@[simp] theorem park_empties (s : State) (w : Wait) : (s.park w).empties = s.empties := rfl
@[simp] theorem park_soft (s : State) (w : Wait) : (s.park w).soft = s.soft := rfl
@[simp] theorem park_bad (s : State) (w : Wait) : (s.park w).bad = s.bad := rfl
@[simp] theorem park_regs (s : State) (w : Wait) : (s.park w).regs = s.regs := rfl
@[simp] theorem park_running (s : State) (w : Wait) : (s.park w).running = s.running := rfl
@[simp] theorem park_cores (s : State) (w : Wait) : (s.park w).cores = s.cores := rfl
@[simp] theorem park_creels (s : State) (w : Wait) : (s.park w).creels = s.creels := rfl
@[simp] theorem park_mods (s : State) (w : Wait) : (s.park w).mods = s.mods := rfl
@[simp] theorem park_weaves (s : State) (w : Wait) : (s.park w).weaves = s.weaves := rfl
@[simp] theorem park_accesses (s : State) (w : Wait) : (s.park w).accesses = s.accesses := rfl
@[simp] theorem park_fills (s : State) (w : Wait) : (s.park w).fills = s.fills := rfl
@[simp] theorem park_putxs (s : State) (w : Wait) : (s.park w).putxs = s.putxs := rfl
@[simp] theorem park_arms (s : State) (w : Wait) : (s.park w).arms = s.arms := rfl
@[simp] theorem park_preqs (s : State) (w : Wait) : (s.park w).preqs = s.preqs := rfl
@[simp] theorem park_hostMem (s : State) (w : Wait) : (s.park w).hostMem = s.hostMem := rfl
@[simp] theorem park_links (s : State) (w : Wait) : (s.park w).links = s.links := rfl
@[simp] theorem park_discarded (s : State) (w : Wait) : (s.park w).discarded = s.discarded := rfl

/-! ### wait -/

@[simp] theorem wait_cycle (s : State) (w : Wait) : (s.wait w).cycle = s.cycle := rfl
@[simp] theorem wait_cur (s : State) (w : Wait) : (s.wait w).cur = s.cur := rfl
@[simp] theorem wait_turnq (s : State) (w : Wait) : (s.wait w).turnq = s.turnq := rfl
@[simp] theorem wait_inputs (s : State) (w : Wait) : (s.wait w).inputs = s.inputs := rfl
@[simp] theorem wait_fresh (s : State) (w : Wait) : (s.wait w).fresh = s.fresh := rfl
@[simp] theorem wait_nextId (s : State) (w : Wait) : (s.wait w).nextId = s.nextId := rfl
@[simp] theorem wait_mem (s : State) (w : Wait) : (s.wait w).mem = s.mem := rfl
@[simp] theorem wait_tags (s : State) (w : Wait) : (s.wait w).tags = s.tags := rfl
@[simp] theorem wait_empties (s : State) (w : Wait) : (s.wait w).empties = s.empties := rfl
@[simp] theorem wait_soft (s : State) (w : Wait) : (s.wait w).soft = s.soft := rfl
@[simp] theorem wait_bad (s : State) (w : Wait) : (s.wait w).bad = s.bad := rfl
@[simp] theorem wait_regs (s : State) (w : Wait) : (s.wait w).regs = s.regs := rfl
@[simp] theorem wait_running (s : State) (w : Wait) : (s.wait w).running = s.running := rfl
@[simp] theorem wait_cores (s : State) (w : Wait) : (s.wait w).cores = s.cores := rfl
@[simp] theorem wait_creels (s : State) (w : Wait) : (s.wait w).creels = s.creels := rfl
@[simp] theorem wait_mods (s : State) (w : Wait) : (s.wait w).mods = s.mods := rfl
@[simp] theorem wait_weaves (s : State) (w : Wait) : (s.wait w).weaves = s.weaves := rfl
@[simp] theorem wait_accesses (s : State) (w : Wait) : (s.wait w).accesses = s.accesses := rfl
@[simp] theorem wait_fills (s : State) (w : Wait) : (s.wait w).fills = s.fills := rfl
@[simp] theorem wait_putxs (s : State) (w : Wait) : (s.wait w).putxs = s.putxs := rfl
@[simp] theorem wait_arms (s : State) (w : Wait) : (s.wait w).arms = s.arms := rfl
@[simp] theorem wait_preqs (s : State) (w : Wait) : (s.wait w).preqs = s.preqs := rfl
@[simp] theorem wait_hostMem (s : State) (w : Wait) : (s.wait w).hostMem = s.hostMem := rfl
@[simp] theorem wait_links (s : State) (w : Wait) : (s.wait w).links = s.links := rfl
@[simp] theorem wait_discarded (s : State) (w : Wait) : (s.wait w).discarded = s.discarded := rfl

/-! ### updWeave -/

@[simp] theorem updWeave_cycle (s : State) (wv : Nat) (f : Weave → Weave) : (s.updWeave wv f).cycle = s.cycle := by unfold State.updWeave; split <;> rfl
@[simp] theorem updWeave_cur (s : State) (wv : Nat) (f : Weave → Weave) : (s.updWeave wv f).cur = s.cur := by unfold State.updWeave; split <;> rfl
@[simp] theorem updWeave_turnq (s : State) (wv : Nat) (f : Weave → Weave) : (s.updWeave wv f).turnq = s.turnq := by unfold State.updWeave; split <;> rfl
@[simp] theorem updWeave_inputs (s : State) (wv : Nat) (f : Weave → Weave) : (s.updWeave wv f).inputs = s.inputs := by unfold State.updWeave; split <;> rfl
@[simp] theorem updWeave_fresh (s : State) (wv : Nat) (f : Weave → Weave) : (s.updWeave wv f).fresh = s.fresh := by unfold State.updWeave; split <;> rfl
@[simp] theorem updWeave_nextId (s : State) (wv : Nat) (f : Weave → Weave) : (s.updWeave wv f).nextId = s.nextId := by unfold State.updWeave; split <;> rfl
@[simp] theorem updWeave_mem (s : State) (wv : Nat) (f : Weave → Weave) : (s.updWeave wv f).mem = s.mem := by unfold State.updWeave; split <;> rfl
@[simp] theorem updWeave_tags (s : State) (wv : Nat) (f : Weave → Weave) : (s.updWeave wv f).tags = s.tags := by unfold State.updWeave; split <;> rfl
@[simp] theorem updWeave_empties (s : State) (wv : Nat) (f : Weave → Weave) : (s.updWeave wv f).empties = s.empties := by unfold State.updWeave; split <;> rfl
@[simp] theorem updWeave_soft (s : State) (wv : Nat) (f : Weave → Weave) : (s.updWeave wv f).soft = s.soft := by unfold State.updWeave; split <;> rfl
@[simp] theorem updWeave_bad (s : State) (wv : Nat) (f : Weave → Weave) : (s.updWeave wv f).bad = s.bad := by unfold State.updWeave; split <;> rfl
@[simp] theorem updWeave_regs (s : State) (wv : Nat) (f : Weave → Weave) : (s.updWeave wv f).regs = s.regs := by unfold State.updWeave; split <;> rfl
@[simp] theorem updWeave_slots (s : State) (wv : Nat) (f : Weave → Weave) : (s.updWeave wv f).slots = s.slots := by unfold State.updWeave; split <;> rfl
@[simp] theorem updWeave_running (s : State) (wv : Nat) (f : Weave → Weave) : (s.updWeave wv f).running = s.running := by unfold State.updWeave; split <;> rfl
@[simp] theorem updWeave_cores (s : State) (wv : Nat) (f : Weave → Weave) : (s.updWeave wv f).cores = s.cores := by unfold State.updWeave; split <;> rfl
@[simp] theorem updWeave_creels (s : State) (wv : Nat) (f : Weave → Weave) : (s.updWeave wv f).creels = s.creels := by unfold State.updWeave; split <;> rfl
@[simp] theorem updWeave_mods (s : State) (wv : Nat) (f : Weave → Weave) : (s.updWeave wv f).mods = s.mods := by unfold State.updWeave; split <;> rfl
@[simp] theorem updWeave_accesses (s : State) (wv : Nat) (f : Weave → Weave) : (s.updWeave wv f).accesses = s.accesses := by unfold State.updWeave; split <;> rfl
@[simp] theorem updWeave_fills (s : State) (wv : Nat) (f : Weave → Weave) : (s.updWeave wv f).fills = s.fills := by unfold State.updWeave; split <;> rfl
@[simp] theorem updWeave_putxs (s : State) (wv : Nat) (f : Weave → Weave) : (s.updWeave wv f).putxs = s.putxs := by unfold State.updWeave; split <;> rfl
@[simp] theorem updWeave_arms (s : State) (wv : Nat) (f : Weave → Weave) : (s.updWeave wv f).arms = s.arms := by unfold State.updWeave; split <;> rfl
@[simp] theorem updWeave_preqs (s : State) (wv : Nat) (f : Weave → Weave) : (s.updWeave wv f).preqs = s.preqs := by unfold State.updWeave; split <;> rfl
@[simp] theorem updWeave_hostMem (s : State) (wv : Nat) (f : Weave → Weave) : (s.updWeave wv f).hostMem = s.hostMem := by unfold State.updWeave; split <;> rfl
@[simp] theorem updWeave_links (s : State) (wv : Nat) (f : Weave → Weave) : (s.updWeave wv f).links = s.links := by unfold State.updWeave; split <;> rfl
@[simp] theorem updWeave_discarded (s : State) (wv : Nat) (f : Weave → Weave) : (s.updWeave wv f).discarded = s.discarded := by unfold State.updWeave; split <;> rfl

/-! ### setRegOf -/

@[simp] theorem setRegOf_cycle (s : State) (id n : Nat) (v : Word) : (s.setRegOf id n v).cycle = s.cycle := by unfold State.setRegOf; split <;> rfl
@[simp] theorem setRegOf_cur (s : State) (id n : Nat) (v : Word) : (s.setRegOf id n v).cur = s.cur := by unfold State.setRegOf; split <;> rfl
@[simp] theorem setRegOf_turnq (s : State) (id n : Nat) (v : Word) : (s.setRegOf id n v).turnq = s.turnq := by unfold State.setRegOf; split <;> rfl
@[simp] theorem setRegOf_inputs (s : State) (id n : Nat) (v : Word) : (s.setRegOf id n v).inputs = s.inputs := by unfold State.setRegOf; split <;> rfl
@[simp] theorem setRegOf_fresh (s : State) (id n : Nat) (v : Word) : (s.setRegOf id n v).fresh = s.fresh := by unfold State.setRegOf; split <;> rfl
@[simp] theorem setRegOf_nextId (s : State) (id n : Nat) (v : Word) : (s.setRegOf id n v).nextId = s.nextId := by unfold State.setRegOf; split <;> rfl
@[simp] theorem setRegOf_mem (s : State) (id n : Nat) (v : Word) : (s.setRegOf id n v).mem = s.mem := by unfold State.setRegOf; split <;> rfl
@[simp] theorem setRegOf_tags (s : State) (id n : Nat) (v : Word) : (s.setRegOf id n v).tags = s.tags := by unfold State.setRegOf; split <;> rfl
@[simp] theorem setRegOf_empties (s : State) (id n : Nat) (v : Word) : (s.setRegOf id n v).empties = s.empties := by unfold State.setRegOf; split <;> rfl
@[simp] theorem setRegOf_soft (s : State) (id n : Nat) (v : Word) : (s.setRegOf id n v).soft = s.soft := by unfold State.setRegOf; split <;> rfl
@[simp] theorem setRegOf_bad (s : State) (id n : Nat) (v : Word) : (s.setRegOf id n v).bad = s.bad := by unfold State.setRegOf; split <;> rfl
@[simp] theorem setRegOf_slots (s : State) (id n : Nat) (v : Word) : (s.setRegOf id n v).slots = s.slots := by unfold State.setRegOf; split <;> rfl
@[simp] theorem setRegOf_running (s : State) (id n : Nat) (v : Word) : (s.setRegOf id n v).running = s.running := by unfold State.setRegOf; split <;> rfl
@[simp] theorem setRegOf_cores (s : State) (id n : Nat) (v : Word) : (s.setRegOf id n v).cores = s.cores := by unfold State.setRegOf; split <;> rfl
@[simp] theorem setRegOf_creels (s : State) (id n : Nat) (v : Word) : (s.setRegOf id n v).creels = s.creels := by unfold State.setRegOf; split <;> rfl
@[simp] theorem setRegOf_mods (s : State) (id n : Nat) (v : Word) : (s.setRegOf id n v).mods = s.mods := by unfold State.setRegOf; split <;> rfl
@[simp] theorem setRegOf_weaves (s : State) (id n : Nat) (v : Word) : (s.setRegOf id n v).weaves = s.weaves := by unfold State.setRegOf; split <;> rfl
@[simp] theorem setRegOf_accesses (s : State) (id n : Nat) (v : Word) : (s.setRegOf id n v).accesses = s.accesses := by unfold State.setRegOf; split <;> rfl
@[simp] theorem setRegOf_fills (s : State) (id n : Nat) (v : Word) : (s.setRegOf id n v).fills = s.fills := by unfold State.setRegOf; split <;> rfl
@[simp] theorem setRegOf_putxs (s : State) (id n : Nat) (v : Word) : (s.setRegOf id n v).putxs = s.putxs := by unfold State.setRegOf; split <;> rfl
@[simp] theorem setRegOf_arms (s : State) (id n : Nat) (v : Word) : (s.setRegOf id n v).arms = s.arms := by unfold State.setRegOf; split <;> rfl
@[simp] theorem setRegOf_preqs (s : State) (id n : Nat) (v : Word) : (s.setRegOf id n v).preqs = s.preqs := by unfold State.setRegOf; split <;> rfl
@[simp] theorem setRegOf_hostMem (s : State) (id n : Nat) (v : Word) : (s.setRegOf id n v).hostMem = s.hostMem := by unfold State.setRegOf; split <;> rfl
@[simp] theorem setRegOf_links (s : State) (id n : Nat) (v : Word) : (s.setRegOf id n v).links = s.links := by unfold State.setRegOf; split <;> rfl
@[simp] theorem setRegOf_discarded (s : State) (id n : Nat) (v : Word) : (s.setRegOf id n v).discarded = s.discarded := by unfold State.setRegOf; split <;> rfl

/-! ### setX -/

@[simp] theorem setX_cycle (s : State) (n : Nat) (v : Word) : (s.setX n v).cycle = s.cycle := by unfold State.setX State.setRegOf; split <;> rfl
@[simp] theorem setX_cur (s : State) (n : Nat) (v : Word) : (s.setX n v).cur = s.cur := by unfold State.setX State.setRegOf; split <;> rfl
@[simp] theorem setX_turnq (s : State) (n : Nat) (v : Word) : (s.setX n v).turnq = s.turnq := by unfold State.setX State.setRegOf; split <;> rfl
@[simp] theorem setX_inputs (s : State) (n : Nat) (v : Word) : (s.setX n v).inputs = s.inputs := by unfold State.setX State.setRegOf; split <;> rfl
@[simp] theorem setX_fresh (s : State) (n : Nat) (v : Word) : (s.setX n v).fresh = s.fresh := by unfold State.setX State.setRegOf; split <;> rfl
@[simp] theorem setX_nextId (s : State) (n : Nat) (v : Word) : (s.setX n v).nextId = s.nextId := by unfold State.setX State.setRegOf; split <;> rfl
@[simp] theorem setX_mem (s : State) (n : Nat) (v : Word) : (s.setX n v).mem = s.mem := by unfold State.setX State.setRegOf; split <;> rfl
@[simp] theorem setX_tags (s : State) (n : Nat) (v : Word) : (s.setX n v).tags = s.tags := by unfold State.setX State.setRegOf; split <;> rfl
@[simp] theorem setX_empties (s : State) (n : Nat) (v : Word) : (s.setX n v).empties = s.empties := by unfold State.setX State.setRegOf; split <;> rfl
@[simp] theorem setX_soft (s : State) (n : Nat) (v : Word) : (s.setX n v).soft = s.soft := by unfold State.setX State.setRegOf; split <;> rfl
@[simp] theorem setX_bad (s : State) (n : Nat) (v : Word) : (s.setX n v).bad = s.bad := by unfold State.setX State.setRegOf; split <;> rfl
@[simp] theorem setX_slots (s : State) (n : Nat) (v : Word) : (s.setX n v).slots = s.slots := by unfold State.setX State.setRegOf; split <;> rfl
@[simp] theorem setX_running (s : State) (n : Nat) (v : Word) : (s.setX n v).running = s.running := by unfold State.setX State.setRegOf; split <;> rfl
@[simp] theorem setX_cores (s : State) (n : Nat) (v : Word) : (s.setX n v).cores = s.cores := by unfold State.setX State.setRegOf; split <;> rfl
@[simp] theorem setX_creels (s : State) (n : Nat) (v : Word) : (s.setX n v).creels = s.creels := by unfold State.setX State.setRegOf; split <;> rfl
@[simp] theorem setX_mods (s : State) (n : Nat) (v : Word) : (s.setX n v).mods = s.mods := by unfold State.setX State.setRegOf; split <;> rfl
@[simp] theorem setX_weaves (s : State) (n : Nat) (v : Word) : (s.setX n v).weaves = s.weaves := by unfold State.setX State.setRegOf; split <;> rfl
@[simp] theorem setX_accesses (s : State) (n : Nat) (v : Word) : (s.setX n v).accesses = s.accesses := by unfold State.setX State.setRegOf; split <;> rfl
@[simp] theorem setX_fills (s : State) (n : Nat) (v : Word) : (s.setX n v).fills = s.fills := by unfold State.setX State.setRegOf; split <;> rfl
@[simp] theorem setX_putxs (s : State) (n : Nat) (v : Word) : (s.setX n v).putxs = s.putxs := by unfold State.setX State.setRegOf; split <;> rfl
@[simp] theorem setX_arms (s : State) (n : Nat) (v : Word) : (s.setX n v).arms = s.arms := by unfold State.setX State.setRegOf; split <;> rfl
@[simp] theorem setX_preqs (s : State) (n : Nat) (v : Word) : (s.setX n v).preqs = s.preqs := by unfold State.setX State.setRegOf; split <;> rfl
@[simp] theorem setX_hostMem (s : State) (n : Nat) (v : Word) : (s.setX n v).hostMem = s.hostMem := by unfold State.setX State.setRegOf; split <;> rfl
@[simp] theorem setX_links (s : State) (n : Nat) (v : Word) : (s.setX n v).links = s.links := by unfold State.setX State.setRegOf; split <;> rfl
@[simp] theorem setX_discarded (s : State) (n : Nat) (v : Word) : (s.setX n v).discarded = s.discarded := by unfold State.setX State.setRegOf; split <;> rfl

/-! ### awaitReg -/

@[simp] theorem awaitReg_cycle (s : State) (id n tok : Nat) : (s.awaitReg id n tok).cycle = s.cycle := by unfold State.awaitReg; split <;> rfl
@[simp] theorem awaitReg_cur (s : State) (id n tok : Nat) : (s.awaitReg id n tok).cur = s.cur := by unfold State.awaitReg; split <;> rfl
@[simp] theorem awaitReg_turnq (s : State) (id n tok : Nat) : (s.awaitReg id n tok).turnq = s.turnq := by unfold State.awaitReg; split <;> rfl
@[simp] theorem awaitReg_inputs (s : State) (id n tok : Nat) : (s.awaitReg id n tok).inputs = s.inputs := by unfold State.awaitReg; split <;> rfl
@[simp] theorem awaitReg_fresh (s : State) (id n tok : Nat) : (s.awaitReg id n tok).fresh = s.fresh := by unfold State.awaitReg; split <;> rfl
@[simp] theorem awaitReg_nextId (s : State) (id n tok : Nat) : (s.awaitReg id n tok).nextId = s.nextId := by unfold State.awaitReg; split <;> rfl
@[simp] theorem awaitReg_mem (s : State) (id n tok : Nat) : (s.awaitReg id n tok).mem = s.mem := by unfold State.awaitReg; split <;> rfl
@[simp] theorem awaitReg_tags (s : State) (id n tok : Nat) : (s.awaitReg id n tok).tags = s.tags := by unfold State.awaitReg; split <;> rfl
@[simp] theorem awaitReg_empties (s : State) (id n tok : Nat) : (s.awaitReg id n tok).empties = s.empties := by unfold State.awaitReg; split <;> rfl
@[simp] theorem awaitReg_soft (s : State) (id n tok : Nat) : (s.awaitReg id n tok).soft = s.soft := by unfold State.awaitReg; split <;> rfl
@[simp] theorem awaitReg_bad (s : State) (id n tok : Nat) : (s.awaitReg id n tok).bad = s.bad := by unfold State.awaitReg; split <;> rfl
@[simp] theorem awaitReg_slots (s : State) (id n tok : Nat) : (s.awaitReg id n tok).slots = s.slots := by unfold State.awaitReg; split <;> rfl
@[simp] theorem awaitReg_running (s : State) (id n tok : Nat) : (s.awaitReg id n tok).running = s.running := by unfold State.awaitReg; split <;> rfl
@[simp] theorem awaitReg_cores (s : State) (id n tok : Nat) : (s.awaitReg id n tok).cores = s.cores := by unfold State.awaitReg; split <;> rfl
@[simp] theorem awaitReg_creels (s : State) (id n tok : Nat) : (s.awaitReg id n tok).creels = s.creels := by unfold State.awaitReg; split <;> rfl
@[simp] theorem awaitReg_mods (s : State) (id n tok : Nat) : (s.awaitReg id n tok).mods = s.mods := by unfold State.awaitReg; split <;> rfl
@[simp] theorem awaitReg_weaves (s : State) (id n tok : Nat) : (s.awaitReg id n tok).weaves = s.weaves := by unfold State.awaitReg; split <;> rfl
@[simp] theorem awaitReg_accesses (s : State) (id n tok : Nat) : (s.awaitReg id n tok).accesses = s.accesses := by unfold State.awaitReg; split <;> rfl
@[simp] theorem awaitReg_fills (s : State) (id n tok : Nat) : (s.awaitReg id n tok).fills = s.fills := by unfold State.awaitReg; split <;> rfl
@[simp] theorem awaitReg_putxs (s : State) (id n tok : Nat) : (s.awaitReg id n tok).putxs = s.putxs := by unfold State.awaitReg; split <;> rfl
@[simp] theorem awaitReg_arms (s : State) (id n tok : Nat) : (s.awaitReg id n tok).arms = s.arms := by unfold State.awaitReg; split <;> rfl
@[simp] theorem awaitReg_preqs (s : State) (id n tok : Nat) : (s.awaitReg id n tok).preqs = s.preqs := by unfold State.awaitReg; split <;> rfl
@[simp] theorem awaitReg_hostMem (s : State) (id n tok : Nat) : (s.awaitReg id n tok).hostMem = s.hostMem := by unfold State.awaitReg; split <;> rfl
@[simp] theorem awaitReg_links (s : State) (id n tok : Nat) : (s.awaitReg id n tok).links = s.links := by unfold State.awaitReg; split <;> rfl
@[simp] theorem awaitReg_discarded (s : State) (id n tok : Nat) : (s.awaitReg id n tok).discarded = s.discarded := by unfold State.awaitReg; split <;> rfl

/-! ### Reading a unit after an update -/

@[simp] theorem slot_updSlot_self (s : State) (id : Nat) (f : Slot → Slot) : (s.updSlot id f).slot id = f (s.slot id) := by
  simp [State.slot, State.updSlot]

theorem slot_updSlot_ne (s : State) {id k : Nat} (f : Slot → Slot) (h : k ≠ id) : (s.updSlot id f).slot k = s.slot k := by
  simp [State.slot, State.updSlot, mapGet_mapPut_ne _ _ _ h]

@[simp] theorem core_updCore_self (s : State) (c : Nat) (f : Core → Core) : (s.updCore c f).core c = f (s.core c) := by
  simp [State.core, State.updCore]

theorem core_updCore_ne (s : State) {c k : Nat} (f : Core → Core) (h : k ≠ c) : (s.updCore c f).core k = s.core k := by
  simp [State.core, State.updCore, mapGet_mapPut_ne _ _ _ h]

@[simp] theorem creel_updCreel_self (s : State) (l : Nat) (f : Creel → Creel) : (s.updCreel l f).creel l = f (s.creel l) := by
  simp [State.creel, State.updCreel]

theorem creel_updCreel_ne (s : State) {l k : Nat} (f : Creel → Creel) (h : k ≠ l) : (s.updCreel l f).creel k = s.creel k := by
  simp [State.creel, State.updCreel, mapGet_mapPut_ne _ _ _ h]

@[simp] theorem module_updModule_self (s : State) (m : Nat) (f : Module → Module) :
    (s.updModule m f).module m = f (s.module m) := by
  simp [State.module, State.updModule]

theorem module_updModule_ne (s : State) {m k : Nat} (f : Module → Module) (h : k ≠ m) :
    (s.updModule m f).module k = s.module k := by
  simp [State.module, State.updModule, mapGet_mapPut_ne _ _ _ h]

@[simp] theorem entry_setEntry_self (s : State) (e : Nat) (r : Reg) : (s.setEntry e r).entry e = r := by
  simp [State.entry, State.setEntry]

theorem entry_setEntry_ne (s : State) {e k : Nat} (r : Reg) (h : k ≠ e) : (s.setEntry e r).entry k = s.entry k := by
  simp [State.entry, State.setEntry, mapGet_mapPut_ne _ _ _ h]

@[simp] theorem me_updMe (s : State) (f : Slot → Slot) : (s.updMe f).me = f s.me := by
  simp [State.me, State.updMe]

@[simp] theorem slot_updCore (s : State) (c : Nat) (f : Core → Core) (k : Nat) : (s.updCore c f).slot k = s.slot k := rfl
@[simp] theorem slot_updCreel (s : State) (lin : Nat) (f : Creel → Creel) (k : Nat) : (s.updCreel lin f).slot k = s.slot k := rfl
@[simp] theorem slot_updModule (s : State) (m : Nat) (f : Module → Module) (k : Nat) : (s.updModule m f).slot k = s.slot k := rfl
@[simp] theorem slot_setEntry (s : State) (e : Nat) (r : Reg) (k : Nat) : (s.setEntry e r).slot k = s.slot k := rfl

@[simp] theorem core_updSlot (s : State) (id : Nat) (f : Slot → Slot) (k : Nat) : (s.updSlot id f).core k = s.core k := rfl
@[simp] theorem core_updMe (s : State) (f : Slot → Slot) (k : Nat) : (s.updMe f).core k = s.core k := rfl
@[simp] theorem core_updCreel (s : State) (lin : Nat) (f : Creel → Creel) (k : Nat) : (s.updCreel lin f).core k = s.core k := rfl
@[simp] theorem core_updModule (s : State) (m : Nat) (f : Module → Module) (k : Nat) : (s.updModule m f).core k = s.core k := rfl
@[simp] theorem core_setEntry (s : State) (e : Nat) (r : Reg) (k : Nat) : (s.setEntry e r).core k = s.core k := rfl
@[simp] theorem core_waitOf (s : State) (id : Nat) (w : Wait) (k : Nat) : (s.waitOf id w).core k = s.core k := rfl
@[simp] theorem core_retireOf (s : State) (id n : Nat) (k : Nat) : (s.retireOf id n).core k = s.core k := rfl
@[simp] theorem core_retire (s : State) (n : Nat) (k : Nat) : (s.retire n).core k = s.core k := rfl
@[simp] theorem core_jump (s : State) (t : Nat) (k : Nat) : (s.jump t).core k = s.core k := rfl
@[simp] theorem core_park (s : State) (w : Wait) (k : Nat) : (s.park w).core k = s.core k := rfl
@[simp] theorem core_wait (s : State) (w : Wait) (k : Nat) : (s.wait w).core k = s.core k := rfl

@[simp] theorem creel_updSlot (s : State) (id : Nat) (f : Slot → Slot) (k : Nat) : (s.updSlot id f).creel k = s.creel k := rfl
@[simp] theorem creel_updMe (s : State) (f : Slot → Slot) (k : Nat) : (s.updMe f).creel k = s.creel k := rfl
@[simp] theorem creel_updCore (s : State) (c : Nat) (f : Core → Core) (k : Nat) : (s.updCore c f).creel k = s.creel k := rfl
@[simp] theorem creel_updModule (s : State) (m : Nat) (f : Module → Module) (k : Nat) : (s.updModule m f).creel k = s.creel k := rfl
@[simp] theorem creel_setEntry (s : State) (e : Nat) (r : Reg) (k : Nat) : (s.setEntry e r).creel k = s.creel k := rfl
@[simp] theorem creel_waitOf (s : State) (id : Nat) (w : Wait) (k : Nat) : (s.waitOf id w).creel k = s.creel k := rfl
@[simp] theorem creel_retireOf (s : State) (id n : Nat) (k : Nat) : (s.retireOf id n).creel k = s.creel k := rfl
@[simp] theorem creel_retire (s : State) (n : Nat) (k : Nat) : (s.retire n).creel k = s.creel k := rfl
@[simp] theorem creel_jump (s : State) (t : Nat) (k : Nat) : (s.jump t).creel k = s.creel k := rfl
@[simp] theorem creel_park (s : State) (w : Wait) (k : Nat) : (s.park w).creel k = s.creel k := rfl
@[simp] theorem creel_wait (s : State) (w : Wait) (k : Nat) : (s.wait w).creel k = s.creel k := rfl

@[simp] theorem module_updSlot (s : State) (id : Nat) (f : Slot → Slot) (k : Nat) : (s.updSlot id f).module k = s.module k := rfl
@[simp] theorem module_updMe (s : State) (f : Slot → Slot) (k : Nat) : (s.updMe f).module k = s.module k := rfl
@[simp] theorem module_updCore (s : State) (c : Nat) (f : Core → Core) (k : Nat) : (s.updCore c f).module k = s.module k := rfl
@[simp] theorem module_updCreel (s : State) (lin : Nat) (f : Creel → Creel) (k : Nat) : (s.updCreel lin f).module k = s.module k := rfl
@[simp] theorem module_setEntry (s : State) (e : Nat) (r : Reg) (k : Nat) : (s.setEntry e r).module k = s.module k := rfl
@[simp] theorem module_waitOf (s : State) (id : Nat) (w : Wait) (k : Nat) : (s.waitOf id w).module k = s.module k := rfl
@[simp] theorem module_retireOf (s : State) (id n : Nat) (k : Nat) : (s.retireOf id n).module k = s.module k := rfl
@[simp] theorem module_retire (s : State) (n : Nat) (k : Nat) : (s.retire n).module k = s.module k := rfl
@[simp] theorem module_jump (s : State) (t : Nat) (k : Nat) : (s.jump t).module k = s.module k := rfl
@[simp] theorem module_park (s : State) (w : Wait) (k : Nat) : (s.park w).module k = s.module k := rfl
@[simp] theorem module_wait (s : State) (w : Wait) (k : Nat) : (s.wait w).module k = s.module k := rfl

@[simp] theorem entry_updSlot (s : State) (id : Nat) (f : Slot → Slot) (k : Nat) : (s.updSlot id f).entry k = s.entry k := rfl
@[simp] theorem entry_updMe (s : State) (f : Slot → Slot) (k : Nat) : (s.updMe f).entry k = s.entry k := rfl
@[simp] theorem entry_updCore (s : State) (c : Nat) (f : Core → Core) (k : Nat) : (s.updCore c f).entry k = s.entry k := rfl
@[simp] theorem entry_updCreel (s : State) (lin : Nat) (f : Creel → Creel) (k : Nat) : (s.updCreel lin f).entry k = s.entry k := rfl
@[simp] theorem entry_updModule (s : State) (m : Nat) (f : Module → Module) (k : Nat) : (s.updModule m f).entry k = s.entry k := rfl
@[simp] theorem entry_waitOf (s : State) (id : Nat) (w : Wait) (k : Nat) : (s.waitOf id w).entry k = s.entry k := rfl
@[simp] theorem entry_retireOf (s : State) (id n : Nat) (k : Nat) : (s.retireOf id n).entry k = s.entry k := rfl
@[simp] theorem entry_retire (s : State) (n : Nat) (k : Nat) : (s.retire n).entry k = s.entry k := rfl
@[simp] theorem entry_jump (s : State) (t : Nat) (k : Nat) : (s.jump t).entry k = s.entry k := rfl
@[simp] theorem entry_park (s : State) (w : Wait) (k : Nat) : (s.park w).entry k = s.entry k := rfl
@[simp] theorem entry_wait (s : State) (w : Wait) (k : Nat) : (s.wait w).entry k = s.entry k := rfl

@[simp] theorem slot_setRegOf (s : State) (id n : Nat) (v : Word) (k : Nat) : (s.setRegOf id n v).slot k = s.slot k := by unfold State.setRegOf; split <;> rfl
@[simp] theorem slot_setX (s : State) (n : Nat) (v : Word) (k : Nat) : (s.setX n v).slot k = s.slot k := by unfold State.setX State.setRegOf; split <;> rfl
@[simp] theorem slot_awaitReg (s : State) (id n tok : Nat) (k : Nat) : (s.awaitReg id n tok).slot k = s.slot k := by unfold State.awaitReg; split <;> rfl
@[simp] theorem core_setRegOf (s : State) (id n : Nat) (v : Word) (k : Nat) : (s.setRegOf id n v).core k = s.core k := by unfold State.setRegOf; split <;> rfl
@[simp] theorem core_setX (s : State) (n : Nat) (v : Word) (k : Nat) : (s.setX n v).core k = s.core k := by unfold State.setX State.setRegOf; split <;> rfl
@[simp] theorem core_awaitReg (s : State) (id n tok : Nat) (k : Nat) : (s.awaitReg id n tok).core k = s.core k := by unfold State.awaitReg; split <;> rfl
@[simp] theorem creel_setRegOf (s : State) (id n : Nat) (v : Word) (k : Nat) : (s.setRegOf id n v).creel k = s.creel k := by unfold State.setRegOf; split <;> rfl
@[simp] theorem creel_setX (s : State) (n : Nat) (v : Word) (k : Nat) : (s.setX n v).creel k = s.creel k := by unfold State.setX State.setRegOf; split <;> rfl
@[simp] theorem creel_awaitReg (s : State) (id n tok : Nat) (k : Nat) : (s.awaitReg id n tok).creel k = s.creel k := by unfold State.awaitReg; split <;> rfl
@[simp] theorem module_setRegOf (s : State) (id n : Nat) (v : Word) (k : Nat) : (s.setRegOf id n v).module k = s.module k := by unfold State.setRegOf; split <;> rfl
@[simp] theorem module_setX (s : State) (n : Nat) (v : Word) (k : Nat) : (s.setX n v).module k = s.module k := by unfold State.setX State.setRegOf; split <;> rfl
@[simp] theorem module_awaitReg (s : State) (id n tok : Nat) (k : Nat) : (s.awaitReg id n tok).module k = s.module k := by unfold State.awaitReg; split <;> rfl

/-! ### Registers -/

/-- x0 reads zero (R7, R136). -/
@[simp] theorem regOf_zero (s : State) (id : Nat) : s.regOf id 0 = 0 := by simp [State.regOf]

/-- The presence bit of x0 is 1 (R136). -/
@[simp] theorem presOf_zero (s : State) (id : Nat) : s.presOf id 0 = true := by simp [State.presOf]

/-- A write to x0 is discarded (R7, R136). -/
@[simp] theorem setRegOf_zero (s : State) (id : Nat) (v : Word) : s.setRegOf id 0 v = s := by simp [State.setRegOf]

theorem setRegOf_pos (s : State) (id : Nat) {n : Nat} (v : Word) (h : n ≠ 0) :
    s.setRegOf id n v = s.setEntry (s.entryOf id n) ⟨v, true, false, 0⟩ := by simp [State.setRegOf, h]

@[simp] theorem entryOf_setRegOf (s : State) (id n k m : Nat) (v : Word) : (s.setRegOf id n v).entryOf k m = s.entryOf k m := by
  simp [State.entryOf]

/-- A register reads what was written to it last. -/
theorem regOf_setRegOf_self (s : State) (id n : Nat) (v : Word) : (s.setRegOf id n v).regOf id n = if n = 0 then 0 else v := by
  by_cases h : n = 0
  · simp [h]
  · rw [State.regOf, entryOf_setRegOf, setRegOf_pos s id v h]
    simp [h]

theorem presOf_setRegOf_self (s : State) (id n : Nat) (v : Word) : (s.setRegOf id n v).presOf id n = true := by
  by_cases h : n = 0
  · simp [h]
  · rw [State.presOf, entryOf_setRegOf, setRegOf_pos s id v h]
    simp

/-- A write to a register leaves every other entry of the register file alone. -/
theorem entry_setRegOf_ne (s : State) (id n : Nat) (v : Word) {e : Nat} (h : n = 0 ∨ e ≠ s.entryOf id n) :
    (s.setRegOf id n v).entry e = s.entry e := by
  by_cases h0 : n = 0
  · simp [h0]
  · rw [setRegOf_pos s id v h0]
    exact entry_setEntry_ne _ _ (h.resolve_left h0)

/-! ### The place in the program -/

/-- What completing an instruction changes in a slot. -/
theorem advance_frame (sl : Slot) (n : Nat) :
    sl.advance n = { sl with
      pc := (sl.advance n).pc, queue := (sl.advance n).queue, wait := (sl.advance n).wait, xfer := (sl.advance n).xfer
      coil := (sl.advance n).coil } := by
  have hp : sl.popQueue = { sl with queue := sl.popQueue.queue } := by
    unfold Slot.popQueue
    split <;> rfl
  have hc : ∀ c, sl.coilNext c = { sl with
      pc := (sl.coilNext c).pc, queue := (sl.coilNext c).queue, wait := (sl.coilNext c).wait, xfer := (sl.coilNext c).xfer
      coil := (sl.coilNext c).coil } := by
    intro c
    unfold Slot.coilNext
    by_cases h0 : c.k = 0
    · rw [if_pos h0, hp]
      dsimp only
      by_cases h1 : c.i + 1 < c.words.length
      · simp only [h1, if_true]
      · by_cases h2 : c.k + 1 < c.reps
        · simp only [h1, h2, if_true, if_false]
        · simp only [h1, h2, if_false]
    · rw [if_neg h0]
      dsimp only
      by_cases h1 : c.i + 1 < c.words.length
      · simp only [h1, if_true]
      · by_cases h2 : c.k + 1 < c.reps
        · simp only [h1, h2, if_true, if_false]
        · simp only [h1, h2, if_false]
  unfold Slot.advance
  split
  · split
    · rw [hp]
    · exact hc _
  · rw [hp]

@[simp] theorem advance_base (sl : Slot) (n : Nat) : (sl.advance n).base = sl.base := by rw [advance_frame]

end Sys2Proof.Laws
end

