-- ==== Sys2Proof/Laws/Ops.lean ====
section
/-!
SUPPORT. The shared operations of instructions: the checks before an instruction's own effect, and completing with a result.
-/

namespace Sys2Proof.Laws

open Sys2Proof.Machine Sys2Proof.Safety

/-- An instruction that passes stages 4 to 6 has its own effect. -/
theorem issue_of_Issues {s : State} {fields srcs : List (BitVec 7)} (h : Issues s fields srcs) (body : State → State) :
    issue fields srcs body s = body s := by
  obtain ⟨h1, h2, h3⟩ := h
  have e1 : s.me.outside fields = none := by
    unfold Slot.outside
    rw [List.find?_eq_none]
    intro n hn
    simp [Nat.not_le.mpr (h1 n hn)]
  have e2 : s.me.rfault srcs = none := by
    unfold Slot.rfault
    rw [List.find?_eq_none]
    intro f hf
    simp only [List.any_eq_true, beq_iff_eq, not_exists, not_and]
    exact fun n hn => h2 f hf n hn
  have e3 : (srcs.all fun n => s.presOf s.cur n.toNat) = true := List.all_eq_true.mpr h3
  unfold issue
  rw [e1]
  dsimp only
  rw [e2]
  dsimp only
  rw [if_pos e3]

theorem issueFence_of_NoFault {s : State} (h : NoFault s) (body : State → State) : issueFence body s = body s := by
  unfold issueFence
  rw [h]

theorem outstanding_nil {s : State} (h : Quiet s) : s.outstanding s.cur = [] := by
  unfold State.outstanding
  rw [List.filter_eq_nil_iff]
  intro a ha
  simp [h a ha]

/-- An instruction outside the window takes cause 0x03 with the field number as STVAL (R30, R331). -/
theorem issue_outside {s : State} {fields : List (BitVec 7)} (srcs : List (BitVec 7)) {n : BitVec 7} (h : s.me.outside fields = some n)
    (body : State → State) : issue fields srcs body s = s.trapWith 0x03 (n.setWidth 64) := by
  simp [issue, h]

/-- Bytes read as before when memory, keys and nothing else decide. -/
theorem sameMemory_of_eq {s t : State} (hm : t.mem = s.mem) (ht : t.tags = s.tags) : SameMemory s t := by
  intro key loc
  simp only [State.byteAs, State.blockAs, hm, ht]

theorem slot_retire_self (s : State) (n : Nat) : (s.retire n).slot s.cur = s.me.advance n := by
  simp [State.retire, State.retireOf, State.me]

theorem slot_retire_ne (s : State) (n : Nat) {k : Nat} (h : k ≠ s.cur) : (s.retire n).slot k = s.slot k := by
  simp [State.retire, State.retireOf, slot_updSlot_ne _ _ h]

theorem bv7_toNat_ne {d : BitVec 7} (h : d ≠ 0) : d.toNat ≠ 0 := fun e => h (BitVec.eq_of_toNat_eq (by simpa using e))

theorem slot_updMe_self (s : State) (f : Slot → Slot) : (s.updMe f).slot s.cur = f s.me := by simp [State.updMe, State.me]

theorem slot_updMe_ne (s : State) (f : Slot → Slot) {k : Nat} (h : k ≠ s.cur) : (s.updMe f).slot k = s.slot k := by
  simp [State.updMe, slot_updSlot_ne _ _ h]

/-- x(d) written and the slot updated without its window: what both leave, and all else as before. -/
theorem setX_updMe_spec (s : State) (d : BitVec 7) (v : Word) (f : Slot → Slot) (hb : (f s.me).base = s.me.base) :
    let t := (s.setX d.toNat v).updMe f
    t.x d.toNat = (if d = 0 then 0 else v) ∧ t.presOf s.cur d.toNat = true ∧
      OtherEntries s t (fun e => d ≠ 0 ∧ e = s.entryOf s.cur d.toNat) ∧
      t.slot s.cur = f s.me ∧ OtherSlots s t s.cur ∧ SameMemory s t ∧ OnlySlots s t := by
  have hs : ((s.setX d.toNat v).updMe f).slot s.cur = f s.me := by
    have := slot_updMe_self (s.setX d.toNat v) f
    simpa [State.me] using this
  have ho : ∀ k, k ≠ s.cur → ((s.setX d.toNat v).updMe f).slot k = s.slot k := by
    intro k hk
    rw [slot_updMe_ne _ _ (by simpa using hk)]
    simp
  have he : ∀ k m, ((s.setX d.toNat v).updMe f).entryOf k m = s.entryOf k m := by
    intro k m
    unfold State.entryOf
    by_cases hk : k = s.cur
    · subst hk
      rw [hs, hb, State.me]
    · rw [ho k hk]
  have hr : ∀ e, ((s.setX d.toNat v).updMe f).entry e = (s.setRegOf s.cur d.toNat v).entry e := fun e => by
    simp [State.setX, State.entry]
  have hd : d.toNat = 0 ↔ d = 0 := ⟨fun e => BitVec.eq_of_toNat_eq (by simpa using e), fun e => by simp [e]⟩
  refine ⟨?_, ?_, ?_, hs, ho, sameMemory_of_eq (by simp) (by simp), ?_⟩
  · have := regOf_setRegOf_self s s.cur d.toNat v
    simp only [State.regOf, entryOf_setRegOf] at this
    simp only [hd] at this
    simp only [State.x, State.regOf, he, hr, updMe_cur, setX_cur, hd, this]
  · have := presOf_setRegOf_self s s.cur d.toNat v
    simp only [State.presOf, entryOf_setRegOf] at this
    simp only [State.presOf, he, hr, this]
  · intro e hne
    rw [hr, entry_setRegOf_ne]
    by_cases h0 : d = 0
    · exact .inl (hd.mpr h0)
    · exact .inr fun h => hne ⟨h0, h⟩
  · unfold OnlySlots State.setX State.setRegOf
    split <;> rfl

/-- How an instruction with a result completes: x(d) written, the slot advanced, all else as before. -/
theorem finish_spec (s : State) (d : BitVec 7) (v : Word) (n : Nat) :
    let t := (s.setX d.toNat v).retire n
    t.x d.toNat = (if d = 0 then 0 else v) ∧ t.presOf s.cur d.toNat = true ∧
      OtherEntries s t (fun e => d ≠ 0 ∧ e = s.entryOf s.cur d.toNat) ∧
      t.slot s.cur = s.me.advance n ∧ OtherSlots s t s.cur ∧ SameMemory s t ∧ OnlySlots s t := by
  have := setX_updMe_spec s d v (·.advance n) (by simp)
  simpa [State.updMe, State.retire, State.retireOf] using this

/-- An instruction whose outcome is x(d) written and the slot advanced answers `Writes`. -/
theorem writes_of {s : State} {i : Instr} {d : BitVec 7} {v : Word} {n : Nat}
    (h : exec i s = .next ((s.setX d.toNat v).retire n)) : Writes s i d v n :=
  ⟨_, h, finish_spec s d v n⟩

/-- A control transfer to `n` that also links into x(d). -/
theorem links_of {s : State} {i : Instr} {d : BitVec 7} {v : Word} {n : Nat}
    (h : exec i s = .next ((s.setX d.toNat v).jump n)) : Links s i d v n := by
  refine ⟨_, h, ?_⟩
  have hb : (s.me.jump n).base = s.me.base := by
    simp only [Slot.jump, Slot.popQueue]
    split <;> rfl
  exact setX_updMe_spec s d v (·.jump n) hb

theorem goesTo_of {s : State} {i : Instr} {n : Nat} (h : exec i s = .next (s.jump n)) : GoesTo s i n :=
  ⟨_, h, slot_updMe_self s _, fun _ hk => slot_updMe_ne s _ hk, rfl⟩

theorem issues_nil (s : State) : Issues s [] [] := ⟨by simp, by simp, by simp⟩

theorem passes_of {s : State} {i : Instr} (h : exec i s = .next (s.retire 4)) : Passes s i :=
  ⟨_, h, slot_retire_self s 4, fun _ hk => slot_retire_ne s 4 hk, rfl⟩

/-- The register shapes of the arithmetic groups. -/
theorem opRRR_of_Issues {s : State} {d a b : BitVec 7} (f : Word → Word → Word) (h : Issues s [d, a, b] [a, b]) :
    opRRR d a b f s = .next ((s.setX d.toNat (f (s.x a.toNat) (s.x b.toNat))).retire 4) := by
  simp [opRRR, done, issue_of_Issues h, State.finish]

theorem opRRRd_of_Issues {s : State} {d a b : BitVec 7} (f : Word → Word → Word → Word) (h : Issues s [d, a, b] [d, a, b]) :
    opRRRd d a b f s = .next ((s.setX d.toNat (f (s.x d.toNat) (s.x a.toNat) (s.x b.toNat))).retire 4) := by
  simp [opRRRd, done, issue_of_Issues h, State.finish]

theorem opRR_of_Issues {s : State} {d a : BitVec 7} (f : Word → Word) (h : Issues s [d, a] [a]) :
    opRR d a f s = .next ((s.setX d.toNat (f (s.x a.toNat))).retire 4) := by
  simp [opRR, done, issue_of_Issues h, State.finish]

theorem opLong_of_Issues {s : State} {d : BitVec 7} (reads : Bool) (f : Word → Word) (h : Issues s [d] (if reads then [d] else [])) :
    opLong d reads f s = .next ((s.setX d.toNat (f (s.x d.toNat))).retire 8) := by
  simp [opLong, done, issue_of_Issues h]

end Sys2Proof.Laws
end

