-- ==== Sys2Proof/Laws/PerInstr.lean ====
section
/-!
SUPPORT. A statement about every instruction as syntax: how many words it has, and what the first says about it (R130, R341).
-/

namespace Sys2Proof.Laws.Width

open Sys2Proof

/-- The first word of an instruction with an encoding says whether an extension word follows it: one does behind major 0x0D, and none
behind any other (R130, R341). A word that is no instruction stands alone. -/
def Statement (i : Instr) : Prop :=
  ∀ w ws, encode i = w :: ws → (∀ v, i ≠ .illegalInstruction v) → ws.length = if isLongMajor w then 1 else 0

theorem of_none {i : Instr} (h : encode i = []) : Statement i := by
  intro w ws e
  rw [h] at e
  cases e

theorem of_one {i : Instr} {v : BitVec 32} (h : encode i = [v]) (hm : code v 26 6 ≠ 13) : Statement i := by
  intro w ws e _
  rw [h] at e
  cases e
  simp [isLongMajor, hm]

theorem major_fmtRRR (op : Nat) (d : BitVec 7) (a : BitVec 7) (b : BitVec 7) (fn : Nat) (hop : op < 64) (hs : fn < 32) :
    code (fmtRRR op d a b fn) 26 6 = op := by
  have h0 := d.isLt
  have h1 := a.isLt
  have h2 := b.isLt
  simp only [code, fmtRRR, BitVec.toNat_ofNat]
  omega

theorem major_fmtRI (op : Nat) (d : BitVec 7) (a : BitVec 7) (imm : BitVec 12) (hop : op < 64) :
    code (fmtRI op d a imm) 26 6 = op := by
  have h0 := d.isLt
  have h1 := a.isLt
  have h2 := imm.isLt
  simp only [code, fmtRI, BitVec.toNat_ofNat]
  omega

theorem major_fmtM (op : Nat) (t : BitVec 7) (base : BitVec 7) (sz : BitVec 3) (off : BitVec 7) (ord : BitVec 2) (hop : op < 64) :
    code (fmtM op t base sz off ord) 26 6 = op := by
  have h0 := t.isLt
  have h1 := base.isLt
  have h2 := sz.isLt
  have h3 := off.isLt
  have h4 := ord.isLt
  simp only [code, fmtM, BitVec.toNat_ofNat]
  omega

theorem major_fmtA (op : Nat) (d : BitVec 7) (addr : BitVec 7) (val : BitVec 7) (aop : Nat) (c : BitVec 1) (hop : op < 64) (hs : aop < 16) :
    code (fmtA op d addr val aop c) 26 6 = op := by
  have h0 := d.isLt
  have h1 := addr.isLt
  have h2 := val.isLt
  have h3 := c.isLt
  simp only [code, fmtA, BitVec.toNat_ofNat]
  omega

theorem major_fmtB (op : Nat) (a : BitVec 7) (b : BitVec 7) (off : BitVec 12) (hop : op < 64) :
    code (fmtB op a b off) 26 6 = op := by
  have h0 := a.isLt
  have h1 := b.isLt
  have h2 := off.isLt
  simp only [code, fmtB, BitVec.toNat_ofNat]
  omega

theorem major_fmtJ (op : Nat) (off : BitVec 26) (hop : op < 64) :
    code (fmtJ op off) 26 6 = op := by
  have h0 := off.isLt
  simp only [code, fmtJ, BitVec.toNat_ofNat]
  omega

theorem major_fmtC (op : Nat) (n : BitVec 4) (reps : BitVec 6) (sd : BitVec 5) (sa : BitVec 5) (sb : BitVec 5) (hop : op < 64) :
    code (fmtC op n reps sd sa sb) 26 6 = op := by
  have h0 := n.isLt
  have h1 := reps.isLt
  have h2 := sd.isLt
  have h3 := sa.isLt
  have h4 := sb.isLt
  simp only [code, fmtC, BitVec.toNat_ofNat]
  omega

theorem major_fmtS (op : Nat) (d : BitVec 7) (a : BitVec 7) (reg : BitVec 12) (hop : op < 64) :
    code (fmtS op d a reg) 26 6 = op := by
  have h0 := d.isLt
  have h1 := a.isLt
  have h2 := reg.isLt
  simp only [code, fmtS, BitVec.toNat_ofNat]
  omega

theorem major_fmtV (op : Nat) (vd : BitVec 3) (va : BitVec 3) (vb : BitVec 3) (vc : BitVec 3) (mk : BitVec 2) (ty : BitVec 4) (rm : BitVec 3) (fn : Nat) (hop : op < 64) (hs : fn < 32) :
    code (fmtV op vd va vb vc mk ty rm fn) 26 6 = op := by
  have h0 := vd.isLt
  have h1 := va.isLt
  have h2 := vb.isLt
  have h3 := vc.isLt
  have h4 := mk.isLt
  have h5 := ty.isLt
  have h6 := rm.isLt
  simp only [code, fmtV, BitVec.toNat_ofNat]
  omega

theorem major_fmtVM (op : Nat) (w : BitVec 3) (xa : BitVec 7) (xb : BitVec 7) (wi : BitVec 3) (mk : BitVec 2) (fn : Nat) (hop : op < 64) (hs : fn < 16) :
    code (fmtVM op w xa xb wi mk fn) 26 6 = op := by
  have h0 := w.isLt
  have h1 := xa.isLt
  have h2 := xb.isLt
  have h3 := wi.isLt
  have h4 := mk.isLt
  simp only [code, fmtVM, BitVec.toNat_ofNat]
  omega

theorem major_fmtVX (op : Nat) (vd : BitVec 3) (x : BitVec 7) (va : BitVec 3) (mk : BitVec 2) (ty : BitVec 3) (aux : BitVec 3) (fn : Nat) (hop : op < 64) (hs : fn < 32) :
    code (fmtVX op vd x va mk ty aux fn) 26 6 = op := by
  have h0 := vd.isLt
  have h1 := x.isLt
  have h2 := va.isLt
  have h3 := mk.isLt
  have h4 := ty.isLt
  have h5 := aux.isLt
  simp only [code, fmtVX, BitVec.toNat_ofNat]
  omega

theorem major_fmtE (op : Nat) (a : BitVec 7) (b : BitVec 7) (c : BitVec 7) (fn : Nat) (hop : op < 64) (hs : fn < 32) :
    code (fmtE op a b c fn) 26 6 = op := by
  have h0 := a.isLt
  have h1 := b.isLt
  have h2 := c.isLt
  simp only [code, fmtE, BitVec.toNat_ofNat]
  omega

theorem major_fmtL (op : Nat) (d : BitVec 7) (fn : Nat) (hop : op < 64) (hs : fn < 32) :
    code (fmtL op d fn) 26 6 = op := by
  have h0 := d.isLt
  simp only [code, fmtL, BitVec.toNat_ofNat]
  omega

theorem of_two {i : Instr} {v x : BitVec 32} (h : encode i = [v, x]) (hm : code v 26 6 = 13) : Statement i := by
  intro w ws e _
  rw [h] at e
  cases e
  simp [isLongMajor, hm]

/-! ### One lemma per constructor -/

theorem add (d : BitVec 7) (a : BitVec 7) (b : BitVec 7) : Statement (.add d a b) :=
  of_one rfl (by rw [major_fmtRRR _ _ _ _ _ (by decide) (by decide)]; decide)
theorem sub (d : BitVec 7) (a : BitVec 7) (b : BitVec 7) : Statement (.sub d a b) :=
  of_one rfl (by rw [major_fmtRRR _ _ _ _ _ (by decide) (by decide)]; decide)
theorem and (d : BitVec 7) (a : BitVec 7) (b : BitVec 7) : Statement (.and d a b) :=
  of_one rfl (by rw [major_fmtRRR _ _ _ _ _ (by decide) (by decide)]; decide)
theorem or (d : BitVec 7) (a : BitVec 7) (b : BitVec 7) : Statement (.or d a b) :=
  of_one rfl (by rw [major_fmtRRR _ _ _ _ _ (by decide) (by decide)]; decide)
theorem xor (d : BitVec 7) (a : BitVec 7) (b : BitVec 7) : Statement (.xor d a b) :=
  of_one rfl (by rw [major_fmtRRR _ _ _ _ _ (by decide) (by decide)]; decide)
theorem andn (d : BitVec 7) (a : BitVec 7) (b : BitVec 7) : Statement (.andn d a b) :=
  of_one rfl (by rw [major_fmtRRR _ _ _ _ _ (by decide) (by decide)]; decide)
theorem sll (d : BitVec 7) (a : BitVec 7) (b : BitVec 7) : Statement (.sll d a b) :=
  of_one rfl (by rw [major_fmtRRR _ _ _ _ _ (by decide) (by decide)]; decide)
theorem srl (d : BitVec 7) (a : BitVec 7) (b : BitVec 7) : Statement (.srl d a b) :=
  of_one rfl (by rw [major_fmtRRR _ _ _ _ _ (by decide) (by decide)]; decide)
theorem sra (d : BitVec 7) (a : BitVec 7) (b : BitVec 7) : Statement (.sra d a b) :=
  of_one rfl (by rw [major_fmtRRR _ _ _ _ _ (by decide) (by decide)]; decide)
theorem rotr (d : BitVec 7) (a : BitVec 7) (b : BitVec 7) : Statement (.rotr d a b) :=
  of_one rfl (by rw [major_fmtRRR _ _ _ _ _ (by decide) (by decide)]; decide)
theorem mins (d : BitVec 7) (a : BitVec 7) (b : BitVec 7) : Statement (.mins d a b) :=
  of_one rfl (by rw [major_fmtRRR _ _ _ _ _ (by decide) (by decide)]; decide)
theorem maxs (d : BitVec 7) (a : BitVec 7) (b : BitVec 7) : Statement (.maxs d a b) :=
  of_one rfl (by rw [major_fmtRRR _ _ _ _ _ (by decide) (by decide)]; decide)
theorem minu (d : BitVec 7) (a : BitVec 7) (b : BitVec 7) : Statement (.minu d a b) :=
  of_one rfl (by rw [major_fmtRRR _ _ _ _ _ (by decide) (by decide)]; decide)
theorem maxu (d : BitVec 7) (a : BitVec 7) (b : BitVec 7) : Statement (.maxu d a b) :=
  of_one rfl (by rw [major_fmtRRR _ _ _ _ _ (by decide) (by decide)]; decide)
theorem slt (d : BitVec 7) (a : BitVec 7) (b : BitVec 7) : Statement (.slt d a b) :=
  of_one rfl (by rw [major_fmtRRR _ _ _ _ _ (by decide) (by decide)]; decide)
theorem sltu (d : BitVec 7) (a : BitVec 7) (b : BitVec 7) : Statement (.sltu d a b) :=
  of_one rfl (by rw [major_fmtRRR _ _ _ _ _ (by decide) (by decide)]; decide)
theorem seq (d : BitVec 7) (a : BitVec 7) (b : BitVec 7) : Statement (.seq d a b) :=
  of_one rfl (by rw [major_fmtRRR _ _ _ _ _ (by decide) (by decide)]; decide)
theorem sne (d : BitVec 7) (a : BitVec 7) (b : BitVec 7) : Statement (.sne d a b) :=
  of_one rfl (by rw [major_fmtRRR _ _ _ _ _ (by decide) (by decide)]; decide)
theorem addw (d : BitVec 7) (a : BitVec 7) (b : BitVec 7) : Statement (.addw d a b) :=
  of_one rfl (by rw [major_fmtRRR _ _ _ _ _ (by decide) (by decide)]; decide)
theorem subw (d : BitVec 7) (a : BitVec 7) (b : BitVec 7) : Statement (.subw d a b) :=
  of_one rfl (by rw [major_fmtRRR _ _ _ _ _ (by decide) (by decide)]; decide)
theorem sllw (d : BitVec 7) (a : BitVec 7) (b : BitVec 7) : Statement (.sllw d a b) :=
  of_one rfl (by rw [major_fmtRRR _ _ _ _ _ (by decide) (by decide)]; decide)
theorem srlw (d : BitVec 7) (a : BitVec 7) (b : BitVec 7) : Statement (.srlw d a b) :=
  of_one rfl (by rw [major_fmtRRR _ _ _ _ _ (by decide) (by decide)]; decide)
theorem sraw (d : BitVec 7) (a : BitVec 7) (b : BitVec 7) : Statement (.sraw d a b) :=
  of_one rfl (by rw [major_fmtRRR _ _ _ _ _ (by decide) (by decide)]; decide)
theorem sel (d : BitVec 7) (a : BitVec 7) (b : BitVec 7) : Statement (.sel d a b) :=
  of_one rfl (by rw [major_fmtRRR _ _ _ _ _ (by decide) (by decide)]; decide)
theorem mul (d : BitVec 7) (a : BitVec 7) (b : BitVec 7) : Statement (.mul d a b) :=
  of_one rfl (by rw [major_fmtRRR _ _ _ _ _ (by decide) (by decide)]; decide)
theorem mulh (d : BitVec 7) (a : BitVec 7) (b : BitVec 7) : Statement (.mulh d a b) :=
  of_one rfl (by rw [major_fmtRRR _ _ _ _ _ (by decide) (by decide)]; decide)
theorem mulhu (d : BitVec 7) (a : BitVec 7) (b : BitVec 7) : Statement (.mulhu d a b) :=
  of_one rfl (by rw [major_fmtRRR _ _ _ _ _ (by decide) (by decide)]; decide)
theorem mulw (d : BitVec 7) (a : BitVec 7) (b : BitVec 7) : Statement (.mulw d a b) :=
  of_one rfl (by rw [major_fmtRRR _ _ _ _ _ (by decide) (by decide)]; decide)
theorem mad (d : BitVec 7) (a : BitVec 7) (b : BitVec 7) : Statement (.mad d a b) :=
  of_one rfl (by rw [major_fmtRRR _ _ _ _ _ (by decide) (by decide)]; decide)
theorem div (d : BitVec 7) (a : BitVec 7) (b : BitVec 7) : Statement (.div d a b) :=
  of_one rfl (by rw [major_fmtRRR _ _ _ _ _ (by decide) (by decide)]; decide)
theorem divu (d : BitVec 7) (a : BitVec 7) (b : BitVec 7) : Statement (.divu d a b) :=
  of_one rfl (by rw [major_fmtRRR _ _ _ _ _ (by decide) (by decide)]; decide)
theorem rem (d : BitVec 7) (a : BitVec 7) (b : BitVec 7) : Statement (.rem d a b) :=
  of_one rfl (by rw [major_fmtRRR _ _ _ _ _ (by decide) (by decide)]; decide)
theorem remu (d : BitVec 7) (a : BitVec 7) (b : BitVec 7) : Statement (.remu d a b) :=
  of_one rfl (by rw [major_fmtRRR _ _ _ _ _ (by decide) (by decide)]; decide)
theorem divw (d : BitVec 7) (a : BitVec 7) (b : BitVec 7) : Statement (.divw d a b) :=
  of_one rfl (by rw [major_fmtRRR _ _ _ _ _ (by decide) (by decide)]; decide)
theorem remw (d : BitVec 7) (a : BitVec 7) (b : BitVec 7) : Statement (.remw d a b) :=
  of_one rfl (by rw [major_fmtRRR _ _ _ _ _ (by decide) (by decide)]; decide)
theorem clz (d : BitVec 7) (a : BitVec 7) : Statement (.clz d a) := of_one rfl (by rw [major_fmtRRR _ _ _ _ _ (by decide) (by decide)]; decide)
theorem ctz (d : BitVec 7) (a : BitVec 7) : Statement (.ctz d a) := of_one rfl (by rw [major_fmtRRR _ _ _ _ _ (by decide) (by decide)]; decide)
theorem popc (d : BitVec 7) (a : BitVec 7) : Statement (.popc d a) := of_one rfl (by rw [major_fmtRRR _ _ _ _ _ (by decide) (by decide)]; decide)
theorem brev (d : BitVec 7) (a : BitVec 7) : Statement (.brev d a) := of_one rfl (by rw [major_fmtRRR _ _ _ _ _ (by decide) (by decide)]; decide)
theorem bswap (d : BitVec 7) (a : BitVec 7) : Statement (.bswap d a) := of_one rfl (by rw [major_fmtRRR _ _ _ _ _ (by decide) (by decide)]; decide)
theorem bfx (d : BitVec 7) (a : BitVec 7) (b : BitVec 7) : Statement (.bfx d a b) :=
  of_one rfl (by rw [major_fmtRRR _ _ _ _ _ (by decide) (by decide)]; decide)
theorem bfxu (d : BitVec 7) (a : BitVec 7) (b : BitVec 7) : Statement (.bfxu d a b) :=
  of_one rfl (by rw [major_fmtRRR _ _ _ _ _ (by decide) (by decide)]; decide)
theorem bfi (d : BitVec 7) (a : BitVec 7) (b : BitVec 7) : Statement (.bfi d a b) :=
  of_one rfl (by rw [major_fmtRRR _ _ _ _ _ (by decide) (by decide)]; decide)
theorem sext (d : BitVec 7) (a : BitVec 7) (b : BitVec 7) : Statement (.sext d a b) :=
  of_one rfl (by rw [major_fmtRRR _ _ _ _ _ (by decide) (by decide)]; decide)
theorem addi (d : BitVec 7) (a : BitVec 7) (i : BitVec 12) : Statement (.addi d a i) := of_one rfl (by rw [major_fmtRI _ _ _ _ (by decide)]; decide)
theorem andi (d : BitVec 7) (a : BitVec 7) (i : BitVec 12) : Statement (.andi d a i) := of_one rfl (by rw [major_fmtRI _ _ _ _ (by decide)]; decide)
theorem ori (d : BitVec 7) (a : BitVec 7) (i : BitVec 12) : Statement (.ori d a i) := of_one rfl (by rw [major_fmtRI _ _ _ _ (by decide)]; decide)
theorem xori (d : BitVec 7) (a : BitVec 7) (i : BitVec 12) : Statement (.xori d a i) := of_one rfl (by rw [major_fmtRI _ _ _ _ (by decide)]; decide)
theorem slti (d : BitVec 7) (a : BitVec 7) (i : BitVec 12) : Statement (.slti d a i) := of_one rfl (by rw [major_fmtRI _ _ _ _ (by decide)]; decide)
theorem sltiu (d : BitVec 7) (a : BitVec 7) (i : BitVec 12) : Statement (.sltiu d a i) := of_one rfl (by rw [major_fmtRI _ _ _ _ (by decide)]; decide)
theorem slli (d : BitVec 7) (a : BitVec 7) (s : BitVec 6) : Statement (.slli d a s) := of_one rfl (by rw [major_fmtRI _ _ _ _ (by decide)]; decide)
theorem srli (d : BitVec 7) (a : BitVec 7) (s : BitVec 6) : Statement (.srli d a s) := of_one rfl (by rw [major_fmtRI _ _ _ _ (by decide)]; decide)
theorem srai (d : BitVec 7) (a : BitVec 7) (s : BitVec 6) : Statement (.srai d a s) := of_one rfl (by rw [major_fmtRI _ _ _ _ (by decide)]; decide)
theorem rotri (d : BitVec 7) (a : BitVec 7) (s : BitVec 6) : Statement (.rotri d a s) := of_one rfl (by rw [major_fmtRI _ _ _ _ (by decide)]; decide)
theorem lea (d : BitVec 7) (a : BitVec 7) (b : BitVec 7) (s : BitVec 3) : Statement (.lea d a b s) :=
  of_one rfl (by rw [major_fmtRRR _ _ _ _ _ (by decide) (by have := s.isLt; omega)]; decide)
theorem mkg (d : BitVec 7) (a : BitVec 7) : Statement (.mkg d a) := of_one rfl (by rw [major_fmtRRR _ _ _ _ _ (by decide) (by decide)]; decide)
theorem li (d : BitVec 7) (imm : BitVec 32) : Statement (.li d imm) := of_two rfl (major_fmtL _ _ _ (by decide) (by decide))
theorem liu (d : BitVec 7) (imm : BitVec 32) : Statement (.liu d imm) := of_two rfl (major_fmtL _ _ _ (by decide) (by decide))
theorem lihi (d : BitVec 7) (imm : BitVec 32) : Statement (.lihi d imm) := of_two rfl (major_fmtL _ _ _ (by decide) (by decide))
theorem addl (d : BitVec 7) (imm : BitVec 32) : Statement (.addl d imm) := of_two rfl (major_fmtL _ _ _ (by decide) (by decide))
theorem andl (d : BitVec 7) (imm : BitVec 32) : Statement (.andl d imm) := of_two rfl (major_fmtL _ _ _ (by decide) (by decide))
theorem orl (d : BitVec 7) (imm : BitVec 32) : Statement (.orl d imm) := of_two rfl (major_fmtL _ _ _ (by decide) (by decide))
theorem xorl (d : BitVec 7) (imm : BitVec 32) : Statement (.xorl d imm) := of_two rfl (major_fmtL _ _ _ (by decide) (by decide))
theorem beq (a : BitVec 7) (b : BitVec 7) (o : BitVec 12) : Statement (.beq a b o) := of_one rfl (by rw [major_fmtB _ _ _ _ (by decide)]; decide)
theorem bne (a : BitVec 7) (b : BitVec 7) (o : BitVec 12) : Statement (.bne a b o) := of_one rfl (by rw [major_fmtB _ _ _ _ (by decide)]; decide)
theorem blt (a : BitVec 7) (b : BitVec 7) (o : BitVec 12) : Statement (.blt a b o) := of_one rfl (by rw [major_fmtB _ _ _ _ (by decide)]; decide)
theorem bge (a : BitVec 7) (b : BitVec 7) (o : BitVec 12) : Statement (.bge a b o) := of_one rfl (by rw [major_fmtB _ _ _ _ (by decide)]; decide)
theorem bltu (a : BitVec 7) (b : BitVec 7) (o : BitVec 12) : Statement (.bltu a b o) := of_one rfl (by rw [major_fmtB _ _ _ _ (by decide)]; decide)
theorem bgeu (a : BitVec 7) (b : BitVec 7) (o : BitVec 12) : Statement (.bgeu a b o) := of_one rfl (by rw [major_fmtB _ _ _ _ (by decide)]; decide)
theorem j (o : BitVec 26) : Statement (.j o) := of_one rfl (by rw [major_fmtJ _ _ (by decide)]; decide)
theorem jal (o : BitVec 26) : Statement (.jal o) := of_one rfl (by rw [major_fmtJ _ _ (by decide)]; decide)
theorem jalr (d : BitVec 7) (a : BitVec 7) (i : BitVec 12) : Statement (.jalr d a i) := of_one rfl (by rw [major_fmtRI _ _ _ _ (by decide)]; decide)
theorem coil (n : BitVec 4) (r : BitVec 6) (s : BitVec 5) (t : BitVec 5) (u : BitVec 5) : Statement (.coil n r s t u) :=
  of_one rfl (by rw [major_fmtC _ _ _ _ _ _ (by decide)]; decide)
theorem join : Statement .join := of_one rfl (by rw [major_fmtRRR _ _ _ _ _ (by decide) (by decide)]; decide)
theorem leave : Statement .leave := of_one rfl (by rw [major_fmtRRR _ _ _ _ _ (by decide) (by decide)]; decide)
theorem detach : Statement .detach := of_one rfl (by rw [major_fmtRRR _ _ _ _ _ (by decide) (by decide)]; decide)
theorem lag (d : BitVec 7) : Statement (.lag d) := of_one rfl (by rw [major_fmtRRR _ _ _ _ _ (by decide) (by decide)]; decide)
theorem voteany (d : BitVec 7) (a : BitVec 7) : Statement (.voteany d a) :=
  of_one rfl (by rw [major_fmtRRR _ _ _ _ _ (by decide) (by decide)]; decide)
theorem voteall (d : BitVec 7) (a : BitVec 7) : Statement (.voteall d a) :=
  of_one rfl (by rw [major_fmtRRR _ _ _ _ _ (by decide) (by decide)]; decide)
theorem votecnt (d : BitVec 7) (a : BitVec 7) : Statement (.votecnt d a) :=
  of_one rfl (by rw [major_fmtRRR _ _ _ _ _ (by decide) (by decide)]; decide)
theorem votemax (d : BitVec 7) (a : BitVec 7) : Statement (.votemax d a) :=
  of_one rfl (by rw [major_fmtRRR _ _ _ _ _ (by decide) (by decide)]; decide)
theorem ld (t : BitVec 7) (b : BitVec 7) (z : BitVec 3) (o : BitVec 7) (r : BitVec 2) : Statement (.ld t b z o r) :=
  of_one rfl (by rw [major_fmtM _ _ _ _ _ _ (by decide)]; decide)
theorem st (t : BitVec 7) (b : BitVec 7) (z : BitVec 3) (o : BitVec 7) (r : BitVec 2) : Statement (.st t b z o r) :=
  of_one rfl (by rw [major_fmtM _ _ _ _ _ _ (by decide)]; decide)
theorem ldf (t : BitVec 7) (b : BitVec 7) (o : BitVec 7) (r : BitVec 2) : Statement (.ldf t b o r) :=
  of_one rfl (by rw [major_fmtM _ _ _ _ _ _ (by decide)]; decide)
theorem ldfe (t : BitVec 7) (b : BitVec 7) (o : BitVec 7) (r : BitVec 2) : Statement (.ldfe t b o r) :=
  of_one rfl (by rw [major_fmtM _ _ _ _ _ _ (by decide)]; decide)
theorem stfe (t : BitVec 7) (b : BitVec 7) (o : BitVec 7) (r : BitVec 2) : Statement (.stfe t b o r) :=
  of_one rfl (by rw [major_fmtM _ _ _ _ _ _ (by decide)]; decide)
theorem stf (t : BitVec 7) (b : BitVec 7) (o : BitVec 7) (r : BitVec 2) : Statement (.stf t b o r) :=
  of_one rfl (by rw [major_fmtM _ _ _ _ _ _ (by decide)]; decide)
theorem sete (b : BitVec 7) (o : BitVec 7) (r : BitVec 2) : Statement (.sete b o r) := of_one rfl (by rw [major_fmtM _ _ _ _ _ _ (by decide)]; decide)
theorem gld (t : BitVec 7) (b : BitVec 7) (z : BitVec 3) (o : BitVec 7) (r : BitVec 2) : Statement (.gld t b z o r) :=
  of_one rfl (by rw [major_fmtM _ _ _ _ _ _ (by decide)]; decide)
theorem aaddD (d : BitVec 7) (a : BitVec 7) (v : BitVec 7) (c : BitVec 1) : Statement (.aaddD d a v c) :=
  of_one rfl (by rw [major_fmtA _ _ _ _ _ _ (by decide) (by decide)]; decide)
theorem aandD (d : BitVec 7) (a : BitVec 7) (v : BitVec 7) (c : BitVec 1) : Statement (.aandD d a v c) :=
  of_one rfl (by rw [major_fmtA _ _ _ _ _ _ (by decide) (by decide)]; decide)
theorem aorD (d : BitVec 7) (a : BitVec 7) (v : BitVec 7) (c : BitVec 1) : Statement (.aorD d a v c) :=
  of_one rfl (by rw [major_fmtA _ _ _ _ _ _ (by decide) (by decide)]; decide)
theorem axorD (d : BitVec 7) (a : BitVec 7) (v : BitVec 7) (c : BitVec 1) : Statement (.axorD d a v c) :=
  of_one rfl (by rw [major_fmtA _ _ _ _ _ _ (by decide) (by decide)]; decide)
theorem aminD (d : BitVec 7) (a : BitVec 7) (v : BitVec 7) (c : BitVec 1) : Statement (.aminD d a v c) :=
  of_one rfl (by rw [major_fmtA _ _ _ _ _ _ (by decide) (by decide)]; decide)
theorem amaxD (d : BitVec 7) (a : BitVec 7) (v : BitVec 7) (c : BitVec 1) : Statement (.amaxD d a v c) :=
  of_one rfl (by rw [major_fmtA _ _ _ _ _ _ (by decide) (by decide)]; decide)
theorem aminuD (d : BitVec 7) (a : BitVec 7) (v : BitVec 7) (c : BitVec 1) : Statement (.aminuD d a v c) :=
  of_one rfl (by rw [major_fmtA _ _ _ _ _ _ (by decide) (by decide)]; decide)
theorem amaxuD (d : BitVec 7) (a : BitVec 7) (v : BitVec 7) (c : BitVec 1) : Statement (.amaxuD d a v c) :=
  of_one rfl (by rw [major_fmtA _ _ _ _ _ _ (by decide) (by decide)]; decide)
theorem aswapD (d : BitVec 7) (a : BitVec 7) (v : BitVec 7) : Statement (.aswapD d a v) :=
  of_one rfl (by rw [major_fmtA _ _ _ _ _ _ (by decide) (by decide)]; decide)
theorem acasD (d : BitVec 7) (a : BitVec 7) (v : BitVec 7) : Statement (.acasD d a v) :=
  of_one rfl (by rw [major_fmtA _ _ _ _ _ _ (by decide) (by decide)]; decide)
theorem aaddW (d : BitVec 7) (a : BitVec 7) (v : BitVec 7) (c : BitVec 1) : Statement (.aaddW d a v c) :=
  of_one rfl (by rw [major_fmtA _ _ _ _ _ _ (by decide) (by decide)]; decide)
theorem aandW (d : BitVec 7) (a : BitVec 7) (v : BitVec 7) (c : BitVec 1) : Statement (.aandW d a v c) :=
  of_one rfl (by rw [major_fmtA _ _ _ _ _ _ (by decide) (by decide)]; decide)
theorem aorW (d : BitVec 7) (a : BitVec 7) (v : BitVec 7) (c : BitVec 1) : Statement (.aorW d a v c) :=
  of_one rfl (by rw [major_fmtA _ _ _ _ _ _ (by decide) (by decide)]; decide)
theorem axorW (d : BitVec 7) (a : BitVec 7) (v : BitVec 7) (c : BitVec 1) : Statement (.axorW d a v c) :=
  of_one rfl (by rw [major_fmtA _ _ _ _ _ _ (by decide) (by decide)]; decide)
theorem aminW (d : BitVec 7) (a : BitVec 7) (v : BitVec 7) (c : BitVec 1) : Statement (.aminW d a v c) :=
  of_one rfl (by rw [major_fmtA _ _ _ _ _ _ (by decide) (by decide)]; decide)
theorem amaxW (d : BitVec 7) (a : BitVec 7) (v : BitVec 7) (c : BitVec 1) : Statement (.amaxW d a v c) :=
  of_one rfl (by rw [major_fmtA _ _ _ _ _ _ (by decide) (by decide)]; decide)
theorem aminuW (d : BitVec 7) (a : BitVec 7) (v : BitVec 7) (c : BitVec 1) : Statement (.aminuW d a v c) :=
  of_one rfl (by rw [major_fmtA _ _ _ _ _ _ (by decide) (by decide)]; decide)
theorem amaxuW (d : BitVec 7) (a : BitVec 7) (v : BitVec 7) (c : BitVec 1) : Statement (.amaxuW d a v c) :=
  of_one rfl (by rw [major_fmtA _ _ _ _ _ _ (by decide) (by decide)]; decide)
theorem aswapW (d : BitVec 7) (a : BitVec 7) (v : BitVec 7) : Statement (.aswapW d a v) :=
  of_one rfl (by rw [major_fmtA _ _ _ _ _ _ (by decide) (by decide)]; decide)
theorem acasW (d : BitVec 7) (a : BitVec 7) (v : BitVec 7) : Statement (.acasW d a v) :=
  of_one rfl (by rw [major_fmtA _ _ _ _ _ _ (by decide) (by decide)]; decide)
theorem afadd (d : BitVec 7) (a : BitVec 7) (v : BitVec 7) (c : BitVec 1) : Statement (.afadd d a v c) :=
  of_one rfl (by rw [major_fmtA _ _ _ _ _ _ (by decide) (by decide)]; decide)
theorem afmin (d : BitVec 7) (a : BitVec 7) (v : BitVec 7) (c : BitVec 1) : Statement (.afmin d a v c) :=
  of_one rfl (by rw [major_fmtA _ _ _ _ _ _ (by decide) (by decide)]; decide)
theorem afmax (d : BitVec 7) (a : BitVec 7) (v : BitVec 7) (c : BitVec 1) : Statement (.afmax d a v c) :=
  of_one rfl (by rw [major_fmtA _ _ _ _ _ _ (by decide) (by decide)]; decide)
theorem bari (a : BitVec 7) (b : BitVec 7) : Statement (.bari a b) := of_one rfl (by rw [major_fmtRRR _ _ _ _ _ (by decide) (by decide)]; decide)
theorem bara (d : BitVec 7) (a : BitVec 7) (b : BitVec 7) : Statement (.bara d a b) :=
  of_one rfl (by rw [major_fmtRRR _ _ _ _ _ (by decide) (by decide)]; decide)
theorem barw (d : BitVec 7) (a : BitVec 7) (b : BitVec 7) : Statement (.barw d a b) :=
  of_one rfl (by rw [major_fmtRRR _ _ _ _ _ (by decide) (by decide)]; decide)
theorem bart (d : BitVec 7) (a : BitVec 7) (b : BitVec 7) : Statement (.bart d a b) :=
  of_one rfl (by rw [major_fmtRRR _ _ _ _ _ (by decide) (by decide)]; decide)
theorem putx (d : BitVec 7) (a : BitVec 7) (b : BitVec 7) : Statement (.putx d a b) :=
  of_one rfl (by rw [major_fmtRRR _ _ _ _ _ (by decide) (by decide)]; decide)
theorem emptyx (d : BitVec 7) (a : BitVec 7) : Statement (.emptyx d a) := of_one rfl (by rw [major_fmtRRR _ _ _ _ _ (by decide) (by decide)]; decide)
theorem spawn (d : BitVec 7) (a : BitVec 7) (b : BitVec 7) : Statement (.spawn d a b) :=
  of_one rfl (by rw [major_fmtRRR _ _ _ _ _ (by decide) (by decide)]; decide)
theorem fence : Statement .fence := of_one rfl (by rw [major_fmtRRR _ _ _ _ _ (by decide) (by decide)]; decide)
theorem fenceE : Statement .fenceE := of_one rfl (by rw [major_fmtRRR _ _ _ _ _ (by decide) (by decide)]; decide)
theorem fenceI : Statement .fenceI := of_one rfl (by rw [major_fmtRRR _ _ _ _ _ (by decide) (by decide)]; decide)
theorem vld (w : BitVec 3) (a : BitVec 7) (m : BitVec 2) : Statement (.vld w a m) :=
  of_one rfl (by rw [major_fmtVM _ _ _ _ _ _ _ (by decide) (by decide)]; decide)
theorem vst (w : BitVec 3) (a : BitVec 7) (m : BitVec 2) : Statement (.vst w a m) :=
  of_one rfl (by rw [major_fmtVM _ _ _ _ _ _ _ (by decide) (by decide)]; decide)
theorem vlds (w : BitVec 3) (a : BitVec 7) (b : BitVec 7) (m : BitVec 2) : Statement (.vlds w a b m) :=
  of_one rfl (by rw [major_fmtVM _ _ _ _ _ _ _ (by decide) (by decide)]; decide)
theorem vsts (w : BitVec 3) (a : BitVec 7) (b : BitVec 7) (m : BitVec 2) : Statement (.vsts w a b m) :=
  of_one rfl (by rw [major_fmtVM _ _ _ _ _ _ _ (by decide) (by decide)]; decide)
theorem vldx (w : BitVec 3) (a : BitVec 7) (i : BitVec 3) (m : BitVec 2) : Statement (.vldx w a i m) :=
  of_one rfl (by rw [major_fmtVM _ _ _ _ _ _ _ (by decide) (by decide)]; decide)
theorem vstx (w : BitVec 3) (a : BitVec 7) (i : BitVec 3) (m : BitVec 2) : Statement (.vstx w a i m) :=
  of_one rfl (by rw [major_fmtVM _ _ _ _ _ _ _ (by decide) (by decide)]; decide)
theorem vadd (d : BitVec 3) (a : BitVec 3) (b : BitVec 3) (m : BitVec 2) (y : BitVec 4) (r : BitVec 3) : Statement (.vadd d a b m y r) :=
  of_one rfl (by rw [major_fmtV _ _ _ _ _ _ _ _ _ (by decide) (by decide)]; decide)
theorem vsub (d : BitVec 3) (a : BitVec 3) (b : BitVec 3) (m : BitVec 2) (y : BitVec 4) (r : BitVec 3) : Statement (.vsub d a b m y r) :=
  of_one rfl (by rw [major_fmtV _ _ _ _ _ _ _ _ _ (by decide) (by decide)]; decide)
theorem vmul (d : BitVec 3) (a : BitVec 3) (b : BitVec 3) (m : BitVec 2) (y : BitVec 4) (r : BitVec 3) : Statement (.vmul d a b m y r) :=
  of_one rfl (by rw [major_fmtV _ _ _ _ _ _ _ _ _ (by decide) (by decide)]; decide)
theorem vfma (d : BitVec 3) (a : BitVec 3) (b : BitVec 3) (c : BitVec 3) (m : BitVec 2) (y : BitVec 4) (r : BitVec 3) : Statement (.vfma d a b c m y r) :=
  of_one rfl (by rw [major_fmtV _ _ _ _ _ _ _ _ _ (by decide) (by decide)]; decide)
theorem vmin (d : BitVec 3) (a : BitVec 3) (b : BitVec 3) (m : BitVec 2) (y : BitVec 4) : Statement (.vmin d a b m y) :=
  of_one rfl (by rw [major_fmtV _ _ _ _ _ _ _ _ _ (by decide) (by decide)]; decide)
theorem vmax (d : BitVec 3) (a : BitVec 3) (b : BitVec 3) (m : BitVec 2) (y : BitVec 4) : Statement (.vmax d a b m y) :=
  of_one rfl (by rw [major_fmtV _ _ _ _ _ _ _ _ _ (by decide) (by decide)]; decide)
theorem vabs (d : BitVec 3) (a : BitVec 3) (m : BitVec 2) (y : BitVec 4) : Statement (.vabs d a m y) :=
  of_one rfl (by rw [major_fmtV _ _ _ _ _ _ _ _ _ (by decide) (by decide)]; decide)
theorem vneg (d : BitVec 3) (a : BitVec 3) (m : BitVec 2) (y : BitVec 4) : Statement (.vneg d a m y) :=
  of_one rfl (by rw [major_fmtV _ _ _ _ _ _ _ _ _ (by decide) (by decide)]; decide)
theorem vcmpeq (d : BitVec 3) (a : BitVec 3) (b : BitVec 3) (m : BitVec 2) (y : BitVec 4) : Statement (.vcmpeq d a b m y) :=
  of_one rfl (by rw [major_fmtV _ _ _ _ _ _ _ _ _ (by decide) (by decide)]; decide)
theorem vcmplt (d : BitVec 3) (a : BitVec 3) (b : BitVec 3) (m : BitVec 2) (y : BitVec 4) : Statement (.vcmplt d a b m y) :=
  of_one rfl (by rw [major_fmtV _ _ _ _ _ _ _ _ _ (by decide) (by decide)]; decide)
theorem vcmple (d : BitVec 3) (a : BitVec 3) (b : BitVec 3) (m : BitVec 2) (y : BitVec 4) : Statement (.vcmple d a b m y) :=
  of_one rfl (by rw [major_fmtV _ _ _ _ _ _ _ _ _ (by decide) (by decide)]; decide)
theorem vsel (d : BitVec 3) (a : BitVec 3) (b : BitVec 3) (c : BitVec 3) (m : BitVec 2) (y : BitVec 4) : Statement (.vsel d a b c m y) :=
  of_one rfl (by rw [major_fmtV _ _ _ _ _ _ _ _ _ (by decide) (by decide)]; decide)
theorem vdiv (d : BitVec 3) (a : BitVec 3) (b : BitVec 3) (m : BitVec 2) (y : BitVec 4) (r : BitVec 3) : Statement (.vdiv d a b m y r) :=
  of_one rfl (by rw [major_fmtV _ _ _ _ _ _ _ _ _ (by decide) (by decide)]; decide)
theorem vsqrt (d : BitVec 3) (a : BitVec 3) (m : BitVec 2) (y : BitVec 4) (r : BitVec 3) : Statement (.vsqrt d a m y r) :=
  of_one rfl (by rw [major_fmtV _ _ _ _ _ _ _ _ _ (by decide) (by decide)]; decide)
theorem vfms (d : BitVec 3) (a : BitVec 3) (b : BitVec 3) (c : BitVec 3) (m : BitVec 2) (y : BitVec 4) (r : BitVec 3) : Statement (.vfms d a b c m y r) :=
  of_one rfl (by rw [major_fmtV _ _ _ _ _ _ _ _ _ (by decide) (by decide)]; decide)
theorem viadd (d : BitVec 3) (a : BitVec 3) (b : BitVec 3) (m : BitVec 2) (y : BitVec 4) : Statement (.viadd d a b m y) :=
  of_one rfl (by rw [major_fmtV _ _ _ _ _ _ _ _ _ (by decide) (by decide)]; decide)
theorem visub (d : BitVec 3) (a : BitVec 3) (b : BitVec 3) (m : BitVec 2) (y : BitVec 4) : Statement (.visub d a b m y) :=
  of_one rfl (by rw [major_fmtV _ _ _ _ _ _ _ _ _ (by decide) (by decide)]; decide)
theorem vimul (d : BitVec 3) (a : BitVec 3) (b : BitVec 3) (m : BitVec 2) (y : BitVec 4) : Statement (.vimul d a b m y) :=
  of_one rfl (by rw [major_fmtV _ _ _ _ _ _ _ _ _ (by decide) (by decide)]; decide)
theorem vimad (d : BitVec 3) (a : BitVec 3) (b : BitVec 3) (c : BitVec 3) (m : BitVec 2) (y : BitVec 4) : Statement (.vimad d a b c m y) :=
  of_one rfl (by rw [major_fmtV _ _ _ _ _ _ _ _ _ (by decide) (by decide)]; decide)
theorem vand (d : BitVec 3) (a : BitVec 3) (b : BitVec 3) (m : BitVec 2) (y : BitVec 4) : Statement (.vand d a b m y) :=
  of_one rfl (by rw [major_fmtV _ _ _ _ _ _ _ _ _ (by decide) (by decide)]; decide)
theorem vor (d : BitVec 3) (a : BitVec 3) (b : BitVec 3) (m : BitVec 2) (y : BitVec 4) : Statement (.vor d a b m y) :=
  of_one rfl (by rw [major_fmtV _ _ _ _ _ _ _ _ _ (by decide) (by decide)]; decide)
theorem vxor (d : BitVec 3) (a : BitVec 3) (b : BitVec 3) (m : BitVec 2) (y : BitVec 4) : Statement (.vxor d a b m y) :=
  of_one rfl (by rw [major_fmtV _ _ _ _ _ _ _ _ _ (by decide) (by decide)]; decide)
theorem vshl (d : BitVec 3) (a : BitVec 3) (b : BitVec 3) (m : BitVec 2) (y : BitVec 4) : Statement (.vshl d a b m y) :=
  of_one rfl (by rw [major_fmtV _ _ _ _ _ _ _ _ _ (by decide) (by decide)]; decide)
theorem vshr (d : BitVec 3) (a : BitVec 3) (b : BitVec 3) (m : BitVec 2) (y : BitVec 4) : Statement (.vshr d a b m y) :=
  of_one rfl (by rw [major_fmtV _ _ _ _ _ _ _ _ _ (by decide) (by decide)]; decide)
theorem vsra (d : BitVec 3) (a : BitVec 3) (b : BitVec 3) (m : BitVec 2) (y : BitVec 4) : Statement (.vsra d a b m y) :=
  of_one rfl (by rw [major_fmtV _ _ _ _ _ _ _ _ _ (by decide) (by decide)]; decide)
theorem vimin (d : BitVec 3) (a : BitVec 3) (b : BitVec 3) (m : BitVec 2) (y : BitVec 4) : Statement (.vimin d a b m y) :=
  of_one rfl (by rw [major_fmtV _ _ _ _ _ _ _ _ _ (by decide) (by decide)]; decide)
theorem vimax (d : BitVec 3) (a : BitVec 3) (b : BitVec 3) (m : BitVec 2) (y : BitVec 4) : Statement (.vimax d a b m y) :=
  of_one rfl (by rw [major_fmtV _ _ _ _ _ _ _ _ _ (by decide) (by decide)]; decide)
theorem vicmpeq (d : BitVec 3) (a : BitVec 3) (b : BitVec 3) (m : BitVec 2) (y : BitVec 4) : Statement (.vicmpeq d a b m y) :=
  of_one rfl (by rw [major_fmtV _ _ _ _ _ _ _ _ _ (by decide) (by decide)]; decide)
theorem vicmplt (d : BitVec 3) (a : BitVec 3) (b : BitVec 3) (m : BitVec 2) (y : BitVec 4) : Statement (.vicmplt d a b m y) :=
  of_one rfl (by rw [major_fmtV _ _ _ _ _ _ _ _ _ (by decide) (by decide)]; decide)
theorem vidot4 (d : BitVec 3) (a : BitVec 3) (b : BitVec 3) (c : BitVec 3) (m : BitVec 2) : Statement (.vidot4 d a b c m) :=
  of_one rfl (by rw [major_fmtV _ _ _ _ _ _ _ _ _ (by decide) (by decide)]; decide)
theorem vcvt (d : BitVec 3) (a : BitVec 3) (b : BitVec 3) (c : BitVec 3) (m : BitVec 2) (y : BitVec 4) (r : BitVec 3) : Statement (.vcvt d a b c m y r) :=
  of_one rfl (by rw [major_fmtV _ _ _ _ _ _ _ _ _ (by decide) (by decide)]; decide)
theorem vdec (d : BitVec 3) (a : BitVec 3) (b : BitVec 3) (c : BitVec 3) (m : BitVec 2) : Statement (.vdec d a b c m) :=
  of_one rfl (by rw [major_fmtV _ _ _ _ _ _ _ _ _ (by decide) (by decide)]; decide)
theorem venc (d : BitVec 3) (a : BitVec 3) (b : BitVec 3) (c : BitVec 3) (m : BitVec 2) (r : BitVec 3) : Statement (.venc d a b c m r) :=
  of_one rfl (by rw [major_fmtV _ _ _ _ _ _ _ _ _ (by decide) (by decide)]; decide)
theorem vscl (d : BitVec 3) (a : BitVec 3) (b : BitVec 3) (c : BitVec 3) (m : BitVec 2) (r : BitVec 3) : Statement (.vscl d a b c m r) :=
  of_one rfl (by rw [major_fmtV _ _ _ _ _ _ _ _ _ (by decide) (by decide)]; decide)
theorem vqnt (d : BitVec 3) (a : BitVec 3) (b : BitVec 3) (c : BitVec 3) (m : BitVec 2) (y : BitVec 4) (r : BitVec 3) : Statement (.vqnt d a b c m y r) :=
  of_one rfl (by rw [major_fmtV _ _ _ _ _ _ _ _ _ (by decide) (by decide)]; decide)
theorem vsgn1 (d : BitVec 3) (a : BitVec 3) (b : BitVec 3) (c : BitVec 3) (m : BitVec 2) : Statement (.vsgn1 d a b c m) :=
  of_one rfl (by rw [major_fmtV _ _ _ _ _ _ _ _ _ (by decide) (by decide)]; decide)
theorem vdup (d : BitVec 3) (x : BitVec 7) (m : BitVec 2) (y : BitVec 3) : Statement (.vdup d x m y) :=
  of_one rfl (by rw [major_fmtVX _ _ _ _ _ _ _ _ (by decide) (by decide)]; decide)
theorem vlane (x : BitVec 7) (a : BitVec 3) (y : BitVec 3) : Statement (.vlane x a y) :=
  of_one rfl (by rw [major_fmtVX _ _ _ _ _ _ _ _ (by decide) (by decide)]; decide)
theorem vins (d : BitVec 3) (x : BitVec 7) (y : BitVec 3) : Statement (.vins d x y) :=
  of_one rfl (by rw [major_fmtVX _ _ _ _ _ _ _ _ (by decide) (by decide)]; decide)
theorem vperm (d : BitVec 3) (a : BitVec 3) (m : BitVec 2) (y : BitVec 3) : Statement (.vperm d a m y) :=
  of_one rfl (by rw [major_fmtVX _ _ _ _ _ _ _ _ (by decide) (by decide)]; decide)
theorem viota (d : BitVec 3) (x : BitVec 7) (m : BitVec 2) (y : BitVec 3) (u : BitVec 3) : Statement (.viota d x m y u) :=
  of_one rfl (by rw [major_fmtVX _ _ _ _ _ _ _ _ (by decide) (by decide)]; decide)
theorem vrsum (x : BitVec 7) (a : BitVec 3) (m : BitVec 2) (y : BitVec 3) (u : BitVec 3) : Statement (.vrsum x a m y u) :=
  of_one rfl (by rw [major_fmtVX _ _ _ _ _ _ _ _ (by decide) (by decide)]; decide)
theorem vrmax (x : BitVec 7) (a : BitVec 3) (m : BitVec 2) (y : BitVec 3) : Statement (.vrmax x a m y) :=
  of_one rfl (by rw [major_fmtVX _ _ _ _ _ _ _ _ (by decide) (by decide)]; decide)
theorem vrmin (x : BitVec 7) (a : BitVec 3) (m : BitVec 2) (y : BitVec 3) : Statement (.vrmin x a m y) :=
  of_one rfl (by rw [major_fmtVX _ _ _ _ _ _ _ _ (by decide) (by decide)]; decide)
theorem vmsk (a : BitVec 3) (m : BitVec 2) (u : BitVec 2) : Statement (.vmsk a m u) :=
  of_one rfl (by rw [major_fmtVX _ _ _ _ _ _ _ _ (by decide) (by decide)]; decide)
theorem vexp2 (d : BitVec 3) (a : BitVec 3) (m : BitVec 2) (y : BitVec 4) (r : BitVec 3) : Statement (.vexp2 d a m y r) :=
  of_one rfl (by rw [major_fmtV _ _ _ _ _ _ _ _ _ (by decide) (by decide)]; decide)
theorem vlog2 (d : BitVec 3) (a : BitVec 3) (m : BitVec 2) (y : BitVec 4) (r : BitVec 3) : Statement (.vlog2 d a m y r) :=
  of_one rfl (by rw [major_fmtV _ _ _ _ _ _ _ _ _ (by decide) (by decide)]; decide)
theorem vrcp (d : BitVec 3) (a : BitVec 3) (m : BitVec 2) (y : BitVec 4) (r : BitVec 3) : Statement (.vrcp d a m y r) :=
  of_one rfl (by rw [major_fmtV _ _ _ _ _ _ _ _ _ (by decide) (by decide)]; decide)
theorem vrsq (d : BitVec 3) (a : BitVec 3) (m : BitVec 2) (y : BitVec 4) (r : BitVec 3) : Statement (.vrsq d a m y r) :=
  of_one rfl (by rw [major_fmtV _ _ _ _ _ _ _ _ _ (by decide) (by decide)]; decide)
theorem vexp (d : BitVec 3) (a : BitVec 3) (m : BitVec 2) (y : BitVec 4) (r : BitVec 3) : Statement (.vexp d a m y r) :=
  of_one rfl (by rw [major_fmtV _ _ _ _ _ _ _ _ _ (by decide) (by decide)]; decide)
theorem vbuck (d : BitVec 3) (x : BitVec 7) (a : BitVec 3) (m : BitVec 2) : Statement (.vbuck d x a m) :=
  of_one rfl (by rw [major_fmtVX _ _ _ _ _ _ _ _ (by decide) (by decide)]; decide)
theorem vcnt (d : BitVec 3) (a : BitVec 3) (m : BitVec 2) : Statement (.vcnt d a m) :=
  of_one rfl (by rw [major_fmtVX _ _ _ _ _ _ _ _ (by decide) (by decide)]; decide)
theorem vmovmToVector (d : BitVec 3) (u : BitVec 2) : Statement (.vmovmToVector d u) :=
  of_one rfl (by rw [major_fmtVX _ _ _ _ _ _ _ _ (by decide) (by decide)]; decide)
theorem vmovmToMask (a : BitVec 3) (u : BitVec 2) : Statement (.vmovmToMask a u) :=
  of_one rfl (by rw [major_fmtVX _ _ _ _ _ _ _ _ (by decide) (by decide)]; decide)
theorem mcfg (a : BitVec 7) (b : BitVec 7) : Statement (.mcfg a b) := of_one rfl (by rw [major_fmtE _ _ _ _ _ (by decide) (by decide)]; decide)
theorem mzero (c : BitVec 7) : Statement (.mzero c) := of_one rfl (by rw [major_fmtE _ _ _ _ _ (by decide) (by decide)]; decide)
theorem mma (a : BitVec 7) (b : BitVec 7) (c : BitVec 7) : Statement (.mma a b c) :=
  of_one rfl (by rw [major_fmtE _ _ _ _ _ (by decide) (by decide)]; decide)
theorem mmas (a : BitVec 7) (b : BitVec 7) (c : BitVec 7) : Statement (.mmas a b c) :=
  of_one rfl (by rw [major_fmtE _ _ _ _ _ (by decide) (by decide)]; decide)
theorem mout (a : BitVec 7) (b : BitVec 7) (c : BitVec 7) : Statement (.mout a b c) :=
  of_one rfl (by rw [major_fmtE _ _ _ _ _ (by decide) (by decide)]; decide)
theorem min (a : BitVec 7) (b : BitVec 7) (c : BitVec 7) : Statement (.min a b c) :=
  of_one rfl (by rw [major_fmtE _ _ _ _ _ (by decide) (by decide)]; decide)
theorem msave (a : BitVec 7) (b : BitVec 7) : Statement (.msave a b) := of_one rfl (by rw [major_fmtE _ _ _ _ _ (by decide) (by decide)]; decide)
theorem mrest (a : BitVec 7) (b : BitVec 7) : Statement (.mrest a b) := of_one rfl (by rw [major_fmtE _ _ _ _ _ (by decide) (by decide)]; decide)
theorem msync : Statement .msync := of_one rfl (by rw [major_fmtE _ _ _ _ _ (by decide) (by decide)]; decide)
theorem tfpin (a : BitVec 7) (b : BitVec 7) (c : BitVec 7) : Statement (.tfpin a b c) :=
  of_one rfl (by rw [major_fmtE _ _ _ _ _ (by decide) (by decide)]; decide)
theorem tfrel (a : BitVec 7) : Statement (.tfrel a) := of_one rfl (by rw [major_fmtE _ _ _ _ _ (by decide) (by decide)]; decide)
theorem pull (a : BitVec 7) (b : BitVec 7) (c : BitVec 7) : Statement (.pull a b c) :=
  of_one rfl (by rw [major_fmtE _ _ _ _ _ (by decide) (by decide)]; decide)
theorem pullx (a : BitVec 7) (b : BitVec 7) (c : BitVec 7) : Statement (.pullx a b c) :=
  of_one rfl (by rw [major_fmtE _ _ _ _ _ (by decide) (by decide)]; decide)
theorem pullr (a : BitVec 7) (b : BitVec 7) (c : BitVec 7) : Statement (.pullr a b c) :=
  of_one rfl (by rw [major_fmtE _ _ _ _ _ (by decide) (by decide)]; decide)
theorem pullm (a : BitVec 7) (b : BitVec 7) (c : BitVec 7) : Statement (.pullm a b c) :=
  of_one rfl (by rw [major_fmtE _ _ _ _ _ (by decide) (by decide)]; decide)
theorem cpull (a : BitVec 7) (b : BitVec 7) (c : BitVec 7) : Statement (.cpull a b c) :=
  of_one rfl (by rw [major_fmtE _ _ _ _ _ (by decide) (by decide)]; decide)
theorem pub (a : BitVec 7) (b : BitVec 7) : Statement (.pub a b) := of_one rfl (by rw [major_fmtE _ _ _ _ _ (by decide) (by decide)]; decide)
theorem puba (a : BitVec 7) (b : BitVec 7) : Statement (.puba a b) := of_one rfl (by rw [major_fmtE _ _ _ _ _ (by decide) (by decide)]; decide)
theorem watch (a : BitVec 7) (b : BitVec 7) (c : BitVec 7) : Statement (.watch a b c) :=
  of_one rfl (by rw [major_fmtE _ _ _ _ _ (by decide) (by decide)]; decide)
theorem wrange (a : BitVec 7) (b : BitVec 7) (c : BitVec 7) : Statement (.wrange a b c) :=
  of_one rfl (by rw [major_fmtE _ _ _ _ _ (by decide) (by decide)]; decide)
theorem wwait (a : BitVec 7) (c : BitVec 7) : Statement (.wwait a c) := of_one rfl (by rw [major_fmtE _ _ _ _ _ (by decide) (by decide)]; decide)
theorem wcancel (c : BitVec 7) : Statement (.wcancel c) := of_one rfl (by rw [major_fmtE _ _ _ _ _ (by decide) (by decide)]; decide)
theorem psync : Statement .psync := of_one rfl (by rw [major_fmtE _ _ _ _ _ (by decide) (by decide)]; decide)
theorem gupd (a : BitVec 7) (b : BitVec 7) (c : BitVec 7) : Statement (.gupd a b c) :=
  of_one rfl (by rw [major_fmtE _ _ _ _ _ (by decide) (by decide)]; decide)
theorem gbel (a : BitVec 7) (b : BitVec 7) (c : BitVec 7) : Statement (.gbel a b c) :=
  of_one rfl (by rw [major_fmtE _ _ _ _ _ (by decide) (by decide)]; decide)
theorem gadd (a : BitVec 7) (b : BitVec 7) (c : BitVec 7) : Statement (.gadd a b c) :=
  of_one rfl (by rw [major_fmtE _ _ _ _ _ (by decide) (by decide)]; decide)
theorem gelim (a : BitVec 7) (b : BitVec 7) (c : BitVec 7) : Statement (.gelim a b c) :=
  of_one rfl (by rw [major_fmtE _ _ _ _ _ (by decide) (by decide)]; decide)
theorem gdamp (a : BitVec 7) (b : BitVec 7) (c : BitVec 7) : Statement (.gdamp a b c) :=
  of_one rfl (by rw [major_fmtE _ _ _ _ _ (by decide) (by decide)]; decide)
theorem gsolve (a : BitVec 7) (c : BitVec 7) : Statement (.gsolve a c) := of_one rfl (by rw [major_fmtE _ _ _ _ _ (by decide) (by decide)]; decide)
theorem gres (a : BitVec 7) (b : BitVec 7) (c : BitVec 7) : Statement (.gres a b c) :=
  of_one rfl (by rw [major_fmtE _ _ _ _ _ (by decide) (by decide)]; decide)
theorem gsync : Statement .gsync := of_one rfl (by rw [major_fmtE _ _ _ _ _ (by decide) (by decide)]; decide)
theorem tqput (a : BitVec 7) (b : BitVec 7) (c : BitVec 7) : Statement (.tqput a b c) :=
  of_one rfl (by rw [major_fmtE _ _ _ _ _ (by decide) (by decide)]; decide)
theorem tqget (a : BitVec 7) (b : BitVec 7) : Statement (.tqget a b) := of_one rfl (by rw [major_fmtE _ _ _ _ _ (by decide) (by decide)]; decide)
theorem exit : Statement .exit := of_one rfl (by rw [major_fmtE _ _ _ _ _ (by decide) (by decide)]; decide)
theorem yield : Statement .yield := of_one rfl (by rw [major_fmtE _ _ _ _ _ (by decide) (by decide)]; decide)
theorem sleep (a : BitVec 7) : Statement (.sleep a) := of_one rfl (by rw [major_fmtE _ _ _ _ _ (by decide) (by decide)]; decide)
theorem trap (a : BitVec 7) : Statement (.trap a) := of_one rfl (by rw [major_fmtRRR _ _ _ _ _ (by decide) (by decide)]; decide)
theorem eret : Statement .eret := of_one rfl (by rw [major_fmtRRR _ _ _ _ _ (by decide) (by decide)]; decide)
theorem sret : Statement .sret := of_one rfl (by rw [major_fmtRRR _ _ _ _ _ (by decide) (by decide)]; decide)
theorem csave (a : BitVec 7) (b : BitVec 7) : Statement (.csave a b) := of_one rfl (by rw [major_fmtRRR _ _ _ _ _ (by decide) (by decide)]; decide)
theorem crest (a : BitVec 7) (b : BitVec 7) : Statement (.crest a b) := of_one rfl (by rw [major_fmtRRR _ _ _ _ _ (by decide) (by decide)]; decide)
theorem brk : Statement .brk := of_one rfl (by rw [major_fmtRRR _ _ _ _ _ (by decide) (by decide)]; decide)
theorem scrub (a : BitVec 7) : Statement (.scrub a) := of_one rfl (by rw [major_fmtRRR _ _ _ _ _ (by decide) (by decide)]; decide)
theorem pause (a : BitVec 7) : Statement (.pause a) := of_one rfl (by rw [major_fmtRRR _ _ _ _ _ (by decide) (by decide)]; decide)
theorem l2wb (a : BitVec 7) (b : BitVec 7) : Statement (.l2wb a b) := of_one rfl (by rw [major_fmtE _ _ _ _ _ (by decide) (by decide)]; decide)
theorem l2inv (a : BitVec 7) (b : BitVec 7) : Statement (.l2inv a b) := of_one rfl (by rw [major_fmtE _ _ _ _ _ (by decide) (by decide)]; decide)
theorem l2wbi (a : BitVec 7) (b : BitVec 7) : Statement (.l2wbi a b) := of_one rfl (by rw [major_fmtE _ _ _ _ _ (by decide) (by decide)]; decide)
theorem rinv (a : BitVec 7) (b : BitVec 7) : Statement (.rinv a b) := of_one rfl (by rw [major_fmtE _ _ _ _ _ (by decide) (by decide)]; decide)
theorem l2hm (a : BitVec 7) (b : BitVec 7) : Statement (.l2hm a b) := of_one rfl (by rw [major_fmtE _ _ _ _ _ (by decide) (by decide)]; decide)
theorem l2pf (a : BitVec 7) (b : BitVec 7) : Statement (.l2pf a b) := of_one rfl (by rw [major_fmtE _ _ _ _ _ (by decide) (by decide)]; decide)
theorem mfs (d : BitVec 7) (s : BitVec 12) : Statement (.mfs d s) := of_one rfl (by rw [major_fmtS _ _ _ _ (by decide)]; decide)
theorem mts (a : BitVec 7) (s : BitVec 12) : Statement (.mts a s) := of_one rfl (by rw [major_fmtS _ _ _ _ (by decide)]; decide)
theorem illegalInstruction (w : BitVec 32) : Statement (.illegalInstruction w) := fun _ _ _ h => absurd rfl (h w)
theorem registerWrite (unit : Nat) (reg : Nat) (v : BitVec 64) : Statement (.registerWrite unit reg v) := of_none rfl
theorem utimerWrite (sl : Nat) (v : BitVec 64) : Statement (.utimerWrite sl v) := of_none rfl
theorem stimerWrite (sl : Nat) (v : BitVec 64) : Statement (.stimerWrite sl v) := of_none rfl
theorem slockWrite (sl : Nat) (v : BitVec 64) : Statement (.slockWrite sl v) := of_none rfl
theorem hmaskWrite (sl : Nat) (k : Nat) (v : BitVec 64) : Statement (.hmaskWrite sl k v) := of_none rfl
theorem rootEntryWrite (sl : Nat) (idx : Nat) (v : BitVec 64) : Statement (.rootEntryWrite sl idx v) := of_none rfl
theorem treeTableWrite (sl : Nat) (idx : Nat) (v : BitVec 64) : Statement (.treeTableWrite sl idx v) := of_none rfl
theorem translationInvalidate (sl : Nat) (idx : Nat) (v : BitVec 64) : Statement (.translationInvalidate sl idx v) := of_none rfl
theorem partitionRegisterWrite (sl : Nat) (idx : Nat) (v : BitVec 64) : Statement (.partitionRegisterWrite sl idx v) := of_none rfl
theorem ttdataRead (sl : Nat) (d : Nat) : Statement (.ttdataRead sl d) := of_none rfl
theorem invalidationComplete (sl : Nat) : Statement (.invalidationComplete sl) := of_none rfl
theorem slotTableEntryWrite (sl : Nat) (idx : Nat) (v : BitVec 64) : Statement (.slotTableEntryWrite sl idx v) := of_none rfl
theorem taskParameterWrite (sl : Nat) (idx : Nat) (v : BitVec 64) : Statement (.taskParameterWrite sl idx v) := of_none rfl
theorem slottabSelect (sl : Nat) (v : BitVec 64) : Statement (.slottabSelect sl v) := of_none rfl
theorem worldWrite (sl : Nat) (v : BitVec 64) : Statement (.worldWrite sl v) := of_none rfl
theorem contextWordWrite (ag : Nat) (ctx : Nat) (word : Nat) (v : BitVec 64) : Statement (.contextWordWrite ag ctx word v) := of_none rfl
theorem contextEnable (ag : Nat) (ctx : Nat) (v : BitVec 64) : Statement (.contextEnable ag ctx v) := of_none rfl
theorem errClear (ag : Nat) (ctx : Nat) : Statement (.errClear ag ctx) := of_none rfl
theorem kpendWrite (port : Nat) (word : Nat) (v : BitVec 64) : Statement (.kpendWrite port word v) := of_none rfl
theorem kctlRotWrite (port : Nat) : Statement (.kctlRotWrite port) := of_none rfl
theorem lstatRetrain (port : Nat) : Statement (.lstatRetrain port) := of_none rfl
theorem lstatFailClear (port : Nat) (v : BitVec 64) : Statement (.lstatFailClear port v) := of_none rfl
theorem mlostClear (m : Nat) (lost : Nat) : Statement (.mlostClear m lost) := of_none rfl
theorem hostReadBar1 (ag : Nat) (addr : Nat) (n : Nat) : Statement (.hostReadBar1 ag addr n) := of_none rfl
theorem hostReadBar2 (ag : Nat) (off : Nat) (n : Nat) : Statement (.hostReadBar2 ag off n) := of_none rfl
theorem hostWriteDiscard (ag : Nat) (bar : Nat) (addr : Nat) : Statement (.hostWriteDiscard ag bar addr) := of_none rfl
theorem channelPoll (ag : Nat) (ctx : Nat) : Statement (.channelPoll ag ctx) := of_none rfl
theorem launchRecord (ag : Nat) (ctx : Nat) : Statement (.launchRecord ag ctx) := of_none rfl
theorem stageRecord (ag : Nat) (ctx : Nat) : Statement (.stageRecord ag ctx) := of_none rfl
theorem markerRecord (ag : Nat) (ctx : Nat) : Statement (.markerRecord ag ctx) := of_none rfl
theorem inboxPlace (ag : Nat) (ctx : Nat) : Statement (.inboxPlace ag ctx) := of_none rfl
theorem inboxPull (lin : Nat) (k : Nat) : Statement (.inboxPull lin k) := of_none rfl
theorem inboxPacketAccept (lin : Nat) (k : Nat) : Statement (.inboxPacketAccept lin k) := of_none rfl
theorem placePacket (lin : Nat) : Statement (.placePacket lin) := of_none rfl
theorem balancingInterval (lin : Nat) : Statement (.balancingInterval lin) := of_none rfl
theorem levellingClaim (lin : Nat) (nb : Nat) : Statement (.levellingClaim lin nb) := of_none rfl
theorem grantRound (lin : Nat) : Statement (.grantRound lin) := of_none rfl
theorem levelledStagePull (lin : Nat) (nb : Nat) : Statement (.levelledStagePull lin nb) := of_none rfl
theorem levelledAccept (lin : Nat) (nb : Nat) : Statement (.levelledAccept lin nb) := of_none rfl
theorem levelledCompletionUpdate (lin : Nat) (nb : Nat) : Statement (.levelledCompletionUpdate lin nb) := of_none rfl
theorem frontEndDeliver (lin : Nat) : Statement (.frontEndDeliver lin) := of_none rfl
theorem strandFetchFill (sl : Nat) : Statement (.strandFetchFill sl) := of_none rfl
theorem coilReplayIssue (sl : Nat) : Statement (.coilReplayIssue sl) := of_none rfl
theorem joinWatchdog (sl : Nat) : Statement (.joinWatchdog sl) := of_none rfl
theorem memoryReply (id : Nat) : Statement (.memoryReply id) := of_none rfl
theorem barwBoundExpire (sl : Nat) : Statement (.barwBoundExpire sl) := of_none rfl
theorem putxLand (id : Nat) : Statement (.putxLand id) := of_none rfl
theorem pageWalkComplete (lin : Nat) (id : Nat) : Statement (.pageWalkComplete lin id) := of_none rfl
theorem sectorFill (id : Nat) : Statement (.sectorFill id) := of_none rfl
theorem readPortRead (id : Nat) : Statement (.readPortRead id) := of_none rfl
theorem watchArmArrive (id : Nat) : Statement (.watchArmArrive id) := of_none rfl
theorem watchWithdrawArrive (id : Nat) : Statement (.watchWithdrawArrive id) := of_none rfl
theorem watchAnswer (id : Nat) : Statement (.watchAnswer id) := of_none rfl
theorem watchRefusal (id : Nat) : Statement (.watchRefusal id) := of_none rfl
theorem pullRequestIssue (lin : Nat) (ch : Nat) : Statement (.pullRequestIssue lin ch) := of_none rfl
theorem pullSectorData (id : Nat) : Statement (.pullSectorData id) := of_none rfl
theorem cpullPeerReady (lin : Nat) (g : Nat) : Statement (.cpullPeerReady lin g) := of_none rfl
theorem treePullServe (id : Nat) : Statement (.treePullServe id) := of_none rfl
theorem cpullWatchdog (lin : Nat) (g : Nat) : Statement (.cpullWatchdog lin g) := of_none rfl
theorem budgetPeriod (lin : Nat) : Statement (.budgetPeriod lin) := of_none rfl
theorem matrixCommandComplete (core : Nat) (id : Nat) : Statement (.matrixCommandComplete core id) := of_none rfl
theorem gaussCommandStart (core : Nat) : Statement (.gaussCommandStart core) := of_none rfl
theorem gaussCommandComplete (core : Nat) : Statement (.gaussCommandComplete core) := of_none rfl
theorem utimerExpire (sl : Nat) : Statement (.utimerExpire sl) := of_none rfl
theorem userInterruptDelivery (sl : Nat) : Statement (.userInterruptDelivery sl) := of_none rfl
theorem stimerExpire (sl : Nat) : Statement (.stimerExpire sl) := of_none rfl
theorem supervisorTimerTrap (sl : Nat) : Statement (.supervisorTimerTrap sl) := of_none rfl
theorem slotTerminate (sl : Nat) : Statement (.slotTerminate sl) := of_none rfl
theorem sleepExpire (sl : Nat) : Statement (.sleepExpire sl) := of_none rfl
theorem pauseEnd (sl : Nat) : Statement (.pauseEnd sl) := of_none rfl
theorem dramScrubRead (lin : Nat) (addr : Nat) : Statement (.dramScrubRead lin addr) := of_none rfl
theorem sramScrubRead (lin : Nat) (addr : Nat) : Statement (.sramScrubRead lin addr) := of_none rfl
theorem agentScrubRead (ag : Nat) (addr : Nat) : Statement (.agentScrubRead ag addr) := of_none rfl
theorem flitArrival (port : Nat) (k : Nat) : Statement (.flitArrival port k) := of_none rfl
theorem replayRequest (port : Nat) (k : Nat) : Statement (.replayRequest port k) := of_none rfl
theorem widthNotice (port : Nat) (width : Nat) : Statement (.widthNotice port width) := of_none rfl
theorem replayRequestRepeat (port : Nat) : Statement (.replayRequestRepeat port) := of_none rfl
theorem ackTimeoutResend (port : Nat) : Statement (.ackTimeoutResend port) := of_none rfl
theorem laneFailure (port : Nat) (lane : Nat) : Statement (.laneFailure port lane) := of_none rfl
theorem portRetrainComplete (port : Nat) : Statement (.portRetrainComplete port) := of_none rfl
theorem ivExhaustionWarning (port : Nat) : Statement (.ivExhaustionWarning port) := of_none rfl
theorem ivLimitReached (port : Nat) : Statement (.ivLimitReached port) := of_none rfl
theorem lossTimeout (m : Nat) (lost : Nat) : Statement (.lossTimeout m lost) := of_none rfl
theorem hostLinkDown (ag : Nat) : Statement (.hostLinkDown ag) := of_none rfl
theorem functionLevelReset (ag : Nat) : Statement (.functionLevelReset ag) := of_none rfl
theorem hostLinkUp (ag : Nat) : Statement (.hostLinkUp ag) := of_none rfl
theorem hostReadTimeout (ag : Nat) (ctx : Nat) : Statement (.hostReadTimeout ag ctx) := of_none rfl
theorem droopDetect (m : Nat) : Statement (.droopDetect m) := of_none rfl
theorem droopRecover (m : Nat) : Statement (.droopRecover m) := of_none rfl
theorem powerLimitStep (m : Nat) : Statement (.powerLimitStep m) := of_none rfl
theorem thermalStep (m : Nat) : Statement (.thermalStep m) := of_none rfl
theorem thermalRecover (m : Nat) : Statement (.thermalRecover m) := of_none rfl
theorem thermalHold (m : Nat) : Statement (.thermalHold m) := of_none rfl
theorem thermalReset (m : Nat) : Statement (.thermalReset m) := of_none rfl
theorem supplyUndervoltReset (m : Nat) : Statement (.supplyUndervoltReset m) := of_none rfl
theorem stretchLimitReset (m : Nat) : Statement (.stretchLimitReset m) := of_none rfl
theorem moduleReset (m : Nat) : Statement (.moduleReset m) := of_none rfl
theorem unitWake (core : Nat) (unit : Nat) : Statement (.unitWake core unit) := of_none rfl
theorem firmwareImageWrite (m : Nat) (img : Nat) : Statement (.firmwareImageWrite m img) := of_none rfl
theorem floorRaise (m : Nat) (floor : Nat) : Statement (.floorRaise m floor) := of_none rfl
theorem worldCreate (m : Nat) (world : Nat) (attr : Nat) : Statement (.worldCreate m world attr) := of_none rfl
theorem worldDestroy (m : Nat) (world : Nat) : Statement (.worldDestroy m world) := of_none rfl
theorem provision (m : Nat) : Statement (.provision m) := of_none rfl
theorem ownerKeyInstall (m : Nat) : Statement (.ownerKeyInstall m) := of_none rfl
theorem ownerRelease (m : Nat) : Statement (.ownerRelease m) := of_none rfl
theorem retire (m : Nat) : Statement (.retire m) := of_none rfl
theorem storeCompletion (id : Nat) : Statement (.storeCompletion id) := of_none rfl
theorem powerGating (core : Nat) (unit : Nat) : Statement (.powerGating core unit) := of_none rfl
theorem creelReset (lin : Nat) : Statement (.creelReset lin) := of_none rfl

end Sys2Proof.Laws.Width
end

