-- ==== Sys2Proof/Laws/Weave.lean ====
section
/-!
SUPPORT. What settling a weave can do: which fields of the state it changes, and which slots it leaves alone.
-/

namespace Sys2Proof.Laws

open Sys2Proof.Machine

/-- Only the register file, the slots and the weaves differ. -/
def SameBut (s t : State) : Prop := t = { s with regs := t.regs, slots := t.slots, weaves := t.weaves }

/-- A member that no completion of its weave touches: neither attached nor in JWAIT. -/
def Apart (m : MemberState) : Prop := m = .strand ∨ m = .left ∨ m = .exited

/-- `t` differs from `s` in the register file, the slots and the weaves only, and the slots of members that are apart are as before. -/
structure Settles (s t : State) : Prop where
  only : SameBut s t
  apart : ∀ k, Apart (s.slot k).member → t.slot k = s.slot k

theorem SameBut.refl (s : State) : SameBut s s := rfl
theorem SameBut.trans {s t u : State} (h : SameBut s t) (h' : SameBut t u) : SameBut s u := by
  unfold SameBut at *
  rw [h', h]

theorem sameBut_updSlot (s : State) (id : Nat) (f : Slot → Slot) : SameBut s (s.updSlot id f) := rfl

theorem Settles.refl (s : State) : Settles s s := ⟨rfl, fun _ _ => rfl⟩
theorem Settles.trans {s t u : State} (h : Settles s t) (h' : Settles t u) : Settles s u :=
  ⟨h.only.trans h'.only, fun k hk => (h'.apart k (by rw [h.apart k hk]; exact hk)).trans (h.apart k hk)⟩

theorem Settles.updWeave {s t : State} (h : Settles s t) (wv : Nat) (f : Weave → Weave) : Settles s (t.updWeave wv f) := by
  unfold State.updWeave
  split
  · exact ⟨h.only.trans rfl, h.apart⟩
  · exact h

theorem Settles.updSlot {s t : State} (h : Settles s t) {id : Nat} (f : Slot → Slot) (hid : ¬Apart (s.slot id).member) :
    Settles s (t.updSlot id f) := by
  refine ⟨h.only.trans rfl, fun k hk => ?_⟩
  rw [slot_updSlot_ne, h.apart k hk]
  rintro rfl
  exact hid hk

theorem Settles.setRegOf {s t : State} (h : Settles s t) (id n : Nat) (v : Word) : Settles s (t.setRegOf id n v) := by
  refine ⟨h.only.trans ?_, fun k hk => by simpa using h.apart k hk⟩
  unfold State.setRegOf
  split <;> rfl

/-- A fold over members none of which is apart. -/
theorem Settles.foldl {s : State} {g : State → Nat → State} {ids : List Nat}
    (hg : ∀ t id, id ∈ ids → Settles s t → Settles s (g t id)) {t : State} (ht : Settles s t) : Settles s (ids.foldl g t) := by
  induction ids generalizing t with
  | nil => exact ht
  | cons a l ih =>
    exact ih (fun t id hid => hg t id (List.mem_cons_of_mem _ hid)) (hg t a (List.mem_cons_self ..) ht)

theorem not_apart_attached {s : State} {wv k : Nat} (h : k ∈ s.attachedMembers wv) : ¬Apart (s.slot k).member := by
  have : (s.slot k).member = .attached := by simpa using (List.mem_filter.mp h).2
  simp [Apart, this]

theorem not_apart_jwait {s : State} {k a : Nat} (h : (memberJwait (s.slot k).member == some a) = true) : ¬Apart (s.slot k).member := by
  cases hm : (s.slot k).member <;> simp_all [memberJwait, Apart]

theorem settles_completeVote (s : State) (ids : List Nat) (h : ∀ k ∈ ids, ¬Apart (s.slot k).member) : Settles s (s.completeVote ids) := by
  refine Settles.foldl (fun t id hid ht => ?_) (.refl s)
  split
  · exact (ht.setRegOf _ _ _).updSlot _ (h id hid)
  · exact ht

theorem settles_completeJoin (s : State) (a : Nat) (att : Bool) (ids : List Nat) (h : ∀ k ∈ ids, ¬Apart (s.slot k).member) :
    Settles s (s.completeJoin a att ids) :=
  Settles.foldl (fun _ id hid ht => ht.updSlot _ (h id hid)) (.refl s)

theorem settles_resolveBranch (s : State) (wv t : Nat) (ids : List Nat) (h : ∀ k ∈ ids, ¬Apart (s.slot k).member) :
    Settles s (s.resolveBranch wv t ids) :=
  (Settles.foldl (fun _ id hid ht => ht.updSlot _ (h id hid)) (.refl s)).updWeave ..

theorem settles_settleCtx (s : State) (wv : Nat) (w : Weave) : Settles s (s.settleCtx wv w).1 := by
  have ha : ∀ k ∈ s.attachedMembers wv, ¬Apart (s.slot k).member := fun _ => not_apart_attached
  unfold State.settleCtx
  dsimp only
  split
  · split
    · rename_i id _
      split
      · rename_i a h
        exact ((Settles.refl s).updSlot _ (not_apart_jwait (a := a) (by simp [h]))).updWeave ..
      · exact .refl s
    · exact (Settles.refl s).updWeave ..
  · split
    · exact settles_completeVote s _ ha
    · split
      · split
        · split
          · exact settles_resolveBranch s _ _ _ ha
          · exact .refl s
        · exact .refl s
      · split
        · rename_i a _ h
          refine (settles_completeJoin s _ _ _ fun k hk => ?_).updWeave ..
          rcases List.mem_append.mp hk with hk | hk
          · exact ha k hk
          · rw [Bool.and_eq_true, List.all_eq_true, List.all_eq_true] at h
            exact not_apart_jwait (h.2 k hk)
        · exact .refl s
      · exact .refl s

theorem settles_settleNoCtx (s : State) (wv : Nat) (w : Weave) : Settles s (s.settleNoCtx wv w) := by
  unfold State.settleNoCtx
  dsimp only
  split
  · exact .refl s
  · split
    · exact .refl s
    · split
      · rename_i h
        have ha := fun k hk => not_apart_jwait (List.all_eq_true.mp h k hk)
        split
        · exact settles_completeJoin s _ _ _ ha
        · exact (settles_completeJoin s _ _ _ ha).updWeave ..
      · exact .refl s

theorem settles_settleN (s : State) (wv n : Nat) : Settles s (s.settleN wv n) := by
  induction n generalizing s with
  | zero => exact .refl s
  | succ n ih =>
    unfold State.settleN
    split
    · exact .refl s
    · rename_i w _
      split
      · have h := settles_settleCtx s wv w
        split
        rename_i s' more heq
        rw [heq] at h
        split
        · exact h.trans (ih s')
        · exact h
      · exact settles_settleNoCtx s wv w

/-- Settling changes registers, slots and weaves only, and leaves alone every member that is neither attached nor in JWAIT. -/
theorem settles_settle (s : State) (wv : Nat) : Settles s (s.settle wv) := settles_settleN s wv 64

/-- A member that detaches becomes a strand with an empty queue; a member that is not attached stays as it is. -/
theorem slot_detach_self (s : State) (id : Nat) :
    (s.detach id).slot id =
      if (s.slot id).member = .attached then { s.slot id with member := .strand, queue := [] } else s.slot id := by
  unfold State.detach
  dsimp only
  split
  · rename_i h
    rw [(settles_settle _ _).apart id (by simp [Apart])]
    simp
  · rfl

theorem detach_only (s : State) (id : Nat) : SameBut s (s.detach id) := by
  unfold State.detach
  dsimp only
  split
  · exact (sameBut_updSlot ..).trans (settles_settle _ _).only
  · rfl

theorem unjoin_only (s : State) (id : Nat) : SameBut s (s.unjoin id) := by
  unfold State.unjoin
  split
  · exact (sameBut_updSlot ..).trans (settles_settle _ _).only
  · rfl

/-- A member in JWAIT becomes a strand; any other stays as it is. -/
theorem slot_unjoin_self (s : State) (id : Nat) (h : ∀ a, (s.slot id).member ≠ .jwait a) : (s.unjoin id).slot id = s.slot id := by
  unfold State.unjoin
  split
  · rename_i a ha
    exact absurd ha (h a)
  · rfl

end Sys2Proof.Laws
end

