-- ==== Sys2Proof/Tests/Slice0.lean ====
section
/-!
SUPPORT. Tests of the decoder and of well-formedness, on words written out from the spec's encodings, single steps with the spec's own examples,
and a witness for each statement's hypotheses.
-/

namespace Sys2Proof.Tests

set_option Elab.async false

open Sys2Proof Sys2Proof.Machine Sys2Proof.Safety

theorem test_decode_alu : ∀ p ∈ ([
      (32, 0x0450B180, .add 10 11 12), (32, 0x0450B181, .sub 10 11 12), (32, 0x0450B182, .and 10 11 12), (32, 0x0450B183, .or 10 11 12),
      (32, 0x0450B184, .xor 10 11 12), (32, 0x0450B185, .andn 10 11 12), (32, 0x0450B186, .sll 10 11 12), (32, 0x0450B187, .srl 10 11 12),
      (32, 0x0450B188, .sra 10 11 12), (32, 0x0450B189, .rotr 10 11 12), (32, 0x0450B18A, .mins 10 11 12), (32, 0x0450B18B, .maxs 10 11 12),
      (32, 0x0450B18C, .minu 10 11 12), (32, 0x0450B18D, .maxu 10 11 12), (32, 0x0450B18E, .slt 10 11 12), (32, 0x0450B18F, .sltu 10 11 12),
      (32, 0x0450B190, .seq 10 11 12), (32, 0x0450B191, .sne 10 11 12), (32, 0x0450B192, .addw 10 11 12), (32, 0x0450B193, .subw 10 11 12),
      (32, 0x0450B194, .sllw 10 11 12), (32, 0x0450B195, .srlw 10 11 12), (32, 0x0450B196, .sraw 10 11 12), (32, 0x0450B197, .sel 10 11 12)] : List (Nat × Nat × Instr)),
    decodeTableWord p.1 p.2.1 = some p.2.2 := by
  decide +kernel

theorem test_decode_muldiv : ∀ p ∈ ([
      (32, 0x0850B180, .mul 10 11 12), (32, 0x0850B181, .mulh 10 11 12), (32, 0x0850B182, .mulhu 10 11 12), (32, 0x0850B183, .mulw 10 11 12),
      (32, 0x0850B184, .mad 10 11 12), (32, 0x0850B185, .div 10 11 12), (32, 0x0850B186, .divu 10 11 12), (32, 0x0850B187, .rem 10 11 12),
      (32, 0x0850B188, .remu 10 11 12), (32, 0x0850B189, .divw 10 11 12), (32, 0x0850B18A, .remw 10 11 12)] : List (Nat × Nat × Instr)),
    decodeTableWord p.1 p.2.1 = some p.2.2 := by
  decide +kernel

theorem test_decode_bit : ∀ p ∈ ([
      (32, 0x0C50B000, .clz 10 11), (32, 0x0C50B001, .ctz 10 11), (32, 0x0C50B002, .popc 10 11), (32, 0x0C50B003, .brev 10 11),
      (32, 0x0C50B004, .bswap 10 11), (32, 0x0C50B185, .bfx 10 11 12), (32, 0x0C50B186, .bfxu 10 11 12), (32, 0x0C50B187, .bfi 10 11 12),
      (32, 0x0C50B188, .sext 10 11 12)] : List (Nat × Nat × Instr)),
    decodeTableWord p.1 p.2.1 = some p.2.2 := by
  decide +kernel

theorem test_decode_immediate : ∀ p ∈ ([
      (32, 0x1050BF25, .addi 10 11 0xF25), (32, 0x1450BF25, .andi 10 11 0xF25), (32, 0x1850BF25, .ori 10 11 0xF25),
      (32, 0x1C50BF25, .xori 10 11 0xF25), (32, 0x2050BF25, .slti 10 11 0xF25), (32, 0x2450BF25, .sltiu 10 11 0xF25),
      (32, 0x2850B025, .slli 10 11 37), (32, 0x2850B425, .srli 10 11 37), (32, 0x2850B825, .srai 10 11 37), (32, 0x2850BC25, .rotri 10 11 37),
      (32, 0x2C50B185, .lea 10 11 12 5), (32, 0x3050B000, .mkg 10 11)] : List (Nat × Nat × Instr)),
    decodeTableWord p.1 p.2.1 = some p.2.2 := by
  decide +kernel

theorem test_decode_long : ∀ p ∈ ([
      (64, 0x89ABCDEF34500000, .li 10 0x89ABCDEF), (64, 0x89ABCDEF34504000, .liu 10 0x89ABCDEF),
      (64, 0x89ABCDEF34508000, .lihi 10 0x89ABCDEF), (64, 0x89ABCDEF3450C000, .addl 10 0x89ABCDEF),
      (64, 0x89ABCDEF34510000, .andl 10 0x89ABCDEF), (64, 0x89ABCDEF34514000, .orl 10 0x89ABCDEF),
      (64, 0x89ABCDEF34518000, .xorl 10 0x89ABCDEF)] : List (Nat × Nat × Instr)),
    decodeTableWord p.1 p.2.1 = some p.2.2 := by
  decide +kernel

theorem test_decode_flow : ∀ p ∈ ([
      (32, 0x4050BF25, .beq 10 11 0xF25), (32, 0x4450BF25, .bne 10 11 0xF25), (32, 0x4850BF25, .blt 10 11 0xF25),
      (32, 0x4C50BF25, .bge 10 11 0xF25), (32, 0x5050BF25, .bltu 10 11 0xF25), (32, 0x5450BF25, .bgeu 10 11 0xF25),
      (32, 0x5BABCDEF, .j 0x3ABCDEF), (32, 0x5FABCDEF, .jal 0x3ABCDEF), (32, 0x6050BF25, .jalr 10 11 0xF25),
      (32, 0x65A54CB6, .coil 6 37 9 18 27)] : List (Nat × Nat × Instr)),
    decodeTableWord p.1 p.2.1 = some p.2.2 := by
  decide +kernel

theorem test_decode_weave : ∀ p ∈ ([
      (32, 0x68000000, .join), (32, 0x68000001, .leave), (32, 0x68000002, .detach), (32, 0x68500003, .lag 10),
      (32, 0x6850B004, .voteany 10 11), (32, 0x6850B005, .voteall 10 11), (32, 0x6850B006, .votecnt 10 11), (32, 0x6850B007, .votemax 10 11)] : List (Nat × Nat × Instr)),
    decodeTableWord p.1 p.2.1 = some p.2.2 := by
  decide +kernel

theorem test_decode_access : ∀ p ∈ ([
      (32, 0x8050B831, .ld 10 11 4 12 1), (32, 0x8450B831, .st 10 11 4 12 1), (32, 0x8850B031, .ldf 10 11 12 1),
      (32, 0x8850B231, .ldfe 10 11 12 1), (32, 0x8850B431, .stfe 10 11 12 1), (32, 0x8850B631, .stf 10 11 12 1),
      (32, 0x8800A82D, .sete 10 11 1), (32, 0x8C50B831, .gld 10 11 4 12 1)] : List (Nat × Nat × Instr)),
    decodeTableWord p.1 p.2.1 = some p.2.2 := by
  decide +kernel

theorem test_decode_atomic_d : ∀ p ∈ ([
      (32, 0x9050B181, .aaddD 10 11 12 1), (32, 0x9050B183, .aandD 10 11 12 1), (32, 0x9050B185, .aorD 10 11 12 1),
      (32, 0x9050B187, .axorD 10 11 12 1), (32, 0x9050B189, .aminD 10 11 12 1), (32, 0x9050B18B, .amaxD 10 11 12 1),
      (32, 0x9050B18D, .aminuD 10 11 12 1), (32, 0x9050B18F, .amaxuD 10 11 12 1), (32, 0x9050B190, .aswapD 10 11 12),
      (32, 0x9050B192, .acasD 10 11 12)] : List (Nat × Nat × Instr)),
    decodeTableWord p.1 p.2.1 = some p.2.2 := by
  decide +kernel

theorem test_decode_atomic_w : ∀ p ∈ ([
      (32, 0x9450B181, .aaddW 10 11 12 1), (32, 0x9450B183, .aandW 10 11 12 1), (32, 0x9450B185, .aorW 10 11 12 1),
      (32, 0x9450B187, .axorW 10 11 12 1), (32, 0x9450B189, .aminW 10 11 12 1), (32, 0x9450B18B, .amaxW 10 11 12 1),
      (32, 0x9450B18D, .aminuW 10 11 12 1), (32, 0x9450B18F, .amaxuW 10 11 12 1), (32, 0x9450B190, .aswapW 10 11 12),
      (32, 0x9450B192, .acasW 10 11 12), (32, 0x9450B195, .afadd 10 11 12 1), (32, 0x9450B197, .afmin 10 11 12 1),
      (32, 0x9450B199, .afmax 10 11 12 1)] : List (Nat × Nat × Instr)),
    decodeTableWord p.1 p.2.1 = some p.2.2 := by
  decide +kernel

theorem test_decode_barrier_message_fence : ∀ p ∈ ([
      (32, 0x9800A160, .bari 10 11), (32, 0x9850B181, .bara 10 11 12), (32, 0x9850B182, .barw 10 11 12), (32, 0x9850B183, .bart 10 11 12),
      (32, 0x9C50B180, .putx 10 11 12), (32, 0x9C50B001, .emptyx 10 11), (32, 0x9C50B182, .spawn 10 11 12), (32, 0xA0000000, .fence),
      (32, 0xA0000001, .fenceE), (32, 0xA0000002, .fenceI)] : List (Nat × Nat × Instr)),
    decodeTableWord p.1 p.2.1 = some p.2.2 := by
  decide +kernel

theorem test_decode_vmem : ∀ p ∈ ([
      (32, 0xA48A0020, .vld 1 10 2), (32, 0xA48A0021, .vst 1 10 2), (32, 0xA48A1622, .vlds 1 10 11 2), (32, 0xA48A1623, .vsts 1 10 11 2),
      (32, 0xA48A0164, .vldx 1 10 5 2), (32, 0xA48A0165, .vstx 1 10 5 2)] : List (Nat × Nat × Instr)),
    decodeTableWord p.1 p.2.1 = some p.2.2 := by
  decide +kernel

theorem test_decode_vfp : ∀ p ∈ ([
      (32, 0xA8A62140, .vadd 1 2 3 2 1 2), (32, 0xA8A62141, .vsub 1 2 3 2 1 2), (32, 0xA8A62142, .vmul 1 2 3 2 1 2),
      (32, 0xA8A72143, .vfma 1 2 3 4 2 1 2), (32, 0xA8A62104, .vmin 1 2 3 2 1), (32, 0xA8A62105, .vmax 1 2 3 2 1),
      (32, 0xA8A02106, .vabs 1 2 2 1), (32, 0xA8A02107, .vneg 1 2 2 1), (32, 0xA8A62108, .vcmpeq 1 2 3 2 1),
      (32, 0xA8A62109, .vcmplt 1 2 3 2 1), (32, 0xA8A6210A, .vcmple 1 2 3 2 1), (32, 0xA8A7210B, .vsel 1 2 3 4 2 1),
      (32, 0xA8A6214C, .vdiv 1 2 3 2 1 2), (32, 0xA8A0214D, .vsqrt 1 2 2 1 2), (32, 0xA8A7214E, .vfms 1 2 3 4 2 1 2)] : List (Nat × Nat × Instr)),
    decodeTableWord p.1 p.2.1 = some p.2.2 := by
  decide +kernel

theorem test_decode_vint : ∀ p ∈ ([
      (32, 0xACA62400, .viadd 1 2 3 2 4), (32, 0xACA62401, .visub 1 2 3 2 4), (32, 0xACA62402, .vimul 1 2 3 2 4),
      (32, 0xACA72403, .vimad 1 2 3 4 2 4), (32, 0xACA62404, .vand 1 2 3 2 4), (32, 0xACA62405, .vor 1 2 3 2 4),
      (32, 0xACA62406, .vxor 1 2 3 2 4), (32, 0xACA62407, .vshl 1 2 3 2 4), (32, 0xACA62408, .vshr 1 2 3 2 4),
      (32, 0xACA62409, .vsra 1 2 3 2 4), (32, 0xACA6240A, .vimin 1 2 3 2 4), (32, 0xACA6240B, .vimax 1 2 3 2 4),
      (32, 0xACA6240C, .vicmpeq 1 2 3 2 4), (32, 0xACA6240D, .vicmplt 1 2 3 2 4), (32, 0xACA7250E, .vidot4 1 2 3 4 2)] : List (Nat × Nat × Instr)),
    decodeTableWord p.1 p.2.1 = some p.2.2 := by
  decide +kernel

theorem test_decode_vcvt : ∀ p ∈ ([
      (32, 0xB0A62140, .vcvt 1 2 3 0 2 1 2), (32, 0xB0A66001, .vdec 1 2 3 1 2), (32, 0xB0A66042, .venc 1 2 3 1 2 2),
      (32, 0xB0A72043, .vscl 1 2 3 4 2 2), (32, 0xB0A66444, .vqnt 1 2 3 1 2 4 2), (32, 0xB0A72005, .vsgn1 1 2 3 4 2)] : List (Nat × Nat × Instr)),
    decodeTableWord p.1 p.2.1 = some p.2.2 := by
  decide +kernel

theorem test_decode_vperm : ∀ p ∈ ([
      (32, 0xB48A1300, .vdup 1 10 2 3), (32, 0xB40A2301, .vlane 10 1 3), (32, 0xB48A0402, .vins 1 10 4), (32, 0xB4805303, .vperm 1 2 2 3),
      (32, 0xB48A1444, .viota 1 10 2 4 2), (32, 0xB40A3145, .vrsum 10 1 2 1 2), (32, 0xB40A3306, .vrmax 10 1 2 3),
      (32, 0xB40A3307, .vrmin 10 1 2 3), (32, 0xB4003328, .vmsk 1 2 1)] : List (Nat × Nat × Instr)),
    decodeTableWord p.1 p.2.1 = some p.2.2 := by
  decide +kernel

theorem test_decode_vspec : ∀ p ∈ ([
      (32, 0xB8A02140, .vexp2 1 2 2 1 2), (32, 0xB8A02141, .vlog2 1 2 2 1 2), (32, 0xB8A02142, .vrcp 1 2 2 1 2),
      (32, 0xB8A02143, .vrsq 1 2 2 1 2), (32, 0xB8A02144, .vexp 1 2 2 1 2)] : List (Nat × Nat × Instr)),
    decodeTableWord p.1 p.2.1 = some p.2.2 := by
  decide +kernel

theorem test_decode_vmisc : ∀ p ∈ ([
      (32, 0xBC8A5300, .vbuck 1 10 2 2), (32, 0xBC805301, .vcnt 1 2 2), (32, 0xBC800022, .vmovmToVector 1 1),
      (32, 0xBC0020A2, .vmovmToMask 1 1)] : List (Nat × Nat × Instr)),
    decodeTableWord p.1 p.2.1 = some p.2.2 := by
  decide +kernel

theorem test_decode_matrix : ∀ p ∈ ([
      (32, 0xC050B000, .mcfg 10 11), (32, 0xC0000141, .mzero 10), (32, 0xC050B182, .mma 10 11 12), (32, 0xC050B183, .mmas 10 11 12),
      (32, 0xC050B184, .mout 10 11 12), (32, 0xC050B185, .min 10 11 12), (32, 0xC050B006, .msave 10 11), (32, 0xC050B007, .mrest 10 11),
      (32, 0xC0000008, .msync), (32, 0xC050B189, .tfpin 10 11 12), (32, 0xC050000A, .tfrel 10)] : List (Nat × Nat × Instr)),
    decodeTableWord p.1 p.2.1 = some p.2.2 := by
  decide +kernel

theorem test_decode_pull : ∀ p ∈ ([
      (32, 0xC450B180, .pull 10 11 12), (32, 0xC450B181, .pullx 10 11 12), (32, 0xC450B182, .pullr 10 11 12),
      (32, 0xC450B183, .pullm 10 11 12), (32, 0xC450B184, .cpull 10 11 12), (32, 0xC450B005, .pub 10 11), (32, 0xC450B006, .puba 10 11),
      (32, 0xC450B187, .watch 10 11 12), (32, 0xC450B188, .wrange 10 11 12), (32, 0xC4500169, .wwait 10 11), (32, 0xC400014A, .wcancel 10),
      (32, 0xC400000B, .psync)] : List (Nat × Nat × Instr)),
    decodeTableWord p.1 p.2.1 = some p.2.2 := by
  decide +kernel

theorem test_decode_gauss : ∀ p ∈ ([
      (32, 0xC850B180, .gupd 10 11 12), (32, 0xC850B181, .gbel 10 11 12), (32, 0xC850B182, .gadd 10 11 12), (32, 0xC850B183, .gelim 10 11 12),
      (32, 0xC850B184, .gdamp 10 11 12), (32, 0xC8500165, .gsolve 10 11), (32, 0xC850B186, .gres 10 11 12), (32, 0xC8000007, .gsync)] : List (Nat × Nat × Instr)),
    decodeTableWord p.1 p.2.1 = some p.2.2 := by
  decide +kernel

theorem test_decode_task : ∀ p ∈ ([
      (32, 0xCC50B180, .tqput 10 11 12), (32, 0xCC50B001, .tqget 10 11), (32, 0xCC000002, .exit), (32, 0xCC000003, .yield),
      (32, 0xCC500004, .sleep 10)] : List (Nat × Nat × Instr)),
    decodeTableWord p.1 p.2.1 = some p.2.2 := by
  decide +kernel

theorem test_decode_sys : ∀ p ∈ ([
      (32, 0xD000A000, .trap 10), (32, 0xD0000001, .eret), (32, 0xD0000002, .sret), (32, 0xD000A163, .csave 10 11),
      (32, 0xD000A164, .crest 10 11), (32, 0xD0000005, .brk), (32, 0xD000A006, .scrub 10), (32, 0xD000A007, .pause 10)] : List (Nat × Nat × Instr)),
    decodeTableWord p.1 p.2.1 = some p.2.2 := by
  decide +kernel

theorem test_decode_cache_special : ∀ p ∈ ([
      (32, 0xD450B000, .l2wb 10 11), (32, 0xD450B001, .l2inv 10 11), (32, 0xD450B002, .l2wbi 10 11), (32, 0xD450B003, .rinv 10 11),
      (32, 0xD450B004, .l2hm 10 11), (32, 0xD450B005, .l2pf 10 11), (32, 0xD8500102, .mfs 10 0x102), (32, 0xDC00A102, .mts 10 0x102)] : List (Nat × Nat × Instr)),
    decodeTableWord p.1 p.2.1 = some p.2.2 := by
  decide +kernel


/-! ### Well-formedness: each check refuses a term just past its bound, and accepts the bound (R135, R139, R166 to R172, R188 to R205, R238, R255) -/

theorem test_wf_memory : [Instr.ld 1 2 7 0 0, .ld 1 2 6 0 3, .st 1 2 1 0 0, .st 1 2 6 0 3, .ldf 1 2 0 3, .ldfe 1 2 0 3, .stfe 1 2 0 3,
    .stf 1 2 0 3, .sete 2 0 3, .gld 1 2 7 0 0, .gld 1 2 6 0 3].all (fun i => !i.wf) = true ∧
    [Instr.ld 1 2 6 0 2, .st 1 2 6 0 2, .sete 2 0 2, .gld 1 2 6 0 2].all (·.wf) = true := by decide
theorem test_wf_vector : [Instr.vadd 1 2 3 0 3 0, .vadd 1 2 3 0 0 4, .vmin 1 2 3 0 3, .vsqrt 1 2 0 0 4, .viadd 1 2 3 0 2, .vshl 1 2 3 0 6,
    .vexp2 1 2 0 3 0, .vcvt 1 2 0 0 0 0 0, .vcvt 1 2 2 1 0 0 0, .vcvt 1 2 0 1 0 0 1, .vcvt 1 2 1 3 0 0 0, .vcvt 1 2 0 0 0 1 4].all
      (fun i => !i.wf) = true ∧
    [Instr.vadd 1 2 3 0 2 3, .viadd 1 2 3 0 5, .vcvt 1 2 1 1 0 0 0, .vcvt 1 2 0 3 0 0 3, .vcvt 1 2 0 4 0 5 0].all (·.wf) = true := by decide
theorem test_wf_codes : [Instr.vdec 1 2 3 3 0, .venc 1 2 3 3 0 0, .venc 1 2 3 0 0 4, .vscl 1 2 3 0 0 4, .vqnt 1 2 3 1 0 3 0, .vqnt 1 2 3 2 0 4 0,
    .vqnt 1 2 3 0 0 2 0, .vqnt 1 2 3 0 0 3 4, .vsgn1 1 2 1 3 0].all (fun i => !i.wf) = true ∧
    [Instr.vdec 1 2 3 2 0, .vqnt 1 2 3 3 0 5 3, .vqnt 1 2 3 1 0 4 0, .vsgn1 1 2 2 3 0].all (·.wf) = true := by decide
theorem test_wf_lanes : [Instr.vdup 1 2 0 6, .vlane 2 1 6, .vins 1 2 6, .vperm 1 2 0 1, .viota 1 2 0 2 0, .viota 1 2 0 6 0, .vrsum 2 1 0 0 4,
    .vrsum 2 1 0 3 1, .vrsum 2 1 0 6 0, .vrmax 2 1 0 6, .vrmin 2 1 0 6].all (fun i => !i.wf) = true ∧
    [Instr.vdup 1 2 0 5, .vperm 1 2 0 3, .viota 1 2 0 3 0, .vrsum 2 1 0 2 3, .vrsum 2 1 0 5 0, .vrmin 2 1 0 5].all (·.wf) = true := by decide
theorem test_wf_pairs : [Instr.pull 1 2 127, .pullx 1 2 127, .pullr 1 2 127, .pullm 1 2 127, .cpull 1 2 127, .gupd 1 2 127, .gbel 1 2 127].all
    (fun i => !i.wf) = true ∧ [Instr.pull 1 2 126, .gupd 1 2 126].all (·.wf) = true := by decide
/-- R134, R341: unassigned codes, reserved bits that are set, and values that no form accepts decode to nothing. -/
theorem test_decode_refuses : [0x00000000, 0xFFFFFFFF, 0x04000018, 0x28080040, 0x64030841, 0x80209E08, 0x8420120C, 0xA8A71083, 0xC8000008,
    0x68001000].all (fun w => decodeTableWord 32 w == none) = true := by decide +kernel

/-! ### Small states

Slot 0 of core 0 of creel 0 is a strand in user mode at 0x1000 with all 128 registers. Virtual page 0 maps creel SRAM, page 1 the first 64 KiB
of the DRAM slice, page 2 the system area, and the global windows of creels 0 and 1 are mapped. -/

def tLocal (page frame : Nat) : Tlb := ⟨0, false, 0, page, 16, frame, 0, true, false, true, true, true, true⟩
def tGlobal (page frame : Nat) : Tlb := ⟨0, true, 0, page, 16, frame, 0, true, false, true, true, true, true⟩
def tSlot : Slot := { Slot.idle with busy := true, limit := 128, weave := 1, pc := 0x1000 }
def tWeave : Weave := { Weave.firmware 0 with ctx := true, cstate := .run, fetchPc := 0x1004 }
def tCore : Core := { Core.initial with
  tlb := [tLocal 0 0, tLocal 1 0x40000000, tLocal 2 0xBF0000, tGlobal 0 0, tGlobal (2 ^ 29) (2 ^ 45)] }
def tState : State := { State.reset with
  slots := [(0, tSlot)], running := [0], turnq := [0], weaves := [(1, tWeave)], cores := [(0, tCore)] }

/-- With values in some of its registers, and with a slot that differs. -/
def tX (l : List (Nat × Nat)) : State :=
  { tState with regs := l.foldl (fun m x => mapPut m x.1 ⟨BitVec.ofNat 64 x.2, true, false, 0⟩) [] }
def tWith (f : Slot → Slot) (l : List (Nat × Nat)) : State := { tX l with slots := [(0, f tSlot)] }
def tAtt (sl : Slot) : Slot := { sl with member := .attached, queue := [⟨0x1000, 0, 0, none, 0, some 0x1010⟩, ⟨0x1004, 0x04514120, 0, none, 0, none⟩] }
def tSup (sl : Slot) : Slot := { sl with mode := true }

def tPair (a b : Slot → Slot) (w : Weave) : State :=
  { tState with slots := [(0, a (tAtt tSlot)), (16, b (tAtt tSlot))], running := [0, 16], weaves := [(1, { w with width := 2, cores := [0, 1] })] }
/-- The words of the line at 0x1000 of creel 0, as an instruction cache holds them. -/
def tLines : List Nat := (List.range 8).map (512 + ·)

/-! ### Hypotheses that are met -/

/-- Every register passes, the highest of the window too; a source and a destination may agree. -/
theorem wit_AluResults : Issues tState [10, 11, 127] [10, 11, 127] ∧ Issues tState [0, 0, 0] [0, 0, 0] := by
  unfold Issues; decide +kernel
theorem wit_MulDivResults : Issues (tX [(11, 2 ^ 63), (12, 2 ^ 64 - 1)]) [10, 11, 12] [10, 11, 12] ∧ Issues tState [10, 11, 12] [11, 12] := by
  unfold Issues; decide +kernel
theorem wit_BitResults : Issues (tX [(12, 0x3F3F)]) [10, 11, 12] [10, 11, 12] ∧ Issues tState [10, 11] [11] ∧
    (0x0C0A2000#32).toNat / 2 ^ 26 = 3 ∧ decodeTableWord 32 0x0C50B000 = some (.clz 10 11) := by
  unfold Issues; decide +kernel
/-- MKG at both sides of its bound. -/
theorem wit_ImmediateResults : Issues (tX [(11, 2 ^ 45)]) [10, 11] [11] ∧ 2 ^ 45 ≤ ((tX [(11, 2 ^ 45)]).x 11).toNat ∧
    Issues (tX [(11, 2 ^ 45 - 1)]) [10, 11] [11] ∧ ((tX [(11, 2 ^ 45 - 1)]).x 11).toNat < 2 ^ 45 ∧ Issues tState [10, 11, 12] [11, 12] := by
  unfold Issues; decide +kernel
theorem wit_LongResults : Issues tState [127] [] ∧ Issues tState [127] [127] := by
  unfold Issues; decide +kernel
/-- A branch forward, one to an address below 0, and one that is not taken. -/
theorem wit_BranchResults : Issues tState [10, 11] [10, 11] ∧ tState.me.member ≠ .attached ∧ tState.x 10 = tState.x 11 ∧
    (0 : Int) ≤ tState.me.pc + 4 * (0x7FF#12).toInt ∧ (tState.me.pc : Int) + 4 * (0x800#12).toInt < 0 ∧
    ¬tState.x 10 ≠ tState.x 11 := by
  unfold Issues; decide +kernel
theorem wit_AttachedBranch : (let s := tWith tAtt [(12, 0x1010), (13, 0x2000)]
    Issues s [10, 11] [10, 11] ∧ s.me.member = .attached ∧ (∃ e q, s.me.queue = e :: q ∧ e.resolved = some 0x1010) ∧
      (s.me.pc : Int) + 4 * (4#12).toInt = 0x1010 ∧ Issues s [10, 12] [12] ∧ (s.x 12).toNat % 4 = 0 ∧ (s.x 12).toNat < 2 ^ 47 ∧
      (s.x 13).toNat ≠ 0x1010 ∧ ∀ m ∈ s.liveMembers s.me.weave, waitIsVote (s.slot m).wait = false) :=
  ⟨by unfold Issues; decide +kernel, rfl, ⟨_, _, rfl, rfl⟩, by decide +kernel, by unfold Issues; decide +kernel, by decide +kernel,
    by decide +kernel, by decide +kernel, by decide +kernel⟩
/-- The pilot at its own branch, beside a member that waits there for the same address, for another, and one that holds the branch in its queue. -/
theorem wit_AttachedBranch_pilot : ∀ f ∈ [Wait.branch 0x1010, .branch 0x1004, .none], (let q : List QEntry := [⟨0x1000, 0x40000004, 0, none, 0, none⟩]
    let s := { tPair ({ · with queue := q }) ({ · with wait := f, queue := q }) { tWeave with cstate := .branch } with regs := [] }
    Issues s [10, 11] [10, 11] ∧ s.me.member = .attached ∧ s.me.queue = q ∧ (s.me.pc : Int) + 4 * (4#12).toInt = 0x1010 ∧
      (∃ w, mapFind s.weaves s.me.weave = some w ∧ w.ctx = true ∧ w.cstate = .branch) ∧ s.attachedMembers s.me.weave = [0, 16] ∧
      (s.slot 16).wait = f) := by
  intro f h
  refine ⟨?_, rfl, rfl, rfl, ⟨_, rfl, rfl, rfl⟩, ?_, rfl⟩
  · unfold Issues; revert f; decide +kernel
  · revert f; decide +kernel
/-- A member that is not the pilot, at an unresolved branch and at a JALR. -/
theorem wit_AttachedBranch_waits : (let q : List QEntry := [⟨0x1000, 0x40000004, 0, none, 0, none⟩]
    let s := { tPair ({ · with queue := q }) ({ · with queue := q }) { tWeave with cstate := .branch } with regs := [], cur := 16 }
    Issues s [10, 11] [10, 11] ∧ s.me.member = .attached ∧ s.me.queue = q ∧ (s.me.pc : Int) + 4 * (4#12).toInt = 0x1010 ∧
      (∃ w, mapFind s.weaves s.me.weave = some w ∧ w.ctx = true ∧ w.cstate = .branch) ∧ s.attachedMembers s.me.weave = [0, 16] ∧
      (∀ n', (s.slot 0).wait ≠ .branch n') ∧ Issues s [10, 11] [11] ∧ (s.x 11 + BitVec.ofInt 64 (4#12).toInt).toNat = 4) := by
  refine ⟨by unfold Issues; decide +kernel, rfl, rfl, rfl, ⟨_, rfl, rfl, rfl⟩, by decide +kernel, fun n' h => (by cases h),
    by unfold Issues; decide +kernel, by decide +kernel⟩
/-- Targets of J in and out of range; JALR misaligned, too high and good. -/
theorem wit_JumpResults : (let s := tX [(11, 0x2002), (12, 2 ^ 47), (13, 2 ^ 47 - 4)]
    (s.me.pc : Int) + 4 * (0x2000000#26).toInt < 0 ∧ 0 ≤ (s.me.pc : Int) + 4 * (0x1FFFFFF#26).toInt ∧ Issues s [1, 11] [11] ∧
      (s.x 11).toNat % 4 ≠ 0 ∧ 2 ^ 47 ≤ (s.x 12).toNat ∧ (s.x 12).toNat % 4 = 0 ∧ (s.x 13).toNat < 2 ^ 47 ∧ (s.x 13).toNat % 4 = 0 ∧
      s.me.member ≠ .attached) := by
  unfold Issues; decide +kernel
/-- The last word of a frame with passes left and without, and a word before it. -/
theorem wit_PlaceInProgram : (let c : Coil := ⟨[0, 0], 4, 1, 1, 0, 3, 1, 0x1004, false⟩
    ({ tSlot with coil := some c }).coil = some c ∧ tSlot.member ≠ .attached ∧ tSlot.coil = none ∧ c.words.length ≤ c.i + 1 ∧
      c.reps ≤ c.k + 1 ∧ { c with k := 2 }.k + 1 < c.reps ∧ { c with i := 0 }.i + 1 < c.words.length) := by
  decide +kernel

/-! #### Weaves and frames -/

theorem wit_WeaveForms : (tWith ({ · with member := .left }) []).me.member = .left ∧ Quiet tState ∧ tState.me.member = .strand ∧
    (tWith tAtt []).me.member = .attached ∧ Issues (tWith tAtt []) [10] [] ∧ Issues tState [10] [] := by
  unfold Issues Quiet; decide +kernel
/-- A strand, and an attached member, beside an attached member that has not issued the JOIN; and the last live member of a weave. -/
theorem wit_JoinResults : (let s := tPair (fun sl => { sl with member := .strand, queue := [] }) id { tWeave with cstate := .hold 0x2000 }
    Quiet s ∧ (∃ w, mapFind s.weaves s.me.weave = some w ∧ w.ctx = true ∧ w.cstate = .hold 0x2000) ∧ 16 ∈ s.attachedMembers s.me.weave ∧
      (∀ v, waitJoin (s.slot 16).wait ≠ some v) ∧ (∀ f e v, (s.slot 16).wait ≠ .vote f e v) ∧ s.me.member = .strand) ∧
    (tPair id id { tWeave with cstate := .hold 0x1000 }).me.member = .attached ∧
    (let s := { tWith tAtt [] with weaves := [(1, { tWeave with cstate := .hold 0x1000 })] }
     Quiet s ∧ (∃ w, mapFind s.weaves s.me.weave = some w ∧ w.ctx = true ∧ w.cstate = .hold s.me.pc) ∧ s.me.member = .attached ∧
       s.liveMembers s.me.weave = [s.cur]) := by
  refine ⟨⟨by unfold Quiet; decide +kernel, ⟨_, rfl, rfl, rfl⟩, by decide +kernel, ?_, ?_, rfl⟩, rfl, by unfold Quiet; decide +kernel, ⟨_, rfl, rfl, rfl⟩,
    rfl, by decide +kernel⟩
  · intro v h; cases h
  · intro f e v h; cases h
/-- The last member at a JOIN, beside one that is LEFT, one that waits there attached, and one in JWAIT there. -/
theorem wit_JoinResults_members : ∀ f ∈ [fun sl : Slot => { sl with member := .left }, ({ · with wait := .join 0x1000 9 }),
      ({ · with member := .jwait 0x1000, wait := .join 0x1000 9 })], (let s := tPair id f { tWeave with cstate := .hold 0x1000 }
    (∀ a ∈ s.accesses, a.slot ≠ s.cur) ∧ s.me.member = .attached ∧ s.liveMembers s.me.weave = [0, 16] ∧
      ((s.slot 16).member = .left ∨ (s.slot 16).member = .attached ∧ waitJoin (s.slot 16).wait = some s.me.pc ∨
        memberJwait (s.slot 16).member = some s.me.pc)) := by
  decide +kernel
/-- A strand at a JOIN of a weave whose context runs, or waits at a branch, for another member. -/
theorem wit_JoinResults_running : ∀ c ∈ [CtxState.run, .branch], (let s := tPair (fun sl => { sl with member := .strand, queue := [] }) id { tWeave with cstate := c }
    Quiet s ∧ (∃ w, mapFind s.weaves s.me.weave = some w ∧ w.ctx = true ∧ w.cstate = c) ∧ s.me.member = .strand ∧
      s.attachedMembers s.me.weave = [16] ∧ (s.slot 16).wait = .none) := by
  intro c h
  refine ⟨?_, ⟨_, rfl, rfl, rfl⟩, rfl, ?_, rfl⟩
  · unfold Quiet; revert c; decide +kernel
  · revert c; decide +kernel
/-- A weave without attached members, with a context and without one, which another weave may have taken: beside a strand, a member that has left, and one
in JWAIT at the same JOIN. -/
theorem wit_JoinResults_strands : ∀ x ∈ [true, false], ∀ y ∈ [[], [(2, tWeave)]], ∀ m ∈ [MemberState.strand, .left, .jwait 0x1000],
    (let f := fun sl : Slot => { sl with member := .strand, queue := [] }
     let s := tPair f (fun sl => { f sl with member := m }) { tWeave with ctx := x }
     let s := { s with weaves := s.weaves ++ y }
     Quiet s ∧ (mapFind s.weaves s.me.weave).map (·.ctx) = some x ∧ s.attachedMembers s.me.weave = [] ∧ s.me.member = .strand ∧
       s.liveMembers s.me.weave = [0, 16] ∧ (s.slot 16).member = m ∧ (s.ctxTaken tWeave.lin tWeave.idx s.me.weave = true ↔ y ≠ [])) := by
  unfold Quiet; decide +kernel
/-- A strand that comes last to the JOIN at which its attached partner waits. -/
theorem wit_JoinResults_last : (let s := tPair (fun sl => { sl with member := .strand, queue := [] }) ({ · with wait := .join 0x1000 9 }) { tWeave with cstate := .hold 0x1000 }
    s.me.member = .strand ∧ s.attachedMembers s.me.weave = [16] ∧ s.cur ∈ s.liveMembers s.me.weave ∧ waitJoin (s.slot 16).wait = some s.me.pc) := by
  decide +kernel
theorem wit_VoteResults : Issues tState [10, 11] [11] ∧ Quiet tState ∧ tState.me.member ≠ .attached ∧
    ∀ fn ∈ [4, 5, 6, 7], (let s := tPair id ({ · with wait := .vote fn 10 5 }) tWeave
      Issues s [10, 11] [11] ∧ Quiet s ∧ s.attachedMembers s.me.weave = [0, 16] ∧ (s.slot 16).wait = .vote fn 10 5 ∧
        s.entryOf 16 10 ≠ s.entryOf s.cur 10) := by
  unfold Issues Quiet; decide +kernel
/-- The spec's example (R55): the frame of COIL 1, 4, 1, 1, 0 is ADD x10, x20, x9, at its last pass too. -/
theorem wit_CoilForms : (let s := tWith tAtt []
    s.me.coil = none ∧ s.me.member = .attached ∧ queueFrame [1, 1, 0] 4 1 s.me.queue.tail = .words [0x04514120] ∧
      frameFields 0x40000000 = none) ∧
    (let s := tWith (fun sl => { sl with coil := some ⟨[0x04514120], 4, 1, 1, 0, 3, 0, 0x1004, false⟩ }) []
     (∃ c, s.me.coil = some c ∧ c.suspended = false ∧ nth c.words c.i = some (wordRRR 0x04000000 10 20 9 0x00) ∧ 10 + c.k * c.sd < 128 ∧
       20 + c.k * c.sa < 128) ∧ s.me.wait.boundary = true ∧ Issues s [13, 23, 9] [23, 9]) := by
  refine ⟨⟨rfl, rfl, rfl, rfl⟩, ⟨_, rfl, ?_⟩, rfl, by unfold Issues; decide +kernel⟩
  decide +kernel
/-- Frame words of an attached member: FENCE, which has no class, and a queue that lacks the frame's second word. -/
theorem wit_CoilForms_queue : (let e : QEntry := ⟨0x1004, 0xA0000000, 0, none, 0, none⟩
    let s := tWith (fun sl => { tAtt sl with queue := [⟨0x1000, 0, 0, none, 0, none⟩, e] }) []
    s.me.coil = none ∧ s.me.member = .attached ∧ s.me.queue.tail = [e] ++ [] ∧ [e].length = (0#4).toNat + 1 ∧
      e.fault = none ∧ endsFrame e.addr e.word = false ∧ isLongMajor e.word = false ∧ [e].head? = some e ∧ frameFields e.word = none ∧
      s.me.queue.tail.length < (1#4).toNat + 1) := by
  decide +kernel
/-- A frame whose first word is a branch, and one whose first word could not be fetched. -/
theorem wit_CoilForms_ends : endsFrame 0x1004 0x40000000 = true ∧ frameFields 0x40000000 = none ∧
    (let e : QEntry := ⟨0x1004, 0, 0, some ⟨0x05, 0x1004, false⟩, 0, none⟩
     let s := tWith (fun sl => { tAtt sl with queue := [⟨0x1000, 0, 0, none, 0, none⟩, e] }) []
     s.me.coil = none ∧ s.me.member = .attached ∧ s.me.queue.tail = [e] ∧ (⟨0x05, 0x1004, false⟩ : Trap).val.toNat ≠ e.addr + 4) := by
  decide +kernel
/-- A strand's frame, read from the strand instruction cache. -/
def tFrame : State := { tState with cores := [(0, { tCore with icache := tLines })] }.writeAs 1 (strandLoc 0 0x1004) (natBytes 0x04514120 4)
theorem wit_CoilForms_strand : (let s := tFrame
    s.me.coil = none ∧ s.me.member ≠ .attached ∧ ((s.strandFrame s.cur [1, 1, 0] 4 1 (s.me.pc + 4)).2 = .words [0x04514120]) ∧
      (s.strandFrame s.cur [1, 1, 0] 4 1 (s.me.pc + 4)).1 = s) :=
  ⟨rfl, by decide +kernel, rfl, rfl⟩

/-! #### Memory -/

def tPlace (gpa : Nat) : Place := ⟨gpa, none, true, 0, false, 16⟩
/-- A place that the global window reaches. -/
def tWindow (gpa : Nat) : Place := ⟨gpa, none, true, 0, true, 16⟩
def tFe (gpa : Nat) : State := { tX [(11, gpa)] with empties := [gpa / 8] }

/-- A byte and a doubleword of creel SRAM, and the doubleword below the highest address that slots may use. -/
theorem wit_LoadResults : ∀ va ∈ [0x200, 0xFFF8], (let s := tX [(11, va)]
    Issues s [10, 11] [11] ∧ s.checkLocal s.cur (operandAddr s 11 0 8) 8 8 .read false = (s, .ok (tPlace va)) ∧
      Clean s (s.dataLoc va none) 8 ∧ Alone s va 8) ∧ AtHand (tX []) (tPlace va) := by
  unfold Issues Clean Alone AtHand
  intro va h
  refine ⟨?_, fun c hc => by cases hc⟩
  revert va; decide +kernel
theorem wit_StoreResults : (let s := tX [(10, 7), (11, 0x200)]
    Quiet s ∧ Alone s 0x200 8 ∧ Issues s [10, 11] [10, 11] ∧ s.checkLocal s.cur (operandAddr s 11 0 8) 8 8 .write false = (s, .ok (tPlace 0x200)) ∧
      Memory.wf s.mem = true ∧ Clean s (0x200 / 128 * 128) 256 ∧ NoBarrierWait s 0x200 8) ∧ AtHand (tX []) (tPlace 0x200) := by
  unfold Issues Quiet Clean Alone NoBarrierWait AtHand
  exact ⟨by decide +kernel, fun c hc => by cases hc⟩
/-- Each row of R165 in turn: an address of 2^47, a misaligned one, one that no buffer knows, a page of the DRAM slice whose mask is empty, a page
that may not be read or written, a page of the DRAM slice for a form of creel SRAM, the system area, and a granule that another slot has locked. -/
theorem wit_AccessChecks : (let s := tX [(11, 2 ^ 47), (12, 0x201), (13, 0x50000)]
    Issues s [10, 11] [11] ∧ Issues s [10, 11] [10, 11] ∧ 2 ^ 47 ≤ operandAddr s 11 0 8 ∧ operandAddr s 12 0 8 % 8 ≠ 0 ∧
      operandAddr s 13 0 8 % 8 = 0 ∧ (s.xlate s.cur false (operandAddr s 13 0 8)).2 = none) := by
  unfold Issues; decide +kernel
def tPages : State := { tX [] with
  cores := [(0, { tCore with tlb := [tLocal 1 0x40000000, tLocal 2 0xBF0000, { tLocal 3 0 with w := false, rd := false }, tLocal 0 0] })]
  slots := [(0, tSlot), (1, { tSlot with slock := true, sbase := 1, sbound := 2 })] }
theorem wit_AccessChecks_rows : (let s := tPages
    let lpa := fun (e : Tlb) (va : Nat) => (e.phys 0 va).gpa % 2 ^ 45
    let e := tLocal 1 0x40000000
    s.xlate s.cur false 0x10000 = (s, some e) ∧ isDram (lpa e 0x10000) = true ∧ s.homeOf 0 e.hk e.home (lpa e 0x10000) = none ∧ e.global = false ∧
      (let s := { s with creels := [(0, { Creel.initial with hmask := [(0, 1)] })] }
       s.xlate s.cur false 0x10000 = (s, some e) ∧ s.homeOf 0 e.hk e.home (lpa e 0x10000) = some 0 ∧ e.rd = true ∧ e.w = true ∧ e.u = true) ∧
    (let e := tLocal 2 0xBF0000; s.xlate s.cur false 0x20000 = (s, some e) ∧ isSystemArea (lpa e 0x20000) = true ∧ isDram (lpa e 0x20000) = false) ∧
    (let e := { tLocal 3 0 with w := false, rd := false }; s.xlate s.cur false 0x30000 = (s, some e) ∧ e.rd = false ∧ e.w = false) ∧
    (let e := tLocal 0 0; s.xlate s.cur false 0x1000 = (s, some e) ∧ isSram (lpa e 0x1000) = true ∧ isSystemArea (lpa e 0x1000) = false ∧
      s.lockedElsewhere 0 (lpa e 0x1000 / 4096) s.cur = true)) := by
  decide +kernel
theorem wit_RelaxedAccess : (let s := tX [(11, 0x200)]
    s.relaxedOut s.cur < 8 ∧ Issues s [10, 11] [10, 11] ∧ Issues s [10, 11, 12] [11, 12] ∧ Alone s 0x200 8 ∧
      (∀ n ∈ [Need.read, .write], s.checkLocal s.cur (operandAddr s 11 0 8) 8 8 n false = (s, .ok (tPlace 0x200))) ∧
      s.checkLocal s.cur (s.x 11).toNat 8 8 .both false = (s, .ok (tPlace 0x200))) := by
  unfold Issues Alone; decide +kernel
theorem wit_AtomicResults : ∀ n ∈ [4, 8], (let s := tX [(11, 0x200)]
    s.checkLocal s.cur (s.x 11).toNat n n .both false = (s, .ok (tPlace 0x200)) ∧ Memory.wf s.mem = true ∧ AtHand s (tPlace 0x200) ∧
      Clean s (0x200 / 128 * 128) 256 ∧ Alone s 0x200 n ∧ NoBarrierWait s 0x200 n ∧ Issues s [10, 11, 12] [10, 11, 12]) := by
  intro n h
  refine ⟨?_, rfl, ?_, ?_, ?_, ?_, ?_⟩
  · revert n; decide +kernel
  · intro c hc; cases hc
  · unfold Clean; decide +kernel
  · intro a ha; cases ha
  · intro b hb; cases hb
  · unfold Issues; decide +kernel
/-- A full word and an empty one, for the forms that go on and those that wait. -/
theorem wit_LsyncForms : (let s := tX [(11, 0x200)]
    Memory.wf s.mem = true ∧ Rising s.empties ∧ Clean s (0x200 / 128 * 128) 256 ∧ Quiet s ∧ NoBarrierWait s 0x200 8 ∧
      (∀ l ∈ (s.creel (linOf 0x200)).lwaits, l.gpa / 8 ≠ 0x200 / 8) ∧ Issues s [10, 11] [10, 11] ∧ s.fe 0x200 = true ∧
      ∀ n ∈ [Need.read, .write, .both], s.checkLocal s.cur (operandAddr s 11 0 8) 8 8 n true = (s, .ok (tPlace 0x200))) ∧
    (let s := tFe 0x200
     Rising s.empties ∧ s.fe 0x200 = false ∧ Issues s [10, 11] [10, 11] ∧
       ∀ n ∈ [Need.read, .both], s.checkLocal s.cur (operandAddr s 11 0 8) 8 8 n true = (s, .ok (tPlace 0x200))) := by
  unfold Issues Quiet Clean NoBarrierWait Rising
  dsimp only
  and_intros <;> decide +kernel
/-- A GLD of the executing creel's window, and one of creel 1. -/
theorem wit_GldForms : (let s := tX [(11, 0x200), (12, 2 ^ 45 + 0x200)]
    Issues s [10, 11] [11] ∧ operandAddr s 11 0 8 % 8 = 0 ∧ s.xlate s.cur true (operandAddr s 11 0 8) = (s, some (tGlobal 0 0)) ∧
      linOf ((tGlobal 0 0).phys 0 0x200).gpa = 0 ∧ s.checkPlace s.cur 0x200 8 .read false (tGlobal 0 0) = .ok (tWindow 0x200) ∧
      Clean s (s.dataLoc 0x200 none) 8 ∧ Alone s 0x200 8 ∧ Issues s [10, 12] [12] ∧
      s.xlate s.cur true (operandAddr s 12 0 8) = (s, some (tGlobal (2 ^ 29) (2 ^ 45))) ∧
      linOf ((tGlobal (2 ^ 29) (2 ^ 45)).phys 0 (2 ^ 45 + 0x200)).gpa = 1 ∧ permitted (tGlobal (2 ^ 29) (2 ^ 45)) .read s.me.mode = true ∧
      s.isLost 0 0 = false ∧ s.budgetOpen 0 0 = true) ∧ AtHand (tX []) (tWindow 0x200) := by
  unfold Issues Clean Alone AtHand
  refine ⟨?_, fun c hc => by cases hc⟩
  dsimp only
  and_intros <;> decide +kernel

/-! #### Barriers, messages, fences -/

/-- An object at 0x200 with the words w0 and w1. -/
def tBar (w0 w1 x : Nat) : State := (tX [(11, 0x200), (12, x)]).writeAs 1 0x200 (natBytes w0 8 ++ natBytes w1 8)

/-- The counts 0, 1, 4,095 and 4,096. -/
theorem wit_BariResults : ∀ e ∈ [0, 1, 4095, 4096], (let s := tX [(11, 0x200), (12, e)]
    Issues s [11, 12] [11, 12] ∧ Quiet s ∧ s.checkLocal s.cur (s.x 11).toNat 16 16 .both true = (s, .ok (tPlace 0x200)) ∧
      Memory.wf s.mem = true ∧ NoBarrierWait s 0x200 16) := by
  unfold Issues Quiet NoBarrierWait; decide +kernel
/-- Objects of E = 4, or 0, with the phase operand x = 16 k + q: no E, a phase behind, too many, a phase 4 ahead, an arrival, the last arrival. -/
theorem wit_BaraResults : ∀ c ∈ [(0, 0x10), (4, 0x18), (4, 0x50), (4, 0x14), (4, 0x10), (4, 0x40)], (let s := tBar c.1 0 c.2
    let w0 := s.readAs (s.slotKey s.cur) 0x200 8
    Issues s [10, 11, 12] [11, 12] ∧ Quiet s ∧ s.checkLocal s.cur (s.x 11).toNat 16 16 .both true = (s, .ok (tPlace 0x200)) ∧
      Memory.wf s.mem = true ∧ Clean s (0x200 / 128 * 128) 256 ∧ (∀ w ∈ (s.creel (s.cur / 512)).bwaits, w.gpa ≠ 0x200) ∧ w0 = c.1) := by
  unfold Issues Quiet Clean; decide +kernel
/-- An arrival that ends two phases at once; with a parked wait for phase 0 and a parked arrival for phase 4 of slot 1. -/
theorem wit_BaraResults_phases : (let s := tBar (4 + 3 * 2 ^ 12 + 4 * 2 ^ 28) 2 0x10
    let w0 := s.readAs (s.slotKey s.cur) 0x200 8
    w0 % 2 ^ 12 = 4 ∧ w0 / 2 ^ 12 % 2 ^ 12 + 1 = 4 ∧ w0 / 2 ^ 28 % 2 ^ 12 = 4 ∧ w0 / 2 ^ 40 % 2 ^ 12 ≠ 4 ∧ w0 / 2 ^ 24 % 16 = 0) ∧
    ∀ w ∈ [(⟨1, false, 0x200, 0x200, 16, 0, 0, 20⟩ : BWait), ⟨1, true, 0x200, 0x200, 16, 4, 1, 20⟩],
      (let s := { tBar (4 + 3 * 2 ^ 12) (2 ^ 50) 0x10 with
         creels := [(0, { Creel.initial with bwaits := [w] })], slots := [(0, tSlot), (1, { tSlot with base := 128, limit := 256 })] }
       (s.creel 0).bwaits = [w] ∧ w.gpa = 0x200 ∧ w.slot ≠ s.cur ∧ s.slotKey w.slot = s.slotKey s.cur ∧ s.entryOf w.slot w.reg ≠ s.entryOf s.cur 10 ∧
         Issues s [10, 11, 12] [11, 12] ∧ Quiet s ∧ Clean s (0x200 / 128 * 128) 256) := by
  unfold Issues Quiet Clean; decide +kernel
/-- Phase 8 has completed when the object is at phase 0, and phase 0 has not. -/
theorem wit_BarWaitResults : ∀ x ∈ [8, 0], (let s := tBar 4 0 x
    Issues s [10, 11, 12] [11, 12] ∧ s.checkLocal s.cur (s.x 11).toNat 16 16 .both true = (s, .ok (tPlace 0x200)) ∧ Clean s 0x200 16) := by
  unfold Issues Clean; decide +kernel
/-- A target slot 1 that is idle, one of another world, register 0, and register 12. -/
theorem wit_PutxResults : (let s := tX [(11, 0xC1)]
    Issues s [10, 11, 12] [11, 12] ∧ (s.slot 1).busy = false ∧ (s.slot 1).idleAt ≠ s.cycle + 1) ∧
    (let s := { tX [(11, 0xC1), (13, 1)] with slots := [(0, tSlot), (1, tSlot)] }
     Issues s [10, 11, 12] [11, 12] ∧ (s.slot 1).busy = true ∧ (s.slot 1).world = s.me.world ∧ (s.slot 1).asid = s.me.asid ∧
       (s.x 11).toNat / 16 % 128 = 12 ∧ 12 < (s.slot 1).limit ∧ (s.x 13).toNat / 16 % 128 = 0) ∧
    ({ tX [] with slots := [(0, tSlot), (1, { tSlot with world := 3 })] } : State).me.world ≠ 3 := by
  unfold Issues; decide +kernel
theorem wit_MessageLands : (let p : Putx := ⟨1, 0, 1, 12, 5, 0⟩
    let s := { tState with putxs := [p] }
    s.putxs = [p] ∧ p.due ≤ s.cycle ∧ (s.slot p.slot).busy = true ∧ (s.slot p.slot).weave = p.weave) ∧
    (tState.slot 3).busy = false ∧ Issues tState [10, 11] [11] ∧ Issues tState [0, 11] [11] := by
  unfold Issues; decide +kernel
/-- Window sizes 0, 1, 16 and 17, a misaligned entry, a target that is busy or not admitted, no room, and a start. -/
theorem wit_SpawnResults : (let s := { tWith ({ · with limit := 32 }) [(10, 0x1), (11, 0x11), (12, 0x101), (13, 0x111), (14, 0x3001), (15, 0x3000)] with
      cores := [(0, { tCore with slotTable := [(1, 0x8000)] })] }
    Quiet s ∧ Issues s [20, 10, 14] [10, 14] ∧ (s.x 10).toNat / 16 % 32 = 0 ∧ (s.x 11).toNat / 16 % 32 = 1 ∧ (s.x 12).toNat / 16 % 32 = 16 ∧
      (s.x 13).toNat / 16 % 32 = 17 ∧ (s.x 14).toNat % 4 ≠ 0 ∧ (s.x 15).toNat % 4 = 0 ∧ (s.slot 1).busy = false ∧
      (s.slot 1).idleAt ≠ s.cycle + 1 ∧ (s.core 0).slotEntry 1 / 2 ^ 15 % 2 = 1 ∧ (s.core 0).slotEntry 1 / 2 ^ 9 % 2 ^ 6 = s.me.world.toNat ∧
      (s.core 0).slotEntry 1 % 2 ^ 9 = s.me.asid.toNat ∧ s.freeRun 0 8 = some 32 ∧ s.me.busy = true) ∧
    tState.freeRun 0 (8 * 16) = some 128 ∧ (tWith ({ · with limit := 2048 }) []).freeRun 0 8 = none ∧
    ({ tState with slots := [(0, tSlot), (1, tSlot)] } : State).slot 1 = tSlot := by
  unfold Issues Quiet; decide +kernel
theorem wit_FenceResults : NoFault tState ∧ Quiet tState ∧ tState.enginesOut tState.cur = false ∧ tState.me.failures = [] ∧
    (tWith ({ · with failures := [⟨0x10000, 0x10, 0x1000⟩] }) []).me.failures = [⟨0x10000, 0x10, 0x1000⟩] ∧ tState.me.member ≠ .attached ∧
    (∃ a ∈ ({ tState with accesses := [⟨1, 0, .load 6, [], 10, 10, true, false, 5, 0, false, 0, 0, false, 0x1000, 0⟩] } : State).accesses, a.slot = 0) ∧
    (tWith ({ · with rfaults := [(10, 0x200)] }) []).me.rfaults = (10, 0x200) :: [] := by
  unfold NoFault Quiet; decide +kernel

/-- FENCE.I of an attached member, a pilot or not, whose next word is resolved to the next address, to another, and not yet; and several failures. -/
theorem wit_FenceResults_attached : ∀ r ∈ [some 0x1004, some 0x2000, none], ∀ m ∈ [0, 16],
    (let q : List QEntry := [⟨0x1000, 0xA0000002, 0, none, 0, r⟩]
     let s := { tPair ({ · with queue := q }) ({ · with queue := q }) { tWeave with cstate := .branch } with cur := m }
     NoFault s ∧ Quiet s ∧ s.me.member = .attached ∧ s.me.queue = q ∧ s.me.pc = 0x1000 ∧
       (mapFind s.weaves s.me.weave).map (fun w => (w.ctx, w.cstate)) = some (true, .branch) ∧ s.attachedMembers s.me.weave = [0, 16] ∧
       (s.slot 0).wait = .none) := by
  unfold NoFault Quiet; decide +kernel
theorem wit_FenceResults_failures : (let fs : List Failure := [⟨0x21000, 0x10, 0x1000⟩, ⟨0x12000, 0x11, 0x1004⟩]
    let s := tWith ({ · with failures := fs }) []
    NoFault s ∧ Quiet s ∧ s.me.failures = fs ∧ s.enginesOut s.cur = false ∧
      ∃ f ∈ fs, ∀ g ∈ fs, g ≠ f → f.ticket < g.ticket) := by
  unfold NoFault Quiet; decide +kernel

/-! #### Vectors -/

/-- A machine and a result, as a check that the kernel evaluates. -/
def tIs {ε α : Type} [DecidableEq α] (x : State × Except ε α) (s : State) (a : α) : Bool :=
  decide (x.1 = s) && match x.2 with
    | .ok b => decide (b = a)
    | .error _ => false
theorem tEq {ε α : Type} [DecidableEq α] {x : State × Except ε α} {s : State} {a : α} (h : tIs x s a = true) : x = (s, .ok a) := by
  obtain ⟨s', r⟩ := x
  cases r with
  | error e => simp [tIs] at h
  | ok b => simp only [tIs, Bool.and_eq_true, decide_eq_true_eq] at h; rw [h.1, h.2]
def tErr {ε α : Type} [DecidableEq ε] (x : State × Except ε α) (s : State) (e : ε) : Bool :=
  decide (x.1 = s) && match x.2 with
    | .ok _ => false
    | .error f => decide (f = e)
theorem tEqErr {ε α : Type} [DecidableEq ε] {x : State × Except ε α} {s : State} {e : ε} (h : tErr x s e = true) : x = (s, .error e) := by
  obtain ⟨s', r⟩ := x
  cases r with
  | ok b => simp [tErr] at h
  | error f => simp only [tErr, Bool.and_eq_true, decide_eq_true_eq] at h; rw [h.1, h.2]

theorem wit_VfpResults : (2#4).toNat < 3 ∧ (0#4).toNat < 3 := by decide
theorem wit_VintResults : ∀ y ∈ [3#4, 4#4, 5#4], y = 3 ∨ y = 4 ∨ y = 5 := by decide
/-- FC holds an 8-bit code that is no table; FB a table that the slot has claimed; FA an invalid code. -/
theorem wit_VcvtResults : (let sl := (tWith (fun sl => { sl with fa := 0xFF, fb := 0x10, fc := 4, mcfg := 0x6000203060 }) []).me
    sl.codeOk 0 = false ∧ sl.codeOk 1 = true ∧ sl.codeOk 2 = true ∧ 3 < 32 / 8 ∧ (2#3).toNat < 3 ∧ (1#3) ≠ (2#3)) := by
  decide +kernel
/-- Both types of elements, and a reduction without an active lane: m1 is zero, and m0 selects every lane. -/
theorem wit_VpermResults : Issues tState [10] [10] ∧ Issues tState [10] [] ∧ (5#3).toNat < 6 ∧ 3 ≤ (3#3).toNat ∧ (2#3).toNat < 3 ∧
    ((List.range 128).filter fun i => (tState.me.m 1).getLsbD i) = [] ∧ ((List.range 128).filter fun i => (tState.me.m 0).getLsbD i) ≠ [] := by
  unfold Issues; decide +kernel
/-- Mask m1 selects lanes 0 and 127. A row that lies in creel SRAM, and one that begins at an address of 2^47. -/
def tVec (l : List (Nat × Nat)) : State := tWith (fun sl => { sl with masks := [(1, 2 ^ 127 + 1)] }) l
theorem wit_VectorAccess : (let s := tVec [(11, 0x400)]
    Steady s ∧ Quiet s ∧ Issues s [11] [11] ∧ (List.range 128).filter (fun i => (s.me.m 1).getLsbD i) = [0, 127] ∧
      (∀ n ∈ [Need.read, .write], s.checkLanes n [(0, 0x400), (127, 0x5FC)] = (s, .ok [(0, 0x400, tPlace 0x400), (127, 0x5FC, tPlace 0x5FC)])) ∧
      (∀ g ∈ [0x400, 0x5FC], Clean s (g / 128 * 128) 128 ∧ NoBarrierWait s g 4 ∧ g % 4 = 0) ∧ Memory.wf s.mem = true ∧ Rising s.bad ∧
      AtHand s (tPlace 0x400)) := by
  unfold Steady Quiet Issues Clean NoBarrierWait Rising AtHand
  dsimp only
  and_intros
  any_goals decide +kernel
  all_goals
    intro n h
    exact tEq (by revert n; decide +kernel)
theorem wit_VectorAccess_refused : (let s := tVec [(11, 2 ^ 47)]
    ∀ n ∈ [Need.read, .write], s.checkLanes n [(0, 2 ^ 47)] = (s, .error (.trap ⟨0x05, 2 ^ 47, false⟩))) := by
  intro s n h
  exact tEqErr (by revert n; decide +kernel)
/-- A row in a page that no translation buffer knows: the lanes miss. -/
theorem wit_VectorAccess_misses : (let s := tVec [(11, 0x50000)]
    ∀ n ∈ [Need.read, .write], s.checkLanes n [(0, 0x50000)] = (s, .error (.miss false 0x50000))) := by
  intro s n h
  exact tEqErr (by revert n; decide +kernel)
/-- VBUCK: 129 buckets, a reserved bit, a misaligned base, and two buckets at 0x400. -/
theorem wit_VectorAccess_buckets : (let s := tX [(11, 2 ^ 63), (12, 2 ^ 47), (13, 2 ^ 56 + 0x401), (14, 2 ^ 56 + 0x400)]
    Steady s ∧ Quiet s ∧ (∀ a ∈ [11, 12, 13, 14], Issues s [a] [a]) ∧ 128 < (s.x 11).toNat / 2 ^ 56 + 1 ∧ (s.x 12).toNat / 2 ^ 47 % 2 ^ 9 ≠ 0 ∧
      (s.x 13).toNat % 2 ^ 47 % 4 ≠ 0 ∧ (s.x 14).toNat / 2 ^ 56 + 1 = 2 ∧
      s.checkLanes .both [(0, 0x400), (1, 0x404)] = (s, .ok [(0, 0x400, tPlace 0x400), (1, 0x404, tPlace 0x404)])) := by
  unfold Steady Quiet Issues
  dsimp only
  and_intros
  any_goals decide +kernel
  all_goals exact tEq (by decide +kernel)

/-! #### Engines -/

/-- Tile 1 and table B claimed, 96 by 96 by 96, FP8 operands; FC is FP32. -/
def tMat (l : List (Nat × Nat)) : State :=
  tWith (fun sl => { sl with mcfg := 0x6000223060, fa := 4, fb := 4, fc := 1 }) l
theorem wit_MatrixCommands : (let s := tMat [(10, 0x1000), (11, 0x2000), (12, 1), (13, 0), (14, 384)]
    Issues s [12] [12] ∧ Issues s [10, 11, 12] [10, 11, 12] ∧ cfgTile s.me.mcfg.toNat 1 = true ∧ cfgTile s.me.mcfg.toNat 0 = false ∧
      (s.matrixOut s.cur).length < 4 ∧ operandOk s.me.fa.toNat false = true ∧ operandOk s.me.fb.toNat true = true ∧
      tableClaimed s.me.mcfg.toNat s.me.fa.toNat 0 = true ∧ tableClaimed s.me.mcfg.toNat s.me.fb.toNat 1 = true ∧
      (s.x 10).toNat % 16 = 0 ∧ (s.x 11).toNat < 2 ^ 47 ∧ descOk s.me.fc.toNat (fun k => decide (k ≤ 7) || k == 0x10) = true ∧
      descCode s.me.fc.toNat ≠ 0x10 ∧ 0 < (s.x 14).toNat ∧ (s.x 14).toNat < 2 ^ 20 ∧ (s.x 14).toNat % 8 = 0) ∧
    operandOk 0 false = false ∧ operandOk 0 true = false := by
  unfold Issues; decide +kernel
/-- Each check that fails with those before it passed: a code and a table of A, an unclaimed tile, an address of 2^47, a misaligned one; a stride of 0, an
FC that MOUT does not take, a table that is not claimed, and a rounding for a table. -/
theorem wit_MatrixCommands_traps : (let s := tMat [(10, 2 ^ 47), (11, 0x1008), (12, 0), (13, 1)]
    operandOk 0 false = false ∧ operandOk s.me.fa.toNat false = true ∧ tableClaimed s.me.mcfg.toNat 0x10 0 = false ∧
      cfgTile s.me.mcfg.toNat ((s.x 12).toNat % 4) = false ∧ cfgTile s.me.mcfg.toNat ((s.x 13).toNat % 4) = true ∧ ¬(s.x 10).toNat < 2 ^ 47 ∧
      (s.x 11).toNat < 2 ^ 47 ∧ (s.x 11).toNat % 16 ≠ 0 ∧ (s.x 12).toNat = 0 ∧ (s.x 13).toNat % 8 ≠ 0 ∧
      descOk 8 (fun k => decide (k ≤ 7) || k == 0x10) = false ∧ descCode 0x10 = 0x10 ∧ cfgTable s.me.mcfg.toNat 0 = false ∧ 2 ^ 10 / 2 ^ 10 % 4 ≠ 0) := by
  decide +kernel
/-- MSYNC without and with a failure of the matrix engine; MCFG of a word that is not valid, of a tile claimed by slot 1, and of free ones. -/
theorem wit_MatrixCommands_cfg : tState.matrixOut tState.cur = [] ∧ (∀ f ∈ tState.me.failures, ticketEngine f.ticket ≠ 1) ∧
    ticketEngine 0x11002 = 1 ∧ (tWith ({ · with failures := [⟨0x11002, 0x10, 0x1000⟩] }) []).me.failures = [⟨0x11002, 0x10, 0x1000⟩] ∧
    (let s := { tX [(10, 0x6000013060), (11, 0), (12, 0)] with
       slots := [(0, tSlot), (1, { tSlot with mcfg := 0x6000013060 })], running := [0, 1] }
     Steady s ∧ Issues s [10, 11] [10, 11] ∧ cfgValid 0 = false ∧ cfgValid 0x6000013060 = true ∧ cfgClaim 0x6000013060 0 = true ∧
       s.claimedElsewhere s.cur 0 = true) ∧
    (let s := tX [(10, 0x6000013060)]
     Steady s ∧ (∀ r, r < 6 → cfgClaim 0x6000013060 r = true → s.claimedElsewhere s.cur r = false) ∧ s.fetchTable false 0 = (s, .ok none) ∧
       Rising ((s.core 0).tiles.map (·.1)) ∧ Rising ((s.core 0).tables.map (·.1))) := by
  unfold Steady Issues Rising
  dsimp only
  and_intros
  any_goals decide +kernel
  all_goals exact tEq (by decide +kernel)
/-- TFPIN of no bytes and of one line; a free pin, none free; TFREL of a pin and of none. -/
theorem wit_MatrixMemory : (let s := { tX [(10, 0x10000), (11, 1024), (12, 0), (13, 2 ^ 20 + 1)] with
      creels := [(0, { Creel.initial with hmask := [(0, 1)] })] }
    Steady s ∧ Issues s [10, 11, 9] [10, 11] ∧ (s.x 12).toNat = 0 ∧ 2 ^ 20 < (s.x 13).toNat ∧ 0 < (s.x 11).toNat ∧
      (match s.pinPlaces s.cur 0x10000 0x10400 3 with
       | (t, .ok ps) => decide (t = s) && ps.length == 1 && t.pinsTooMany ((distinctLines ps).map Place.lineId) == false
       | _ => false) = true ∧ mapFind s.me.pins 0 = none) ∧
    (let p : Pin := ⟨0x10000, 1024, []⟩
     let s := tWith (fun sl => { sl with pins := (List.range 8).map fun k => (k, p) }) [(10, 0x10000), (11, 0)]
     (∀ k, k < 8 → (mapFind s.me.pins k).isSome = true) ∧ Issues s [10] [10] ∧ s.matrixOut s.cur = [] ∧ (∃ r, s.me.pins = (0, p) :: r) ∧
       ∀ q ∈ s.me.pins, q.2.base ≠ (s.x 11).toNat) := by
  unfold Steady Issues
  refine ⟨by decide +kernel, by decide +kernel, by decide +kernel, by decide +kernel, ⟨_, rfl⟩, by decide +kernel⟩
/-- MSAVE and MREST of one row of tile 1, of the configuration and of table B, in creel SRAM. -/
theorem wit_MatrixMemory_save : (∀ c ∈ [(4, 384), (1, 64), (6, 1024)], (let s := tMat [(10, 0x400), (11, c.1)]
    Steady s ∧ Issues s [10, 11] [10, 11] ∧ s.matrixOut s.cur = [] ∧
      s.checkRange s.cur 0x400 c.2 .write true (pagesOf c.2) = (s, .ok [⟨0x400, c.2, tPlace 0x400⟩]) ∧
      s.checkRange s.cur 0x400 c.2 .read true (pagesOf c.2) = (s, .ok [⟨0x400, c.2, tPlace 0x400⟩]) ∧ Memory.wf s.mem = true ∧
      Clean s 0x400 (c.2 + 32) ∧ NoBarrierWait s 0x400 c.2)) ∧
    4 % 4 = 0 ∧ 4 / 2 ^ 2 % 4 = 1 ∧ cfgTile (tMat []).me.mcfg.toNat 1 = true ∧ cfgTable (tMat []).me.mcfg.toNat 1 = true ∧ 6 % 4 = 2 := by
  unfold Steady Issues NoBarrierWait Clean
  refine ⟨?_, by decide +kernel⟩
  intro c h
  dsimp only
  refine ⟨?_, ?_, ?_, tEq ?_, tEq ?_, ?_, ?_, ?_⟩
  all_goals revert c; decide +kernel
/-- Control words that are accepted and refused, and messages at aligned places. -/
theorem wit_GaussCommands : gCtlOk 0 0x400 = false ∧ gCtlOk 0 0 = true ∧ gCtlOk 1 0 = true ∧ gCtlOk 1 0x400 = false ∧ gCtlOk 2 0 = true ∧
    gCtlOk 3 0 = true ∧ gCtlOk 4 0 = true ∧ gCtlOk 5 0 = true ∧ (∀ fn ∈ [2, 3, 4, 5], gCtlOk fn 0x400 = false) ∧
    (let s := tX [(10, 0x1000), (11, 0x2000), (12, 0), (13, 0x3000)]
     Steady s ∧ Issues s [10, 11, 12, 12 + 1] [10, 11, 12, 12 + 1] ∧ Issues s [10, 11, 9] [10, 11] ∧ (s.gaussOut s.cur).length < 4 ∧
       gArgTrap [⟨0x1000, 1024, 1024, false⟩, ⟨0x2000, 8, 8, false⟩, ⟨0x3000, 256, 256, true⟩] = none ∧
       s.checkRange s.cur 0x1000 1024 .read true 2 = (s, .ok [⟨0x1000, 1024, tPlace 0x1000⟩]) ∧ Clean s 0x1000 8 ∧
       s.gCheckArgs [⟨0x2000, 8, 8, false⟩, ⟨0x3000, 256, 256, true⟩] = (s, none) ∧
       s.gCheckArgs [⟨0x1000, 256, 256, true⟩, ⟨0x2000, 256, 256, false⟩] = (s, none) ∧
       gArgTrap [⟨0x1000, 256, 256, true⟩, ⟨0x2000, 256, 256, false⟩] = none ∧ s.gaussOut s.cur = []) ∧
    (∀ f ∈ tState.me.failures, ticketEngine f.ticket ≠ 2) ∧ ticketEngine 0x12002 = 2 := by
  unfold Steady Issues Clean
  dsimp only
  and_intros
  any_goals decide +kernel
  all_goals exact tEq (by decide +kernel)

/-! #### Sequence words, watches, pulls -/

/-- A value above the word at 0x200, an equal one, and an addend that runs over. -/
theorem wit_PublishResults : (let s := (tX [(11, 0x200), (12, 0x14), (13, 0x15), (14, 2 ^ 64 - 1)]).writeAs 1 0x200 (natBytes 0x14 8)
    let old := s.readAs (s.slotKey s.cur) 0x200 8
    (∀ b ∈ [12, 13, 14], Issues s [11, b] [11, b]) ∧ s.checkLocal s.cur 0x200 8 8 .both true = (s, .ok (tPlace 0x200)) ∧ Quiet s ∧
      Clean s (0x200 / 16 * 16) 16 ∧ Memory.wf s.mem = true ∧ NoBarrierWait s 0x200 8 ∧ (s.x 12).toNat ≤ old ∧ old < (s.x 13).toNat ∧
      2 ^ 64 ≤ old + (s.x 14).toNat ∧ old + (s.x 13).toNat < 2 ^ 64) := by
  unfold Issues Quiet Clean NoBarrierWait; decide +kernel
/-- Register 0 is free, 1 pending, 2 answered, 3 lost; a range of no bytes, misaligned ones, and one of a whole unit. -/
def tWatch : State := { tWith (fun sl => { sl with watches := [(1, ⟨.pend, 0x200, 5, 3, false, 0, 0, 0, 0⟩), (2, ⟨.ans, 0x200, 5, 6, false, 0, 0, 0, 0⟩),
      (3, ⟨.lost, 0x200, 5, 0, false, 0, 0, 0, 0⟩)] })
    [(10, 0x200), (11, 0x201), (12, 0), (13, 0x400), (14, 2 ^ 40), (20, 0), (21, 1), (22, 2), (23, 3), (24, 0x21)] with cycle := 9 }
theorem wit_WatchForms : (let s := tWatch
    Steady s ∧ (∀ c ∈ [20, 21, 22, 23, 24], Issues s [10, 12, c] [10, 12, c]) ∧ (∀ c ∈ [20, 21, 22, 23, 24], Issues s [10, c] [c]) ∧
      (∀ c ∈ [20, 21, 22, 23, 24], Issues s [c] [c]) ∧ Issues s [11, 13, 21] [11, 13, 21] ∧ Issues s [13, 14, 22] [13, 14, 22] ∧
      (s.me.watch 0).state = .free ∧ (s.me.watch 1).state = .pend ∧ (s.me.watch 2).state = .ans ∧ (s.me.watch 3).state = .lost ∧
      (∀ k, k < 4 → (s.me.watch k).arm = 0) ∧ (s.x 24).toNat % 16 = 1 ∧ (s.x 24).toNat.testBit 5 = true ∧ (s.x 21).toNat.testBit 5 = false ∧
      (s.x 10).toNat % 8 = 0 ∧ (s.x 11).toNat % 8 ≠ 0 ∧ permitted (tGlobal 0 0) .read s.me.mode = true ∧
      isSram (lpaOf ((tGlobal 0 0).phys 0 0x200).gpa) = true ∧ s.isLost 0 0 = false ∧ s.x 12 = 0 ∧ (s.x 11).toNat % 1024 ≠ 0 ∧
      (s.x 13).toNat % 1024 = 0 ∧ (s.x 14).toNat % 1024 = 0 ∧ (s.x 14).toNat ≤ 2 ^ 40 ∧
      s.xlate s.cur true 0x200 = (s, some (tGlobal 0 0))) := by
  unfold Steady Issues
  dsimp only
  and_intros <;> decide +kernel
/-- A register whose arm is on its way, held, coming back, and withdrawn; a lost module, a page that user mode may not read, one of the DRAM slice, and
one that no buffer knows. -/
theorem wit_WatchForms_arms : ∀ st ∈ [ArmStage.sent, .held, .answered 5, .withdrawn true], (let a : Arm := ⟨7, 0, 1, 0x200, 0x200, 5, st, 9, 0⟩
    let s := { tWatch with arms := [a], slots := [(0, { tSlot with watches := [(1, ⟨.pend, 0x200, 5, 3, false, 7, 0, 0, 0⟩)] })] }
    (s.me.watch 1).arm ≠ 0 ∧ s.arms.find? (·.id == (s.me.watch 1).arm) = some a ∧ a.stage = st ∧ Issues s [10, 12, 21] [10, 12, 21] ∧
      Issues s [21] [21] ∧ (s.x 21).toNat % 16 = 1) := by
  unfold Issues; decide +kernel
theorem wit_WatchForms_refused : (let s := { tX [(10, 0x200), (11, 2 ^ 45 + 0x200), (12, 0x20000200), (13, 0x50000)] with
      cores := [(0, { tCore with tlb := [tGlobal 0 0, tGlobal (2 ^ 29) (2 ^ 52), tGlobal 0x2000 0x40000000] })]
      mods := [(0, { Module.initial with mlost := [1] })] }
    Issues s [10, 12, 0] [10, 12, 0] ∧ s.xlate s.cur true 0x20000200 = (s, some (tGlobal 0x2000 0x40000000)) ∧
      isSram (lpaOf ((tGlobal 0x2000 0x40000000).phys 0 0x20000200).gpa) = false ∧
      isAgent (lpaOf ((tGlobal 0x2000 0x40000000).phys 0 0x20000200).gpa) = false ∧
      permitted { tGlobal 0 0 with u := false } .read s.me.mode = false ∧ (s.xlate s.cur true 0x50000).2 = none ∧
      s.xlate s.cur true (2 ^ 45 + 0x200) = (s, some (tGlobal (2 ^ 29) (2 ^ 52))) ∧
      permitted (tGlobal (2 ^ 29) (2 ^ 52)) .read s.me.mode = true ∧
      isSram (lpaOf ((tGlobal (2 ^ 29) (2 ^ 52)).phys 0 (2 ^ 45 + 0x200)).gpa) = true ∧
      s.isLost 0 (linOf ((tGlobal (2 ^ 29) (2 ^ 52)).phys 0 (2 ^ 45 + 0x200)).gpa / 128) = true) := by
  unfold Issues; decide +kernel
/-- A range in one page, in two, with a page whose walk is still to come, and with a page that has no translation. -/
theorem wit_WatchForms_range : (let s := tWatch
    (s.sweepCheck 0 ⟨6, 0x400, 0x400, [], 1, 0x400, 0x400, 0⟩ (pagesOf 0x400)).1 = s ∧
    (s.sweepCheck 0 ⟨6, 0x400, 0x400, [], 1, 0x400, 0x400, 0⟩ (pagesOf 0x400)).2 =
      (⟨6, 0x800, 0, [⟨0x400, 0x400, tWindow 0x400⟩], 1, 0x400, 0x400, 0⟩, none) ∧
    (s.sweepCheck 0 ⟨6, 0xFC00, 0x800, [], 1, 0xFC00, 0x800, 0⟩ (pagesOf 0x800)).2 =
      (⟨6, 0x10000, 0x400, [⟨0xFC00, 0x400, tWindow 0xFC00⟩], 1, 0xFC00, 0x800, 0⟩, none)) ∧
    (let s := { tWatch with cores := [(0, { tCore with tlb := [tGlobal 0 0, tGlobal 1 0x10000] })] }
     (s.sweepCheck 0 ⟨6, 0xFC00, 0x800, [], 1, 0xFC00, 0x800, 0⟩ (pagesOf 0x800)).2 =
      (⟨6, 0x10400, 0, [⟨0xFC00, 0x400, tWindow 0xFC00⟩, ⟨0x10000, 0x400, tWindow 0x10000⟩], 1, 0xFC00, 0x800, 0⟩, none)) ∧
    (let s := { tWatch with creels := [(0, { Creel.initial with wfaults := [⟨sweepReq 0, 5, .cause 0x05⟩] })] }
     (s.sweepCheck 0 ⟨6, 0x50000, 0x400, [], 1, 0x50000, 0x400, 0⟩ (pagesOf 0x400)).2.2 = some ⟨0x06, 0x50000, false⟩) := by
  decide +kernel
/-- Control words that are accepted and refused; 32 bytes from creel 1 to 0x400, with a completion word at 0x800, of each form. -/
def tPull (ctl : Nat) (l : List (Nat × Nat)) : State :=
  { tX ([(10, 0x400), (11, 0x1000), (12, ctl), (13, 0x800)] ++ l) with cores := [(0, { tCore with tlb := tCore.tlb })] }
theorem wit_PullCommands : ∀ c ∈ [(0, 32, 0), (1, 4, 0), (2, 32, 0), (3, 0, 0)], (let s := tPull c.2.1 []
    let dst : List Span := [⟨0x400, pullBytes c.1 c.2.1, tPlace 0x400⟩]
    Steady s ∧ Issues s [10, 11, 12, 12 + 1] [10, 11, 12, 12 + 1] ∧ pullCtlOk c.1 (s.x 12).toNat = true ∧ pullCtlOk c.1 (2 ^ 63) = false ∧
      tIs (s.checkPull (if c.1 = 3 then [s.x 10] else [s.x 10, s.x 11]) 0x400 (pullBytes c.1 c.2.1) (if c.1 < 2 then .write else .both)
          (if c.1 = 1 then some (0x1000, 24) else none) 0x800 false) s
        (dst, if c.1 = 1 then [⟨0x1000, 24, tPlace 0x1000⟩] else [], [⟨0x800, 8, tPlace 0x800⟩]) = true ∧
      s.pullsOut s.cur = [] ∧ pickChannel (s.creel (s.cur / 512)).pulls = some 0) := by
  unfold Steady Issues; decide +kernel
/-- CPULL of 32 bytes of group 0, which belongs to ASID 0 and is at instance 6: the control word names 7, and 8. Group 1 is not valid. -/
def tTree (ctl : Nat) : State :=
  ({ tPull ctl [] with creels := [(0, { Creel.initial with tree := [(0, 1)] })] } : State)
theorem wit_PullCommands_tree : (∀ n ∈ [1, 8], (let s := tTree (n * 2 ^ 32 + 32)
    let g := (s.x 12).toNat / 2 ^ 24 % 2 ^ 6
    Steady s ∧ Issues s [10, 11, 12, 12 + 1] [10, 11, 12, 12 + 1] ∧ (s.x 12).toNat % 2 ^ 24 = 32 ∧
      tIs (s.checkPull [s.x 10, s.x 11] 0x400 32 .both (some (0x1000, 32)) 0x800 false) s
        ([⟨0x400, 32, tPlace 0x400⟩], [⟨0x1000, 32, tPlace 0x1000⟩], [⟨0x800, 8, tPlace 0x800⟩]) = true ∧
      treeValid (s.creel 0) g = true ∧ treeKey (s.creel 0) g = s.me.asid.toNat ∧
      s.checkLocal s.cur (treeIseq (s.creel 0) g) 8 8 .both true = (s, .ok (tPlace 0)) ∧
      s.readAs (s.slotKey s.cur) 0 8 + 1 = 1 ∧ (s.creel 0).pulls = [])) ∧ treeValid ((tTree 0).creel 0) 1 = false := by
  unfold Steady Issues; decide +kernel

/-! #### The TASK, SYS and CACHE groups -/

/-- A packet of width 1 and window size 1 for core 0, at 0x400: well-formed, and rejected for its word 0. -/
def tPacket (w0 : Nat) : State := ((tX [(11, 0x400), (12, 1)]).writeAs 1 0x400 (natBytes w0 8)).writeAs 1 0x460 (natBytes 1 8)
theorem wit_TaskForms_put : ∀ w0 ∈ [2 ^ 55 + 2 ^ 48, 0], (let s := tPacket w0
    let bs := natBytes w0 8 ++ List.replicate 88 0 ++ natBytes 1 8 ++ List.replicate 24 (0 : Byte)
    Issues s [10, 11, 12] [11, 12] ∧ Quiet s ∧ s.checkLocal s.cur (s.x 11).toNat 128 128 .read false = (s, .ok (tPlace 0x400)) ∧
      tIs (s.readSpans s.cur [⟨0x400, 128, tPlace 0x400⟩]) s bs = true ∧ (s.creel 0).freeEntry = some 0 ∧
      packetBad (packetWords (bytesNat bs)) = if w0 = 0 then some 0 else none) := by
  unfold Issues Quiet; decide +kernel
/-- A full task unit; a held packet of the tenant, and none. -/
def tHeld (l : List Nat) : State :=
  { tX [(11, 0x400), (12, 1)] with creels := [(0, { Creel.initial with
      residents := l.map fun k => (k, ⟨[2 ^ 55 + 2 ^ 48, 0x1000], 0, 0, 0, 0, true, 1, 0, 0, k, 0, 0, none⟩) })] }
theorem wit_TaskForms : (let s := tHeld (List.range 256); (s.creel 0).freeEntry = none) ∧
    (∀ l ∈ [[], [0]], (let s := tHeld l
      Issues s [10, 11] [11] ∧ Quiet s ∧ s.checkLocal s.cur (s.x 11).toNat 128 128 .write false = (s, .ok (tPlace 0x400)) ∧
        (placeOrder ((s.creel 0).residents.filter fun (_, q) => q.held && q.world == s.me.world.toNat && q.asid == s.me.asid.toNat)).map (·.1) = l ∧
        Memory.wf s.mem = true ∧ Clean s 0x400 128 ∧ NoBarrierWait s 0x400 128)) ∧
    AtHand (tHeld [0]) (tPlace 0x400) ∧ (tWith ({ · with wait := .yield 1 }) []).me.wait = .yield 1 ∧ Issues tState [10] [10] := by
  unfold Issues Quiet Clean NoBarrierWait AtHand
  exact ⟨by decide +kernel, by decide +kernel, fun c hc => (by cases hc), by decide +kernel, by decide +kernel⟩
theorem wit_ExitResults : (let s := tState
    s.me.mode = false ∧ NoFault s ∧ Quiet s ∧ s.enginesOut s.cur = false ∧ s.me.failures = [] ∧ Rising s.running ∧
      Rising (s.me.watches.map (·.1))) ∧ (tWith tSup []).me.mode = true := by
  unfold NoFault Quiet Rising; decide +kernel
/-- SRET that resumes, that restores x1 to x7, and that forwards; ERET of a handler; SCRUB of all the parts, of none, and of a part too many. -/
theorem wit_SystemForms : Issues tState [10] [10] ∧ tState.me.mode = false ∧ tState.me.uih = false ∧
    (let me := (tWith (fun sl => { tSup sl with nosave := true }) []).me
     me.mode = true ∧ me.member ≠ .attached ∧ me.nosave = true ∧ me.uvec = 0 ∧ me.coil = none) ∧
    (let me := (tWith (fun sl => { tSup sl with sbase := 1, sbound := 2, slock := true }) []).me
     me.mode = true ∧ me.nosave = false ∧ me.pm = false ∧ me.uf = false) ∧
    (let me := (tWith (fun sl => { tSup sl with nosave := true, uf := true, uvec := 0x2000 }) []).me
     me.mode = true ∧ me.nosave = true ∧ me.uf = true ∧ me.pm = false ∧ me.uih = false ∧ me.uvec ≠ 0) ∧
    (let me := (tWith ({ · with uih := true, shadow := [(1, ⟨5, true, false, 0⟩)] }) []).me
     me.mode = false ∧ me.uih = true ∧ me.member ≠ .attached) ∧
    (∀ n ∈ [0, 63, 64], (let s := tWith (fun sl => { tSup sl with sbase := 1, sbound := 2, slock := true }) [(10, n)]
     s.me.mode = true ∧ Issues s [10] [10] ∧ Quiet s ∧ s.enginesOut s.cur = false ∧ s.me.coil = none ∧ Rising (s.me.watches.map (·.1)) ∧
       Rising ((s.core (s.cur / 16)).tiles.map (·.1)) ∧ ((s.x 10).toNat < 64 ↔ n ≠ 64))) := by
  unfold Issues Quiet Rising
  and_intros <;> decide +kernel
/-- SRET while a store of the slot to its save area is in flight, and without one. -/
theorem wit_SystemForms_sret : (let q : Part := ⟨0x1008, 0x1008, none, true, 0, false, 16, 8, 0, 5⟩
    let a : Access := ⟨7, 0, .store, [q], 0, 0, true, false, 9, 0, false, 0, 0, false, 0x1000, 0⟩
    let s := { tWith (fun sl => { tSup sl with sbase := 1, sbound := 2, slock := true }) [] with accesses := [a] }
    s.me.mode = true ∧ s.me.member ≠ .attached ∧ s.me.nosave = false ∧ s.me.pm = false ∧ a ∈ s.accesses ∧ a.slot = s.cur ∧ q ∈ a.parts ∧
      q.gpa < 0 * 2 ^ 45 + s.me.sbase.toNat * 4096 + 64 ∧ 0 * 2 ^ 45 + s.me.sbase.toNat * 4096 < q.gpa + q.size) ∧
    (let s := tWith (fun sl => { tSup sl with sbase := 1, sbound := 2, slock := true }) []
     NoSoft s (0 * 2 ^ 45 + s.me.sbase.toNat * 4096) 64 ∧ Alone s (0 * 2 ^ 45 + s.me.sbase.toNat * 4096) 64) := by
  unfold NoSoft Alone; decide +kernel
/-- Selectors with a reserved bit, with part SUP in user mode, with x127 to x128, and with x1 to x2, in an area at 0x400. -/
theorem wit_ContextForms : (let s := tX [(11, 0x400), (12, 1), (13, 2 ^ 6), (14, 2 ^ 17 + 127 * 2 ^ 8), (15, 2 ^ 17 + 2 ^ 8)]
    let sp : Span := ⟨0x400, 6720, tPlace 0x400⟩
    Steady s ∧ (∀ b ∈ [12, 13, 14, 15], Issues s [11, b] [11, b]) ∧ ctxSelBad (s.x 12).toNat = true ∧ ctxSelBad (s.x 13).toNat = false ∧
      (s.x 13).toNat.testBit 6 = true ∧ s.me.mode = false ∧ ctxSelBad (s.x 14).toNat = false ∧ s.me.limit - s.me.base < 127 + 2 ∧
      ctxSelBad (s.x 15).toNat = false ∧ (s.x 15).toNat.testBit 6 = false ∧ 1 + 2 ≤ s.me.limit - s.me.base ∧
      tIs (s.ctxArea 11) s (sp.va, [sp]) = true ∧ sp.place.gpa < 2 ^ 63 ∧ Quiet s ∧ s.enginesOut s.cur = false ∧ s.me.failures = [] ∧
      Clean s 0x400 6720 ∧ Memory.wf s.mem = true ∧ NoBarrierWait s 0x400 6720 ∧
      tIs (s.ctxRead [sp] sp.va (2 ^ 17 + 2 ^ 8)) s [(64, 0), (0, 0)] = true) := by
  unfold Steady Issues Quiet Clean NoBarrierWait
  dsimp only
  and_intros
  any_goals decide +kernel
  exact fun k _ => ⟨rfl, fun h => by cases h⟩
/-- A range of no bytes, one that is too long, and the first line of the DRAM slice, absent from L2 and present; L2HM with free masks. -/
def tLine (r : Bool) : State :=
  { tX [(11, 0x10000), (12, 0), (13, 2 ^ 30 + 1), (14, 1024), (15, 1)] with
    creels := [(0, { Creel.initial with hmask := [(0, 1)] })]
    cores := [(0, { tCore with l2 := if r then [(0, ⟨2 ^ 20, false, false, 0, 0, none, 255, 0⟩)] else [] })] }
def tSpan : Span := ⟨0x10000, 1024, ⟨0x40000000, some 0, true, 0, false, 16⟩⟩
def tSweep (fn va : Nat) (sps : List Span) : Sweep := ⟨fn, va + 1024, 0, sps, 0, 0, 0, 0⟩
theorem wit_CacheForms : (∀ r ∈ [true, false], (let s := tLine r
    Issues s [11, 12] [11, 12] ∧ Issues s [11, 13] [11, 13] ∧ Issues s [11, 14] [11, 14] ∧ (s.x 12).toNat = 0 ∧ 2 ^ 30 < (s.x 13).toNat ∧
      0 < (s.x 14).toNat ∧ (s.x 14).toNat ≤ 2 ^ 30 ∧ Quiet s ∧ s.lin = 0 ∧ s.spanLines s.lin tSpan = [(0, 0x40000000)] ∧
      (s.l2Find 0 0x40000000).isSome = r)) ∧
    (let s := tWith tSup [(11, 1), (15, 1)]
     s.me.mode = true ∧ Issues s [11, 15] [11, 15] ∧ (s.x 15).toNat < 2 ^ 24 ∧ s.maskResident (s.cur / 512) 1 (fun l => l.pins != 0) = false) ∧
    (tX []).me.mode = false := by
  unfold Issues Quiet
  refine ⟨?_, by decide +kernel, by decide +kernel⟩
  intro r h
  dsimp only
  clear h
  and_intros <;> revert r <;> decide +kernel
/-- The checks of each form on that line, of RINV on a line of creel SRAM, on a page whose walk is still to come and on one without a translation. -/
theorem wit_CacheForms_checks : (let s := tLine true
    (∀ fn ∈ [0, 1, 2, 5], s.sweepCheck 0 ⟨fn, 0x10000, 1024, [], 0, 0, 0, 0⟩ (pagesOf 1024) = (s, tSweep fn 0x10000 [tSpan], none)) ∧
    s.sweepCheck 0 ⟨3, 0x400, 1024, [], 0, 0, 0, 0⟩ (pagesOf 1024) = (s, tSweep 3 0x400 [⟨0x400, 1024, tWindow 0x400⟩], none) ∧
    s.sweepCheck 0 ⟨0, 0x400, 1024, [], 0, 0, 0, 0⟩ (pagesOf 1024) = (s, tSweep 0 0x400 [], none) ∧
    (s.sweepCheck 0 ⟨0, 0x50000, 1024, [], 0, 0, 0, 0⟩ (pagesOf 1024)).2.1.left = 1024 ∧
    (let s := { s with creels := [(0, { Creel.initial with wfaults := [⟨sweepReq 0, 5, .cause 0x05⟩] })] }
     (s.sweepCheck 0 ⟨0, 0x50000, 1024, [], 0, 0, 0, 0⟩ (pagesOf 1024)).2.2 = some ⟨0x05, 0x50000, false⟩)) := by
  decide +kernel
/-- L2HM: without an access under the mask, and with a relaxed store there. -/
theorem wit_CacheForms_mask : (let p : Part := ⟨0x10000, 0x40000000, some 0, true, 0, false, 16, 8, 0, 5⟩
    let a : Access := ⟨7, 0, .store, [p], 0, 0, true, false, 9, 0, false, 0, 0, false, 0x1000, 0⟩
    let s := { tWith tSup [(11, 0), (15, 1)] with accesses := [a] }
    s.me.mode = true ∧ Issues s [11, 15] [11, 15] ∧ (s.x 15).toNat < 2 ^ 24 ∧ s.maskResident (s.cur / 512) 0 (fun l => l.pins != 0) = false ∧
      s.accesses = [a] ∧ a.id ≠ 0 ∧ partUnder 0 0 a p = true) ∧
    (∀ x ∈ (tWith tSup []).accesses, isGld x.kind = true) ∧
    (let s := { tWith tSup [(11, 3), (15, 1)] with cores := [(0, { tCore with l2 := [(0, ⟨2 ^ 20, false, true, 3, 1, none, 255, 0⟩)] })],
                                                   creels := [(0, { Creel.initial with hmask := [(3, 1)] })] }
     s.maskResident 0 3 (fun l => l.pins != 0) = true) := by
  unfold Issues; decide +kernel

/-- L2HM while the range form of another slot stands parked on its last line under the mask, and with none. -/
theorem wit_CacheForms_sweep : (let v : Sweep := { tSweep 0 0x10000 [{ tSpan with place := { tSpan.place with hk := true, hm := 0 } }] with since := 3 }
    let s := { tWith tSup [(11, 0), (15, 1)] with
      slots := [(0, tSup tSlot), (16, { tSlot with wait := .sweep v })], running := [0, 16]
      creels := [(0, { Creel.initial with hmask := [(0, 1)] })] }
    s.me.mode = true ∧ (s.x 15).toNat < 2 ^ 24 ∧ s.maskResident 0 0 (fun l => l.pins != 0) = false ∧ s.accesses = [] ∧
      (s.sweepsUnder 0 0).map (fun x => (x.2.1, x.2.2)) = [(16, v)] ∧ v.fn ≠ 6) ∧ (tWith tSup []).sweepsUnder 0 0 = [] := by
  decide +kernel

/-! #### Special registers and traps -/

/-- TTIDX of the last root entry and the last tree word, SLOTTAB of the last parameter, and numbers without a register. -/
def tMfs (t : BitVec 16) : State :=
  { tWith (fun sl => { tSup sl with ttidx := t }) [] with cores := [(0, { tCore with slottab := 0x1004000000000000 })] }
theorem wit_MfsResults : Issues tState [10] [] ∧ tState.me.mode = false := by
  unfold Issues; decide +kernel
theorem wit_MfsResults_root : Issues (tMfs 1023) [10] [] ∧ (tMfs 1023).me.mode = true ∧ (tMfs 1023).me.ttidx.toNat = 1023 := by
  unfold Issues; decide +kernel
theorem wit_MfsResults_tree : (tMfs 0x1204).me.mode = true ∧ (tMfs 0x1204).me.ttidx.toNat = 0x1000 + 0x204 := by
  decide +kernel
theorem wit_MfsResults_slottab : ((tMfs 0).core ((tMfs 0).cur / 16)).slottab.toNat = 2 ^ 60 + 4 * 2 ^ 48 := by
  decide +kernel
theorem wit_MfsResults_none : [8, 0x200, 0x380, 0xFFF].filter (fun n =>
    [0x000, 0x001, 0x002, 0x003, 0x004, 0x005, 0x006, 0x007, 0x010, 0x011, 0x012, 0x013, 0x014, 0x020, 0x021, 0x022, 0x023, 0x024,
     0x030, 0x031, 0x100, 0x101, 0x102, 0x103, 0x104, 0x105, 0x106, 0x107, 0x108, 0x109, 0x10A, 0x140, 0x141, 0x142, 0x143, 0x180, 0x181,
     0x1C0].contains n) = [] := by
  decide
/-- Each branch: an unprotected world, partition bounds free and locked, SLOCK of 0 and 1 with bounds in and beyond, masks in use and free,
the last root entry and tree word, BINT's two bounds. -/
def tMts (b : Bool) (e : BitVec 12) (t : BitVec 16) (n : Nat) : State :=
  tWith (fun sl => { tSup sl with slock := b, sbase := 0xBEF, sbound := e, ttidx := t }) [(10, n)]
def tResident : State := { tLine true with cores := [(0, { tCore with l2 := [(0, ⟨2 ^ 20, false, true, 3, 0, none, 255, 0⟩)] })] }
theorem wit_MtsResults : (∀ n ∈ [0, 1, 256, 2 ^ 63 + 1, 2 ^ 63 + 2 ^ 60 + 2 ^ 48 + 1024, 2 ^ 63 + 2 ^ 60 + 2 ^ 48 + 2 ^ 20 - 1],
      Issues (tMts false 0xBF0 1023 n) [10] [10] ∧ (tMts false 0xBF0 1023 n).me.mode = true ∧ ((tMts false 0xBF0 1023 n).x 10).toNat = n) := by
  unfold Issues; decide +kernel
theorem wit_MtsResults_slot : (tMts false 0xBF0 0 0).leavesProtected (tMts false 0xBF0 0 0).cur 63 = false ∧ (tMts true 0xBF0 0 0).me.slock = true ∧
    (tMts false 0xBF0 0 1).me.sbound.toNat = 0xBF0 ∧ (tMts false 0xBF1 0 1).me.sbound.toNat = 0xBF1 := by
  decide +kernel
theorem wit_MtsResults_lock : (tMts false 0xBF0 0 1).lockedElsewhere 0 0xBEF 0 = false := by
  decide +kernel
theorem wit_MtsResults_mask : tState.maskResident 0 3 (fun _ => true) = false ∧
    tResident.maskResident 0 3 (fun _ => true) = true := by
  decide +kernel
/-- Numbers without a register, and a tree word of a group that a CPULL runs. -/
theorem wit_MtsResults_none : [0x000, 0x007, 0x008, 0x200, 0x380, 0xFFF].filter (fun n =>
    [0x010, 0x011, 0x012, 0x013, 0x014, 0x020, 0x021, 0x022, 0x023, 0x024, 0x030, 0x031, 0x101, 0x102, 0x103, 0x104, 0x106, 0x180, 0x10A,
     0x100, 0x105, 0x107, 0x108, 0x109, 0x140, 0x141, 0x142, 0x143, 0x181, 0x1C0].contains n) = [] ∧ treeReserved 0 1 = false := by
  decide
theorem wit_MtsResults_index : (tMts false 0xBF0 1023 0).me.ttidx.toNat = 1023 ∧
    (tMts false 0xBF0 0x1204 256).me.ttidx.toNat = 0x1000 + 0x204 ∧ treeReserved 0x204 256 = false ∧
    ((tMts false 0xBF0 0x1204 256).creel 0).pulls = [] ∧ (∀ v ∈ [1024, 2 ^ 20 - 1], paramOk 1 v = true) := by
  decide +kernel
/-- Without a handler, on a second trap, and with a handler; a field at the end of its window; an absent source; a failed relaxed load. -/
def tHandler (f : Slot → Slot) : State := { tWith f [] with creels := [(0, { Creel.initial with svec := 0x4002 })] }
def tAbsent : State := { tState with regs := [(11, ⟨0, false, false, 0⟩)] }
theorem wit_TrapEntry : (tState.creel 0).svec.toNat = 0 ∧ ((tHandler tSup).creel 0).svec.toNat ≠ 0 ∧ (tHandler tAtt).me.member = .attached ∧
    (tHandler tSup).me.nest = false ∧ (tHandler tSup).me.mode = true ∧ (tHandler tSup).me.member = .strand ∧
    (tHandler fun sl => { tSup sl with nest := true }).me.nest = true ∧ (tHandler ({ · with member := .jwait 0x2000 })).me.member = .jwait 0x2000 ∧
    (tWith ({ · with base := 8, limit := 16 }) []).me.limit ≤ 8 + (8 : BitVec 7).toNat ∧
    (∀ n ∈ [(10 : BitVec 7), 11, 12], tAbsent.me.base + n.toNat < tAbsent.me.limit) ∧ tAbsent.me.rfaults = [] ∧
    tAbsent.presOf tAbsent.cur (11 : BitVec 7).toNat = false ∧ (tWith ({ · with rfaults := [(11, 0x200)] }) []).me.rfaults = [(11, 0x200)] := by
  decide +kernel

/-- A trap from user mode with a locked partition, with nothing in flight and with an access. -/
theorem wit_TrapEntry_saves : ∀ l ∈ [[], [(⟨1, 0, .load 6, [], 10, 10, true, false, 5, 0, false, 0, 0, false, 0x1000, 0⟩ : Access)]],
    (let s := { tHandler (fun sl => { sl with slock := true, sbase := 1, sbound := 2 }) with accesses := l }
     s.me.mode = false ∧ s.me.slock = true ∧ s.me.member = .strand ∧ s.me.sbase.toNat < 0xC00 ∧ Memory.wf s.mem = true ∧ (Quiet s ↔ l = []) ∧
       (∀ b ∈ (s.creel 0).bwaits, b.slot ≠ s.cur) ∧ NoBarrierWait s 0x1000 64 ∧ (s.creel 0).svec.toNat ≠ 0 ∧ s.me.nest = false) := by
  unfold Quiet NoBarrierWait; decide +kernel

/-! #### Events: register writes -/

/-- Of RegisterWriteEvents: partition bounds at and beyond the last granule, a lock free and taken, a mask in use and free. -/
theorem wit_RegisterWriteEvents : (tMts false 0xBF1 0 0).slot 0 = (tMts false 0xBF1 0 0).me ∧ 0xBF0 < ((tMts false 0xBF1 0 0).slot 0).sbound.toNat ∧
    ¬0xBF0 < ((tMts false 0xBF0 0 0).slot 0).sbound.toNat ∧ (tMts false 0xBF0 0 0).lockedElsewhere 0 0xBEF 0 = false := by
  decide +kernel
theorem wit_RegisterWriteEvents_lock : ((tMts true 0xBF0 0 0).slot (16 * (0 / 16) + 0 % 16)).slock = true ∧
    ((tMts true 0xBF0 0 0).slot 0).busy = true ∧ ((tMts true 0xBF0 0 0).slot 1).busy = false ∧ ((tMts true 0xBF0 0 0).slot 1).slock = false := by
  decide +kernel
theorem wit_RegisterWriteEvents_mask : (tResident.maskResident 0 3 fun _ => true) = true ∧ (tResident.maskResident 0 2 fun _ => true) = false := by
  decide +kernel
/-- Tree words that are refused and written, TTDATA of an index with a register and without, an invalidation with nothing left. -/
theorem wit_RegisterWriteEvents_tree : treeReserved 0x204 (2 ^ 16) = true ∧ treeReserved 0x204 (2 ^ 16 - 1) = false ∧ (tState.creel 0).pulls = [] ∧
    slottabBad (2 ^ 61) = true ∧ slottabBad (2 ^ 60 + 5 * 2 ^ 48) = false ∧ slottabBad (2 ^ 60 + 6 * 2 ^ 48) = true := by
  decide +kernel
theorem wit_RegisterWriteEvents_read : ((tMts false 0 0x1204 0).readTtdata 0).isSome = true ∧
    (tMts false 0 0x1205 0).readTtdata 0 = none := by
  decide +kernel
theorem wit_RegisterWriteEvents_inval : (let s := tWith ({ · with wait := .inval [3] [5] }) []
    (s.slot 0).wait = .inval [3] [5] ∧ s.accesses = [] ∧ (s.creel 0).pulls = [] ∧ (s.creel 0).lwaits = [] ∧ (s.creel 0).bwaits = []) ∧
    (tState.slot 0).world.toNat = 0 := by
  decide +kernel


/-! #### Events: host ports -/

/-- Port 0 of module 0 with context 0: its state, its records, and the link. Host memory holds HSEQ at 8. -/
def tCtx (en err : Bool) (rs : List HRec) (cons fin : Nat) : Ctx :=
  { Ctx.initial with w1 := 8, w2 := 2 ^ 22 * 128, irqthr := 1, en := en, err := err, cons := cons, finished := fin, recs := rs }
def tPort (en err link : Bool) (rs : List HRec) (cons fin hseq : Nat) : State :=
  { tState with
    hostMem := if hseq = 0 then [] else [(8, BitVec.ofNat 8 hseq)]
    creels := [(0, { Creel.initial with roots := [(1, 1), (3, 0x0400000000000001)] })]
    mods := [(0, { Module.initial with
      agents := [(0, { Agent.initial with link := link, hwin := 0x8000000000000000, ctxs := [(0, tCtx en err rs cons fin)] })] })] }
def tRec (ws : List Nat) (placed : Nat) : HRec := ⟨3, ws, placed, false, 0, 0⟩

/-- A context that is off, on, and on with ERR; a root entry of a world that hosts may see, of one that they may not, and none. -/
theorem wit_ChannelEvents : ((tPort false false true [] 0 0 0).ctxOf 0 0).en = false ∧ ((tPort true false true [] 0 0 0).ctxOf 0 0).en = true ∧
    ((tPort true false true [] 0 0 0).ctxOf 0 0).err = false ∧ ((tPort true true true [] 0 0 0).ctxOf 0 0).err = true ∧
    (tPort true false true [] 0 0 0).root 0 0 true = 1 ∧ (tPort true false true [] 0 0 0).root 0 1 true / 2 ^ 58 = 1 ∧
    (worldOf ((tPort true false true [] 0 0 0).module 0) 0).hostVis = true ∧
    (worldOf ((tPort true false true [] 0 0 0).module 0) 1).hostVis = false ∧ (tPort true false true [] 0 0 0).root 0 2 true = 0 := by
  decide +kernel
/-- Polls: link down, HSEQ below CONS, 16 records past DONE. -/
theorem wit_ChannelEvents_poll : ((tPort true false false [] 0 0 0).port 0).link = false ∧ ((tPort true false true [] 3 3 2).port 0).link = true ∧
    (tPort true false true [] 3 3 2).hostRead 0 ((tPort true false true [] 3 3 2).ctxOf 0 0).hseqa 8 < 3 ∧
    (let s := tPort true false true [] 3 3 21
     s.hostRead 0 (s.ctxOf 0 0).hseqa 8 = 21 ∧ (s.ctxOf 0 0).cons = 3 ∧ (s.ctxOf 0 0).finished = 3 ∧ Memory.wf s.mem = true ∧ NoBarriers s 0) := by
  unfold NoBarriers; decide +kernel
/-- A record that the agent has read but for its last word, before HSEQ = 5. -/
theorem wit_ChannelEvents_words : (let s := { tPort true false true [] 3 3 0 with
      mods := [(0, { Module.initial with agents := [(0, { Agent.initial with
        link := true, ctxs := [(0, { tCtx true false [] 3 3 with hseq := some 5, part := List.replicate 15 0 })] })] })] }
    (s.ctxOf 0 0).en = true ∧ (s.port 0).link = true ∧ (s.ctxOf 0 0).hseq = some 5 ∧ (s.ctxOf 0 0).part.length = 15 ∧ Memory.wf s.mem = true ∧
      NoBarriers s 0 ∧ s.soft = []) := by
  unfold NoBarriers; decide +kernel
/-- Records of each kind: refused and accepted ones, a launch whose packets are all placed and one with a packet left. -/
theorem wit_ChannelEvents_records : (tRec [2 ^ 16 + 1, 1] 0).kind = 1 ∧ launchBad (tRec [2 ^ 16 + 1, 1] 0) 0 = some (1, 1) ∧
    launchBad (tRec [2 ^ 16 + 1] 1) 0 = none ∧ (tRec [2 ^ 16 + 1] 1).placed = (tRec [2 ^ 16 + 1] 1).count ∧
    (let c := (tPort true false true [tRec [2, 0, 128, 128] 0] 4 3 0).ctxOf 0 0
     (tRec [2, 0, 0, 64] 0).kind = 2 ∧ stageBad (tRec [2, 0, 0, 64] 0) c = some (1, 3) ∧ c.recs = [tRec [2, 0, 128, 128] 0] ∧
       (tRec [2, 0, 256, 128] 0).handled = false ∧ stageBad (tRec [2, 0, 256, 128] 0) c = none) ∧
    (tRec [3, 0, 7] 0).kind = 3 ∧ (tRec [3, 0, 7] 0).word 1 = 0 ∧ (tRec [3, 0, 7] 0).word 2 ≠ 0 ∧ (tRec [4] 0).kind = 4 ∧ (tRec [] 0).kind = 0 ∧
    (∀ i, i < 16 → 1 ≤ i → (tRec [3] 0).word i = 0) := by
  decide +kernel
/-- The last bytes of agent memory, and one beyond; HWIN of creel 0, valid and not; a link that is down; a launch with a packet left. -/
theorem wit_HostEvents : 2 ^ 23 - 8 + 8 ≤ 2 ^ 23 ∧ Clean tState (0 * 2 ^ 45 + 0x20000000 + (2 ^ 23 - 8)) 8 ∧ 2 ^ 23 < 2 ^ 23 - 7 + 8 ∧
    tState.bar2Bad 0 0 8 = true ∧ (tPort true false true [] 0 0 0).bar2Bad 0 0 8 = false ∧ Clean (tPort true false true [] 0 0 0) 0 8 ∧
    ((tPort true false false [] 0 0 0).port 0).link = false ∧ ((tPort true false true [] 0 0 0).ctxOf 0 0).recs = [] := by
  unfold Clean; decide +kernel
/-- A read that meets an uncorrectable word, and a module without firmware. -/
theorem wit_HostEvents_bad : (let s := { tState with bad := [0x20000008] }
    s.firstBad 0x20000000 16 = some 8 ∧ (s.creel 0).lwaits = [] ∧ (s.module 0).active ≠ 3) ∧ (3 : Nat) = 3 := by
  decide +kernel
theorem wit_HostEvents_timeout : (let s := tPort true false true [tRec [2 ^ 16 + 1] 0] 4 3 0
    let r := tRec [2 ^ 16 + 1] 0
    (s.ctxOf 0 0).recs = [r] ∧ r.handled = false ∧ r.kind = 1 ∧ launchBad r 0 = none ∧ r.placed < r.count ∧ Memory.wf s.mem = true ∧
      NoBarriers s 0) := by
  unfold NoBarriers; decide +kernel

/-! #### Events: the task unit -/

/-- A packet of width 1 for core 0 with entry 0x1000. -/
def tPk : Packet := ⟨[2 ^ 55 + 2 ^ 48 + 0x1000, 0, 0, 0, 0, 0, 0, 0, 0, 0, 0, 0, 1, 0, 0, 0], 0, 0, 0, 1, false, 1, 0, 0, 0, 0, 0, none⟩
def tUnit (f : Creel → Creel) : State := { tState with cycle := 1024, creels := [(1, f Creel.initial)] }
def tBox (w0 : Nat) (r : Word) : State :=
  ((tUnit fun c => { c with inboxes := [(0, ⟨1, 0, 5⟩)], roots := [(0, r)] }).writeAs 1 (agentGpa 0 0 0x102000) (natBytes w0 8)).writeAs 1
    (agentGpa 0 0 0x102060) (natBytes 1 8)

/-- A launch with a packet left, with the link up and down; a packet in an inbox that is full of room. -/
theorem wit_TaskEvents_place : (∀ l ∈ [true, false], (let s := tPort true false l [tRec [2 ^ 16 + 1] 0] 4 3 0
    let r := tRec [2 ^ 16 + 1] 0
    (s.ctxOf 0 0).recs = [r] ∧ r.handled = false ∧ r.kind = 1 ∧ launchBad r 0 = none ∧ r.placed < r.count ∧ Memory.wf s.mem = true ∧
      NoBarriers s 0 ∧ (s.port 0).link = l ∧ mapGet (s.port 0).placed 0 0 - s.inboxCount 0 0 0 < 64)) := by
  unfold NoBarriers; decide +kernel
/-- The sequence word of an inbox that tells of a packet, and a packet that it has told of. -/
theorem wit_TaskEvents_pull : (let s := tState.agentWrite 0 0 0x40008 1
    s.inboxOpen 1 0 = false ∧ s.inboxNews 1 0 = some 1 ∧ s.soft = []) ∧
    (tUnit ({ · with heard := [(0, 1)] })).inboxOpen 1 0 = true := by
  decide +kernel
/-- A packet that has arrived: accepted, of a tenant without a root entry, and one that breaks R24. -/
theorem wit_TaskEvents_accept : ∀ c ∈ [(tPk.word 0, (1 : Word)), (tPk.word 0, 0), (0, 1)], (let s := tBox c.1 c.2
    let bw := packetWords (s.readAs (s.key (agentLin 0 0) 0) (agentGpa 0 0 0x102000) 128)
    Memory.wf s.mem = true ∧ NoBarriers s 1 ∧ ((s.creel 1).inbox 0).due = 5 ∧ s.cycle = 1024 ∧ (s.creel 1).freeEntry = some 0 ∧
      s.firstBad (agentGpa 0 0 0x102000) 128 = none ∧ packetBad bw = (if c.1 = 0 then some 0 else none) ∧ s.root 1 0 false = c.2.toNat ∧
      bw.getD 13 0 = 0) := by
  unfold NoBarriers; decide +kernel
/-- A packet whose words have an uncorrectable error. -/
theorem wit_TaskEvents_bad : (let s := { tBox (tPk.word 0) 1 with bad := [agentGpa 0 0 0x102000] }
    Memory.wf s.mem = true ∧ NoBarriers s 1 ∧ s.soft = [] ∧ s.firstBad (agentGpa 0 0 0x102000) 128 = some 0 ∧ (s.creel 1).freeEntry = some 0) := by
  unfold NoBarriers; decide +kernel
theorem wit_TaskEvents_start : (tUnit fun c => { c with residents := [(0, tPk)] }).placeable 1 = some (0, tPk, 0, [(0, 0)], []) := by rfl
/-- An interval boundary with as many packets as the threshold, and with one more; and with a granted packet that creel 0 has not yet pulled. -/
theorem wit_TaskEvents_interval : (let s := { tUnit id with
      creels := [(0, { Creel.initial with claims := [⟨1, 1, 0, oitem tPk 0, 0, [], 0, 0⟩] })] }.sysWrite 1 0xBF8208 (2 ^ 32 + 128)
    s.stageHeld 1 = true) ∧ (∀ l ∈ [1, 0], (let s := tUnit fun c => { c with
      residents := [(0, tPk)], params := { c.params with lthr := l, lcfg := 8, bint := 1024 } }
    s.intervalDue 1 = true ∧ s.stageHeld 1 = false ∧ someNeighbour 1 (s.creel 1).params.lcfg = true ∧ (s.creel 1).params.lthr = l ∧ Memory.wf s.mem = true ∧
      NoBarriers s 1)) := by
  unfold NoBarriers; decide +kernel
/-- Creel 1 is told of an offer of creel 0, and looks at it: one item, and none. -/
def tOffer (n heard : Nat) : State :=
  ((((tUnit fun c => { c with params := { c.params with lcfg := 24 }, roots := [(0, 1)], heard := [(7, heard)] }).sysWrite 0 0xBF8000 1).sysWrite 0 0xBF8008 n).sysWrite 0
    0xBF8010 (oitem tPk 0))
theorem wit_TaskEvents_claim : ∀ n ∈ [0, 1], ((tOffer n 0).mayClaim 1 3 = true ∧ neighbour 1 3 = some 0 ∧
    (tOffer n 0).claimNews 1 3 = some (.oseq 3, 1) ∧ (tOffer n 1).mayClaim 1 3 = true ∧ (tOffer n 1).claimNews 1 3 = none ∧
    (tOffer n 1).soft = [] ∧ (tOffer n 1).claimItems 1 3 0 0 ((tOffer n 1).openItems 1 3 0) = (if n = 0 then [] else [0]) ∧
    Memory.wf (tOffer n 1).mem = true ∧ NoBarriers (tOffer n 1) 1) := by
  unfold NoBarriers; decide +kernel
/-- A grant round of creel 1 that has a CLAIM word to read, and one that has read all: the entry is free, holds another packet, holds the packet without a
claimant, and with creel 0 as one. -/
def tGrant (l : SMap Packet) (r : SMap Nat) : State :=
  (tUnit fun c => { c with residents := l, offers := [⟨0, 0, 0, false⟩], grantAt := 1024, claimsRead := r }).sysWrite 1 0xBF8000 1
theorem wit_TaskEvents_grant_read : (let s := tGrant [] []
    s.claimUnread 1 = some 1 ∧ (neighbour 1 1).isSome = true ∧ s.budgetOpen 1 3 = true ∧ s.soft = [] ∧ (s.creel 1).grantAt = 1024 ∧ s.cycle = 1024) := by
  decide +kernel
theorem wit_TaskEvents_grant : ∀ w ∈ [0, 2 ^ 32 + 1], ∀ l ∈ [[], [(0, { tPk with seq := 7 })], [(0, tPk)]],
    (let s := tGrant l [(0, 0), (1, 0), (2, 0), (3, w)]
     s.claimUnread 1 = none ∧ (s.creel 1).offers = [⟨0, 0, 0, false⟩] ∧ (s.creel 1).grantAt = 1024 ∧ s.cycle = 1024 ∧ Memory.wf s.mem = true ∧
       NoBarriers s 1 ∧ s.soft = [] ∧ (s.creel 1).residents = l ∧ s.claimant 1 0 = if w = 0 then none else some 0) := by
  unfold NoBarriers; decide +kernel
/-- A granted item, its packet when it has arrived and when its pull has failed, and a completion that the home takes up, with bit 63 and without. -/
def tClaim (due st seen : Nat) : Claim := ⟨3, 1, 0, oitem tPk 0, due, tPk.words, st, seen⟩
theorem wit_TaskEvents_granted : ∀ seen ∈ [0, 2 ^ 32 + 129],
    (let s := (tUnit fun c => { c with claims := [tClaim 0 0 seen] }).sysWrite 0 0xBF8208 (2 ^ 32 + 129)
     s.granted 1 3 = some (tClaim 0 0 seen) ∧ neighbour 1 3 = some 0 ∧ s.soft = []) := by
  decide +kernel
theorem wit_TaskEvents_arrived : ∀ st ∈ [0, 5], (let s := tUnit fun c => { c with claims := [tClaim 9 st (2 ^ 32 + 129)] }
    s.arrived 1 3 = some (tClaim 9 st (2 ^ 32 + 129)) ∧ (s.creel 1).freeEntry = some 0) := by
  decide +kernel
def tDone (w heard : Nat) : State :=
  (((tUnit fun c => { c with away := [(0, tPk)], heard := [(15, heard)] }).sysWrite 0 (0xBF8400 + 0x200 * 1) 1).sysWrite 0 (0xBF8410 + 0x200 * 1) w)
theorem wit_TaskEvents_complete : ∀ w ∈ [0, 2 ^ 63],
    (tDone w 1).soft = [] ∧ (tDone w 1).budgetOpen 1 3 = true ∧ (tDone w 0).doneNews 1 3 = some 1 ∧
      (tDone w 1).heardOf 1 (.dseq 3) = (tDone w 1).sysRead 1 (0xBF8408 + 0x200 * 3) + 1 ∧
      (tDone w 1).firstBad (0 * 2 ^ 45 + (0xBF8400 + 0x200 * opposite 3 + 0x10)) 8 = none ∧
      (tDone w 1).sysRead 0 (0xBF8400 + 0x200 * opposite 3 + 0x10) = w ∧ mapFind ((tDone w 1).creel 1).away (w % 2 ^ 32) = some tPk ∧
      mapFind ((tDone w 1).creel 1).away 5 = none := by
  decide +kernel

/-! #### Events: slots and memory -/

/-- A counter that ends, one value late and in time; the waits of BARW, PAUSE and JOIN; the two interrupts. -/
theorem wit_SlotEvents : (tWith ({ · with wait := .sleep 5 }) []).me.wait = .sleep 5 ∧ (5 : Nat) ≠ 0 ∧ (tWith ({ · with wait := .pause 1 }) []).me.wait = .pause 1 ∧
    (tWith ({ · with wait := .join 0x2000 0 }) []).me.wait = .join 0x2000 0 ∧ 0 ≤ tState.cycle ∧
    (let s := { tWith ({ · with wait := .barw 3 }) [] with cycle := 3, creels := [(0, { Creel.initial with bwaits := [⟨0, false, 0x200, 0x200, 16, 0, 0, 10⟩] })] }
     s.me.wait = .barw 3 ∧ 3 ≤ s.cycle ∧ (s.creel 0).bwaits.find? (·.slot == 0) = some ⟨0, false, 0x200, 0x200, 16, 0, 0, 10⟩) := by
  decide +kernel
theorem wit_SlotEvents_interrupt : (let sl := (tWith ({ · with stimerPend := true, uvec := 0x2000, upend := 8, umask := 12, utimer := 1 }) []).me
    sl.busy = true ∧ sl.terminating = false ∧ sl.stimerPend = true ∧ sl.mode = false ∧ sl.wait.timerAbandons = true ∧ sl.uih = false ∧ sl.uvec ≠ 0 ∧
      (sl.upend &&& sl.umask) ≠ 0 ∧ sl.wait.userAbandons = true ∧ sl.member = .strand ∧ sl.utimer ≠ 0) := by
  decide +kernel
theorem wit_SlotEvents_end : (let s := tWith ({ · with terminating := true }) []
    (s.slot 0).terminating = true ∧ s.accesses = [] ∧ s.enginesOut 0 = false ∧ (s.slot 0).failures = [] ∧ (s.slot 0).rfaults = [] ∧ Rising s.running ∧
      Rising ((s.slot 0).watches.map (·.1))) := by
  unfold Rising; decide +kernel
/-- The front end of creel 0 delivers an ADD, a branch, a JOIN, a MOVI and a J; and a word of an unmapped page. -/
def tFront (pc w : Nat) : State :=
  { tWith tAtt [] with
    weaves := [(1, { tWeave with fetchPc := pc })]
    creels := [(0, { Creel.initial with tlb := [tLocal 0 0], icache := tLines })] }.writeAs 1 (creelLoc 0 0x1004) (natBytes w 4)
theorem wit_SlotEvents_deliver : ∀ w ∈ [0x04514120, 0x40000000, 0x68000000, 0x34000000, 0x58000004], (let s := tFront 0x1004 w
    s.nextServed 0 = some (0, 1) ∧ s.attachedMembers 1 = [0] ∧
      (match mapFind s.weaves 1 with
        | some x => (match (s.frontFetch 1 x 0).2 with
          | .ok (some v) => v.1.toNat == w
          | _ => false)
        | none => false) = true) := by
  decide +kernel
/-- An address of 2^47, and a page whose walk is still to come. -/
theorem wit_SlotEvents_fault : (match ((tFront (2 ^ 47) 0).frontFetch 1 { tWeave with fetchPc := 2 ^ 47 } 0).2 with
    | .error t => t.cause == 0x05
    | _ => false) = true ∧ (match ((tFront 0x50000 0).frontFetch 1 { tWeave with fetchPc := 0x50000 } 0).2 with
    | .ok none => true
    | _ => false) = true ∧ (tFront (2 ^ 47) 0).nextServed 0 = some (0, 1) := by
  decide +kernel
/-- A fill of an instruction line that the creel's instruction cache holds. -/
theorem wit_SlotEvents_fill : (let s := { tWith ({ · with wait := .ifill 0x1004 0 }) [] with creels := [(0, { Creel.initial with icache := tLines })] }
    (s.slot 0).wait = .ifill 0x1004 0 ∧ 0 ≤ s.cycle ∧ (s.waitOf 0 .none).xlate 0 false 0x1004 = (s.waitOf 0 .none, some (tLocal 0 0)) ∧
      (match (s.waitOf 0 .none).fetchPlace 0 0x1004 false (tLocal 0 0) with
        | .ok p => p == tPlace 0x1004
        | .error _ => false) = true ∧ Memory.wf (s.waitOf 0 .none).mem = true ∧ (s.waitOf 0 .none).bad = [] ∧ (s.waitOf 0 .none).soft = [] ∧
      Rising ((s.waitOf 0 .none).tags.map (·.1))) := by
  unfold Rising; decide +kernel
/-- ASID 0's tables at 0x200000, 0x201000 and 0x202000: page 5 maps to 0. ASID 1's root entry is of world 1, ASID 2's table is not aligned. -/
def tWalked (asid page : Nat) (at_ : Option (Nat × Nat)) : Walk := ⟨7, asid, false, 0, page, true, 0, at_, [(0, page * 2 ^ 16), (sweepReq 0, page * 2 ^ 16)]⟩
def tWalk (asid page : Nat) (at_ : Option (Nat × Nat)) : State :=
  (((({ tWith ({ · with wait := .walk }) [] with
    creels := [(0, { Creel.initial with roots := [(0, 0x200001), (2, 2 ^ 58 + 0x200001), (4, 0x200101)],
                                        walks := [tWalked asid page at_] })] }.writeAs 1 0x200000
      (natBytes 0x201001 8)).writeAs 1 0x201000 (natBytes 0x202001 8)).writeAs 1 0x202000 (natBytes 0x203001 8)).writeAs 1 0x203028 (natBytes 0x47B 8))
theorem wit_SlotEvents_walk : ∀ c ∈ [(0, 5, none, WalkStep.next 2 0x200000), (0, 5, some (2, 0x200000), .next 3 0x201000),
      (0, 5, some (3, 0x201000), .next 4 0x202000), (0, 5, some (5, 0x203000), .leaf (tLocal 5 0)), (0, 6, some (5, 0x203000), .fault (.cause 5)),
      (1, 5, none, .fault (.cause 7)), (2, 5, none, .fault (.cause 5)), (3, 5, none, .fault (.cause 5))],
    (let s := tWalk c.1 c.2.1 c.2.2.1
     s.walkDone 0 7 = some (tWalked c.1 c.2.1 c.2.2.1) ∧ s.walkStep 0 (tWalked c.1 c.2.1 c.2.2.1) = (s, c.2.2.2) ∧ (s.slot 0).wait = .walk ∧
       (s.creel 0).updates = [] ∧ ((tWalked c.1 c.2.1 c.2.2.1).reqs.map (·.1)).Nodup ∧ Clean s 0x200000 8 ∧ Clean s 0x203028 16) := by
  unfold Clean; decide +kernel
/-- A sector fill, and accesses of each kind that are due. -/
theorem wit_SlotEvents_sector : (let s := { tState with fills := [⟨7, 0, 0x40000000, false, 0, 0⟩] }
    s.fills.find? (·.id == 7) = some ⟨7, 0, 0x40000000, false, 0, 0⟩ ∧ Rising ((s.core 0).l2.map (·.1)) ∧ s.l2HasRoom 0 0x40000000 = true) := by
  unfold Rising; decide +kernel
theorem wit_SlotEvents_access : ∀ k ∈ [AccKind.store, .load 6, .gldData 6 1 none, .gldData 6 1 (some none), .gldTrap ⟨0x09, 0, false⟩, .gld 6 0],
    ∀ r ∈ [true, false], (let q : Part := ⟨0x200, 0x200, none, true, 0, false, 16, 8, 0, 5⟩
     let a : Access := ⟨7, 0, k, [q], 10, 10, r, false, 0, 0, false, 0, 0, false, 0x1000, 0⟩
     let s := { tState with accesses := [a], regs := [(10, ⟨0, false, false, 7⟩)] }
     s.accesses.find? (·.id == a.id) = some a ∧ a.due ≤ s.cycle ∧ Clean s (q.gpa / 128 * 128) (q.size + 256) ∧ Clean s q.gpa q.size ∧ NoBarrierWait s q.gpa q.size ∧
       (s.entry a.entry).tok = a.id ∧ s.preqs = [] ∧ s.gldServes a q = true ∧ isDram (lpaOf q.gpa) = false ∧ s.partitionRefuses 0 q.gpa q.size = false ∧
       Memory.wf s.mem = true ∧ Rising (s.tags.map (·.1)) ∧ (s.slot 0).terminating = false ∧ s.soft = []) := by
  unfold Clean NoBarrierWait Rising; decide +kernel

/-! #### Events: watches and pulls -/

/-- An arm of slot 0 on a word of creel 0, and on one of creel 1; granule 0 of creel 0 locked to another slot, or not. -/
def tArm (stage : ArmStage) (gpa thr : Nat) : Arm := ⟨7, 0, 2, gpa, gpa, BitVec.ofNat 64 thr, stage, 0, 0⟩
def tArms (a : Arm) (locked : Bool) : State :=
  { tState with arms := [a], slots := [(0, tSlot), (1, { tSlot with slock := locked, sbase := 0, sbound := 1 })] }
theorem wit_WatchPullEvents : ∀ thr ∈ [0, 1], ∀ g ∈ [0x200, 2 ^ 45 + 0x200], ∀ l ∈ [true, false], (let a := tArm .sent g thr
    let s := tArms a l
    s.arms.find? (·.id == a.id) = some a ∧ a.due ≤ s.cycle ∧ s.answers 0 (linOf a.gpa) = true ∧ (s.partitionRefuses 0 a.gpa 8 = true ↔ l ∧ g = 0x200) ∧
      Clean s a.gpa 8 ∧ (a.thr ≤ BitVec.ofNat 64 (s.readAs (s.slotKey 0) a.gpa 8) ↔ thr = 0) ∧ s.portArms (linOf a.gpa) < 4096) := by
  unfold Clean; decide +kernel
/-- A port whose 4,096 entries arms of another creel occupy. -/
theorem wit_WatchPullEvents_port : (let s := { tState with arms := tArm .sent (2 ^ 45) 1 :: List.replicate 4096 (tArm .held (2 ^ 45) 1) }
    s.arms.find? (·.id == 7) = some (tArm .sent (2 ^ 45) 1) ∧ Clean s (2 ^ 45) 8 ∧ s.portArms (linOf (2 ^ 45)) = 4096) := by
  refine ⟨rfl, fun _ _ => ⟨rfl, List.not_mem_nil⟩, ?_⟩
  show (List.filter _ (_ :: List.replicate 4096 _)).length = 4096
  rw [List.filter_cons_of_neg (by decide), List.filter_replicate, if_pos (by decide), List.length_replicate]
/-- An arm that waits for room there, and finds some. -/
theorem wit_WatchPullEvents_queued : (let a := tArm .queued (2 ^ 45) 1
    let s := { tState with arms := [a] }
    s.arms.find? (·.id == a.id) = some a ∧ s.portArms (linOf a.gpa) < 4096 ∧ (∀ b ∈ s.armsQueued (linOf a.gpa), a.id ≤ b.id) ∧
      s.answers 0 (linOf a.gpa) = true) := by
  decide +kernel
theorem wit_WatchPullEvents_back : ∀ st ∈ [ArmStage.answered 5, .refused, .withdrawn true, .withdrawn false], (let a := tArm st 0x200 1
    (tArms a false).arms.find? (·.id == a.id) = some a ∧ a.stage = st ∧ a.due ≤ (tArms a false).cycle) := by
  decide +kernel
/-- A PULL of 32 bytes from 0x1000 to 0x400: requests before and at its end, from a page that is mapped and from one that is not; a PULLX of a base that
is not aligned. -/
def tCmd (fn b ctl cur : Nat) : PullCmd :=
  ⟨7, 0, 0, fn, 0x400, b, ctl, [⟨0x400, 32, tPlace 0x400⟩], [⟨0x1000, 24, tPlace 0x1000⟩], [⟨0x800, 8, tPlace 0x800⟩], 0x13000, 0x1000, 0, 0, false, cur,
    false, none, none, none, [], none, [], 0, 1, [⟨0, 8, tPlace 0⟩], 0, 0⟩
def tPulls (cmd : PullCmd) (rs : List PullReq) : State :=
  { tState with creels := [(0, { Creel.initial with pulls := [cmd], tree := [(0, 0xFFFFF000001)] })], preqs := rs }
theorem wit_WatchPullEvents_issue : (let s := tPulls (tCmd 0 0x1000 32 0) []
    (s.creel 0).pulls.find? (fun p => p.ch == 0 && !p.issued) = some (tCmd 0 0x1000 32 0) ∧
      (match s.nextPull (tCmd 0 0x1000 32 0) with
        | (_, .chunk 0 32 0x1000 32 c) => c == { tCmd 0 0x1000 32 0 with cur := 32 }
        | _ => false) = true ∧
      (match s.pullSource (tCmd 0 0x1000 32 0) 0x1000 with
        | (_, .ok p) => p.gpa == 0x1000 && linOf p.gpa == 0
        | _ => false) = true ∧
      (match s.pullSource (tCmd 0 0x1000 32 0) (2 ^ 45) with
        | (t, .ok p) => linOf p.gpa == 1 && t.budgetOpen 0 1
        | _ => false) = true ∧
      (match s.pullSource (tCmd 0 0x1000 32 0) (2 ^ 50) with
        | (_, .wait) => true
        | _ => false) = true) := by
  decide +kernel
/-- A source page whose walk has found a fault. -/
theorem wit_WatchPullEvents_source : (let s := { tPulls (tCmd 0 (2 ^ 50) 32 0) [] with
      creels := [(0, { Creel.initial with pulls := [tCmd 0 (2 ^ 50) 32 0], wfaults := [⟨unitReq 7, 2 ^ 34, .cause 0x06⟩] })] }
    (match s.nextPull (tCmd 0 (2 ^ 50) 32 0) with
      | (t, .chunk _ _ va _ c) => (match t.pullSource c va with
        | (_, .stop 1 0) => true
        | _ => false)
      | _ => false) = true) := by
  decide +kernel
theorem wit_WatchPullEvents_last : ((match (tPulls (tCmd 0 0x1000 32 32) []).nextPull (tCmd 0 0x1000 32 32) with
      | (_, .last) => true
      | _ => false) &&
    (match ((tPulls (tCmd 1 0x1000 4 0) []).writeAs 1 0x1000 (natBytes 4 8)).nextPull (tCmd 1 0x1000 4 0) with
      | (_, .stop _ 7 0 0) => true
      | _ => false)) = true := by
  decide +kernel
/-- Requests that the owner serves, refuses for a partition, and refuses for a tree; answers that write a word. -/
def tReq (answered : Bool) : PullReq := ⟨9, 0, 7, 0, 8, 0x1000, 0x1000, 16, 8, true, 0, answered, 0, 5, 8, 0, 0⟩
theorem wit_WatchPullEvents_serve : ∀ fn ∈ [0, 4], (let s := tPulls (tCmd fn 0x1000 32 8) [tReq false]
    s.preqs.find? (·.id == 9) = some (tReq false) ∧ s.findPull 0 7 = some (tCmd fn 0x1000 32 8) ∧ s.reqServes (tReq false) = true ∧
      (match ({ s with fresh := s.fresh + 1 } : State).portFind 0 0x1000 8 true 0 with
        | (t, .ok l) => decide (t = { s with fresh := s.fresh + 1 }) && l == 0x1000
        | _ => false) = true ∧ Clean s 0x1000 8) := by
  unfold Clean; decide +kernel
/-- The second half of a request's words is uncorrectable; a request for a home of an empty mask. -/
theorem wit_WatchPullEvents_serve_bad : (let s := { tPulls (tCmd 0 0x1000 32 8) [tReq false] with bad := [0x1000], creels := [] }
    s.firstBad 0x1000 8 = some 0 ∧ NoSoft s 0x1000 8) ∧
    (match (tPulls (tCmd 0 0x1000 32 8) []).portFind 0 0x40000000 8 true 0 with
      | (_, .error c) => c == 6
      | _ => false) = true := by
  unfold NoSoft; decide +kernel
theorem wit_WatchPullEvents_refuse : (let s := { tPulls (tCmd 0 0x1000 32 8) [tReq false] with
      slots := [(0, tSlot), (1, { tSlot with slock := true, sbase := 1, sbound := 2 })] }
    (match s.portFind 0 0x1000 8 true 0 with
      | (t, .error c) => decide (t = s) && c == 7
      | _ => false) = true) := by
  decide +kernel
theorem wit_WatchPullEvents_tree : (let c : Creel := { Creel.initial with tree := [(0, 1)] }
    treeValid c 0 = true ∧ treeKey c 0 = 0 ∧ treeParent c 0 ≠ 0xFFFFF ∧ treeLin c 0 (treeParent c 0) = 0) ∧
    treeValid Creel.initial 0 = false := by
  decide +kernel
theorem wit_WatchPullEvents_land : (let s := tPulls (tCmd 0 0x1000 32 32) [tReq true]
    let q := tPlace 0x400
    pullFe 32 = false ∧ (tReq true).good = 8 ∧ spanPlace (tCmd 0 0x1000 32 32).dst (0x400 + (tReq true).start) = some q ∧ isDram (lpaOf q.gpa) = false ∧
      s.partitionRefuses 0 q.gpa 8 = false ∧ Clean s (q.gpa / 16 * 16) 16 ∧ Memory.wf s.mem = true ∧ NoBarrierWait s q.gpa 8 ∧
      (s.landPull (tCmd 0 0x1000 32 32) (tReq true)).2.2 = (8, 0)) := by
  unfold Clean NoBarrierWait; decide +kernel
/-- No partition is locked, no slot waits, and no word has an error. -/
def tCalm (cmd : PullCmd) : State := { tPulls cmd [] with creels := [(0, { Creel.initial with pulls := [cmd], tree := [(0, 1)] })] }
theorem tCalm_creel (cmd : PullCmd) (k : Nat) : ((tCalm cmd).creel k).bwaits = [] ∧ ((tCalm cmd).creel k).lwaits = [] := by
  have h : (tCalm cmd).creel k = { Creel.initial with pulls := [cmd], tree := [(0, 1)] } ∨ (tCalm cmd).creel k = Creel.initial := by
    cases k with
    | zero => exact .inl rfl
    | succ n => exact .inr rfl
  obtain h | h := h <;> rw [h] <;> exact ⟨rfl, rfl⟩
theorem wit_WatchPullEvents_calm (cmd : PullCmd) : Memory.wf (tCalm cmd).mem = true ∧ Rising (tCalm cmd).empties ∧ (tCalm cmd).bad = [] ∧
    (tCalm cmd).soft = [] ∧ (∀ g, (tCalm cmd).partitionRefuses 0 g 8 = false) ∧ (∀ k, NoBarriers (tCalm cmd) k) ∧
    ∀ k, ((tCalm cmd).creel k).lwaits = [] := by
  refine ⟨rfl, List.Pairwise.nil, rfl, rfl, fun g => ?_, fun k => (tCalm_creel cmd k).1, fun k => (tCalm_creel cmd k).2⟩
  have : ∀ n, (tCalm cmd).lockedElsewhere (linOf g) n 0 = false := fun n => rfl
  simp [State.partitionRefuses, this]
/-- PULL that is done, one that has stopped; CPULL before its first child, and after its last; a PULLX header and index. -/
theorem wit_WatchPullEvents_ends : (let c := { tCmd 0 0x1000 32 32 with issued := true }
    (tCalm c).wroteOf c = [] ∧ (tCalm c).preqs = [] ∧ c.fail = none ∧ ({ c with fail := some ⟨8, 5, 0, 0⟩ } : PullCmd).fail = some ⟨8, 5, 0, 0⟩ ∧
      c.comp = [⟨0x800, 8, tPlace 0x800⟩] ∧ (tPlace 0x800).gpa % 8 = 0 ∧ (tPlace 0x800).gpa % 2 ^ 45 < 0xC00000) ∧
    (let c := { tCmd 4 0x1000 8 8 with phase := 2 }
     (tCalm c).wroteOf c = [] ∧ (tCalm c).treeArm c = none ∧ treeNch ((tCalm c).creel 0) 0 = 0 ∧ c.iseq = [⟨0, 8, tPlace 0⟩] ∧
       treeNch { Creel.initial with tree := [(0, 2 ^ 12 + 1)] } 0 = 2 ∧ spanPlace c.src c.b = some (tPlace 0x1000) ∧
       spanPlace c.dst c.a = some (tPlace 0x400) ∧ c.a ≠ c.b) ∧
    (let c := tCmd 1 0x1000 (2 + 2 ^ 36) 0
     spanPlace c.src c.b = some (tPlace 0x1000) ∧ spanPlace c.src (c.b + 8) = some (tPlace 0x1008) ∧ c.cur < 2 * 16 ∧
       opFits 0 0 = true ∧ opFits 5 0 = true) := by
  decide +kernel
/-- A PULLX at its first element and at its last, with indices that are all ones and that are not. -/
theorem wit_WatchPullEvents_pair : ∀ cur ∈ [0, 16], ∀ w ∈ [5 + 2 ^ 32 * 6, 2 ^ 64 - 1], (let c := { tCmd 1 0x1000 (2 + 2 ^ 36) cur with head := some 0x2000, idx := some w }
    let e := c.cur / 16
    c.cur < 2 * 16 ∧ (w / 2 ^ (32 * (e % 2)) % 2 ^ 32 = 2 ^ 32 - 1 ↔ w = 2 ^ 64 - 1) ∧ (e + 1 = 2 ↔ cur = 16)) := by
  decide +kernel
/-- A PULLM whose local list of capacity 2 stands at 0x400 and its overflow list at 0x600. -/
theorem wit_WatchPullEvents_merge : (let h : MergeHead := ⟨1, 2, 0x600, 0, 2, [⟨0x400, 32, tPlace 0x400⟩], [⟨0x400, 32, tPlace 0x400⟩], [⟨0x600, 32, tPlace 0x600⟩]⟩
    h.src = [⟨0x400, 16 + 8 * max h.count h.cap, tPlace 0x400⟩] ∧ h.dst = h.src ∧ h.spill = [⟨h.ov, 16 + 8 * h.ovCap, tPlace 0x600⟩] ∧
      h.ovCount ≤ h.ovCap ∧ (tPlace 0x400).gpa + 32 ≤ (tPlace 0x600).gpa) ∧
    ([(1, 2), (3, 4)] : List (Nat × Nat)).Pairwise (fun x y => x.1 < y.1) ∧ ascending [(1, 2), (3, 4)] = true ∧ ascending [(3, 4), (1, 2)] = false := by
  decide +kernel
/-- A root of a tree, and a leaf whose parent at rank 0 has reached instance 0; a node that has waited past its limit. -/
theorem wit_WatchPullEvents_peer : (let s := tPulls (tCmd 4 0x1000 32 0) []
    (s.creel 0).pulls.find? (fun p => p.fn == 4 && p.group == 0) = some (tCmd 4 0x1000 32 0) ∧ treeParent (s.creel 0) 0 = 0xFFFFF) ∧
    (let s := { tPulls (tCmd 4 0x1000 32 0) [] with cycle := 2 ^ 41, creels := [(0, { Creel.initial with pulls := [tCmd 4 0x1000 32 0], tree := [(0, 1)] })] }
     (tCmd 4 0x1000 32 0).awaited (s.creel 0) = some (0, 0) ∧ treeAddr (s.creel 0) 0 0 (treeIseq (s.creel 0) 0) = 0 ∧
       (match s.pullSource (tCmd 4 0x1000 32 0) 0 with
        | (t, .ok p) => decide (t = s) && p.gpa == 0
        | _ => false) = true ∧ 2 ^ (s.creel 0).params.jwd < s.cycle ∧ NoBarriers s 0 ∧ (s.creel 0).lwaits = [] ∧
       s.wroteOf (tCmd 4 0x1000 32 0) = [] ∧ s.treeArm (tCmd 4 0x1000 32 0) = none ∧
       ({ tCmd 4 0x1000 32 0 with inst := 2 ^ 64 + 1 } : PullCmd).awaited (s.creel 0) = some (0, 2 ^ 64) ∧
       (match ({ s with cores := [] } : State).pullSource (tCmd 4 0x1000 32 0) 0 with
        | (_, .wait) => true
        | _ => false) = true) := by
  unfold NoBarriers; decide +kernel
theorem wit_WatchPullEvents_budget : (let s := { tArms (tArm .unsent (2 ^ 45) 1) false with cycle := 4096 }
    (s.creel 0).periodEnd ≤ s.cycle ∧ s.arms = [tArm .unsent (2 ^ 45) 1] ∧ (tArm .unsent (2 ^ 45) 1).slot / 512 = 0) := by
  decide +kernel

/-! #### Events: engines -/

/-- A matrix command of 1 by 1 by 1 that is due: MZERO, MMA over one step of one group, and a row of MIN and of MOUT in creel SRAM. -/
def tMCmd (fn a : Nat) : MCmd := ⟨7, 0, fn, a, 0x400, 0, 0x100000081, 4, 4, 1, 0, 0, 0x11000, 0x1000, 0, 0, false, 0, 1, []⟩
def tMat1 (c : MCmd) : State := { tState with cycle := 5, cores := [(0, { tCore with mq := [c] })] }
def tPart (s : State) (c : MCmd) : State × Except EStop Unit := s.acting c.slot c.world c.asid c.mode fun s => s.matrixPart c
theorem wit_EngineEvents : ((tMat1 (tMCmd 1 0x400)).core 0).mq.find? (·.id == 7) = some (tMCmd 1 0x400) ∧ (tMCmd 1 0x400).due ≤ 5 ∧
    (tMat1 (tMCmd 1 0x400)).unitWaits 0 (unitReq 7) = false ∧ (tMat1 (tMCmd 1 0x400)).cycle = 5 ∧
    Rising (((tMat1 (tMCmd 1 0x400)).core 0).tiles.map (·.1)) ∧ cfgK (tMCmd 2 0).cfg = 1 ∧ cfgM (tMCmd 2 0).cfg = 1 ∧
    cfgN (tMCmd 2 0).cfg = 1 ∧ nth (tMCmd 4 0).rows 0 = some 0 ∧ descCode (tMCmd 4 0).fc = 1 ∧ ((tMat1 (tMCmd 2 0x400)).slot 0).terminating = false := by
  unfold Rising; decide +kernel
/-- Parts that are done, the last of 1 and the first of 2; an operand in a page whose walk is to come, and in one without a translation. -/
theorem wit_EngineEvents_run : (∀ fn ∈ [1, 2, 3, 4, 5], (match (tPart (tMat1 (tMCmd fn 0x400)) (tMCmd fn 0x400)).2 with
      | .ok _ => true
      | _ => false) = true ∧ (tMCmd fn 0x400).parts ≤ 0 + 1) ∧ 0 + 1 < ({ tMCmd 2 0x400 with cfg := 0x300000081 } : MCmd).parts ∧
    (match (tPart (tMat1 (tMCmd 2 0x100000)) (tMCmd 2 0x100000)).2 with
      | .error .walk => true
      | _ => false) = true ∧
    (match (tPart { tMat1 (tMCmd 2 0x100000) with creels := [(0, { Creel.initial with wfaults := [⟨unitReq 7, 0x10, .cause 0x05⟩] })] } (tMCmd 2 0x100000)).2 with
      | .error (.fault e) => e.detail == 1
      | _ => false) = true := by
  decide +kernel
theorem wit_EngineEvents_groups : (let s := tMat1 (tMCmd 2 0x400)
    (match s.fetchGroup (tMCmd 2 0x400) false [(0, 0)] with
      | (t, .ok xs) => decide (t = s) && xs.length == 1
      | _ => false) &&
    (match s.fetchGroup (tMCmd 2 0x400) true [(0, 0)] with
      | (t, .ok xs) => decide (t = s) && xs.length == 1
      | _ => false)) = true := by
  decide +kernel
/-- An operand of each width, and a block scale. -/
theorem wit_EngineEvents_elements : (∀ w ∈ [8, 16, 4], ∃ k ∈ List.range 20, codeWidth k = w) ∧
    (let c : MCmd := { tMCmd 3 0x400 with fa := 4 + 2 ^ 8, sa := 0x600 }
     descBs c.fa = true ∧ (match (tMat1 c).fetchCode c c.a (descCode c.fa) 0 0 with
       | (t, .ok _) => decide (t = tMat1 c)
       | _ => false) = true ∧ (match (tMat1 c).fetchOperand c 0x600 1 with
       | (t, .ok _) => decide (t = tMat1 c)
       | _ => false) = true ∧ ((tMat1 c).core 0).mq.find? (·.id == c.id) = some c) := by
  decide +kernel
theorem wit_EngineEvents_rows : (let s := tMat1 (tMCmd 4 0x400)
    let sp : Span := ⟨0x400, 4, tPlace 0x400⟩
    (∀ n ∈ [Need.read, .write], (match s.engineSpans (unitReq 7) 0 0x400 4 n true 2 with
      | (t, .ok l) => decide (t = s) && decide (l = [sp])
      | _ => false) = true) ∧ tIs (s.readSpans 0 [sp]) s [0, 0, 0, 0] = true ∧
      Clean s 0x400 36 ∧ Memory.wf s.mem = true ∧ Rising s.empties) := by
  unfold Clean Rising; decide +kernel
/-- A Gaussian command on a message of dimension 1 with η = 2 and Λ = 4 at 0x400, ready to start, and completed with writes, with a failure, and with
the value of GRES. -/
def tGCmd (fn : Nat) (started quiet : Bool) (r : GResult) : GCmd :=
  ⟨7, 0, fn, 0x400, 0x400, 0, 0x400, 10, 10, 0x3F800000, quiet, 0x12000, 0x1000, 0, 0, false, 0, started, 0, r, []⟩
def tGau (g : GCmd) : State :=
  ((({ tState with cycle := 8, cores := [(0, { tCore with gq := [g] })], regs := [(10, ⟨0, false, false, 7⟩)] }.writeAs 1 0x400 (natBytes 1 8)).writeAs 1
    0x408 (natBytes 0x40000000 4)).writeAs 1 0x428 (natBytes 0x40800000 4))
theorem wit_EngineEvents_start : (let g := tGCmd 5 false false .none
    (tGau g).gaussNext 0 = some g ∧ ((tGau g).gNext g).2 = .start ∧
      (match (tGau g).gCompute g with
        | (_, .ok o) => o.ws.map (fun x => (x.1, x.2.1)) == [(0x4B8, 32), (0x400, 8)] && o.v == 0 && (runBlocks o.ws).all fun b => !(tGau g).badBlock b
        | _ => false) = true) := by
  decide +kernel
/-- A wait for records that has passed them all, and one for a page whose walk is to come; a block that the writes cover in part and that is
uncorrectable; a record of dimension 9. -/
theorem wit_EngineEvents_waits : (let g := { tGCmd 5 false false .none with ctl := 2 ^ 9 }
    gWf g.ctl = true ∧ (tGau g).gaussNext 0 = some g ∧ (match ((tGau g).gNext g).2 with
      | .passed _ => true
      | _ => false) = true) ∧
    (let g := { tGCmd 5 false false .none with ctl := 2 ^ 9, a := 0x100000 }
     ((tGau g).gNext g).2 = .walk) ∧
    (let g := tGCmd 5 false false .none
     let s := { tGau g with bad := [0x4B0] }
     (match s.gCompute g with
        | (t, .ok o) => (runBlocks o.ws).any fun b => t.badBlock b && !runsCover o.ws b
        | _ => false) = true ∧
     (match ((tGau g).writeAs 1 0x400 (natBytes 9 8)).gCompute g with
        | (_, .error (.fault f)) => f.detail == 6
        | _ => false) = true) := by
  decide +kernel
theorem wit_EngineEvents_fail : (let g := { tGCmd 5 false false .none with tau := 0x41000000 }
    (match (tGau g).gCompute g with
      | (_, .error (.fail k)) => k == 0x11
      | _ => false) = true) := by
  decide +kernel
theorem wit_EngineEvents_complete : ∀ q ∈ [true, false], ∀ r ∈ [GResult.writes [(0x4B8, 32, 5), (0x400, 8, 1)] 0, .fail 0x11, .fail 0x12, .fault],
    (let g := tGCmd 5 true q r
     ((tGau g).core 0).gq.find? (fun x => x.started && decide (x.due ≤ (tGau g).cycle)) = some g ∧ Memory.wf (tGau g).mem = true ∧
       Rising (tGau g).empties ∧ (tGau g).soft = [] ∧ NoBarriers (tGau g) 0 ∧ ((tGau g).creel 0).lwaits = [] ∧ ((tGau g).slot 0).terminating = false) := by
  unfold Rising NoBarriers; decide +kernel
theorem wit_EngineEvents_gres : ∀ r ∈ [GResult.writes [] 5, .fail 0x12, .fault], (let g := tGCmd 6 true false r
    ((tGau g).core 0).gq.find? (fun x => x.started && decide (x.due ≤ (tGau g).cycle)) = some g ∧ ((tGau g).entry 10).tok = g.id ∧
      ((tGau g).slot 0).terminating = false ∧ ((tGau g).slot 0).failures.length < 8) := by
  decide +kernel
/-- The reads of one record of each kind, and of the update of chapter 13's worked example. -/
theorem wit_EngineEvents_records : (let s := tGau (tGCmd 5 false false .none)
    let g := tGCmd 5 false false .none
    (match s.gPlace g 0x400 256 256 true with
      | (t, .ok p) => decide (t = s) && p == 0x400
      | _ => false) = true ∧ s.bad = [] ∧ s.soft = [] ∧
    (match s.gMsg g 0x400 true with
      | (t, .ok r) => decide (t = s) && r.d == 1
      | _ => false) = true) := by
  decide +kernel
/-- Messages of dimension 1: (2, 4) and (1, 4); and an empty record with half damping. -/
def tMsg (eta lam : Nat) : GRec := ⟨0x400, 0x400, 1 + 2 ^ 64 * eta + 2 ^ 320 * lam⟩
def tEmpty : GRec := ⟨0x800, 0x800, 0x8000⟩
theorem wit_EngineEvents_values : (tMsg 0x40000000 0x40800000).d = 1 ∧
    (∀ v ∈ (tMsg 0x40000000 0x40800000).entries 1, fpFinite v = true) ∧ pivotPasses 0 0 = false ∧ fpFinite 0x7F800000 = false ∧ tEmpty.d = 0 ∧
    (let x := (tMsg 0x40000000 0x40800000).entries 1
     let y := (tMsg 0x3F800000 0x40800000).entries 1
     (∀ v ∈ x ++ y, fpFinite v = true) ∧ 0 < x.length ∧ (∀ q, q < x.length → (fpUnits (getNth x q) - fpUnits (getNth y q)).natAbs ≤
       (fpUnits (getNth x 0) - fpUnits (getNth y 0)).natAbs) ∧
       fpFinite (fp32.round 0 (.fin false (fpUnits (getNth x 0) - fpUnits (getNth y 0)).natAbs (-149))) = true) := by
  decide +kernel
/-- Outputs of GADD, and of GDAMP with damping. -/
theorem wit_EngineEvents_output : OutputOk tEmpty 1 [0x40400000, 0x41000000] false ∧
    (let o := { tMsg 0x40000000 0x40800000 with raw := 0x8001 + 2 ^ 64 * 0x40000000 + 2 ^ 320 * 0x40800000 }
     o.d = 1 ∧ OutputOk o 1 ((tMsg 0x3F800000 0x40800000).entries 1) (decide (o.d ≠ 0))) := by
  unfold OutputOk; decide +kernel
/-- A belief of two messages of dimension 1, and what it leaves out of each. -/
theorem wit_EngineEvents_belief : (let ms := [tMsg 0x40000000 0x40800000, tMsg 0x3F800000 0x40800000]
    let start := List.replicate 2 0
    let add := fun (acc : List Nat) (r : GRec) => (acc.zip (r.entries 1)).map fun x => fp32.add 0 x.1 x.2
    (∃ r ∈ ms, r.va ≠ 0) ∧ (∀ r ∈ ms, r.d = 1 ∧ ∀ v ∈ r.entries 1, fpFinite v = true) ∧ (∀ k, ∀ v ∈ (ms.take k).foldl add start, fpFinite v = true) ∧
      OutputOk tEmpty 1 (ms.foldl add start) false ∧
      ∀ x ∈ [tEmpty, tEmpty].zip ms, OutputOk x.1 1 (((ms.foldl add start).zip (x.2.entries 1)).map fun x => fp32.sub 0 x.1 x.2) true) := by
  refine ⟨by decide, by decide +kernel, ?_, by unfold OutputOk; decide +kernel, by unfold OutputOk; decide +kernel⟩
  intro k
  match k with
  | 0 => decide +kernel
  | 1 => decide +kernel
  | k + 2 => rw [List.take_of_length_le (by simp)]; decide +kernel

/-- The values of an elimination, worked out from its start. -/
def tElim (n : Nat) (inJ : Nat → Bool) (A : Nat → Nat → Nat) (H : Nat → Nat) : Nat → (Nat → Nat → Nat) × (Nat → Nat)
  | 0 => (A, H)
  | p + 1 =>
    let x := tElim n inJ A H p
    let row := fun r => if p ≤ r then x.1 p r else x.1 r p
    let l := fun r => fp32.div 0 (row r) (row p)
    let u := fun r => decide (r < n) && (inJ r || decide (p < r))
    if inJ p then x
    else (fun r q => if u r && u q then lessProduct (x.1 r q) (l r) (row q) else x.1 r q,
      fun r => if u r then lessProduct (x.2 r) (l r) (x.2 p) else x.2 r)
theorem tEliminates (n tau : Nat) (inJ : Nat → Bool) (A : Nat → Nat → Nat) (H : Nat → Nat)
    (h : ∀ p, p < n → inJ p = false →
      let x := tElim n inJ A H p
      let y := tElim n inJ A H (p + 1)
      let row := fun r => if p ≤ r then x.1 p r else x.1 r p
      pivotPasses tau (row p) = true ∧ ∀ r, r < n → fpFinite (fp32.div 0 (row r) (row p)) = true ∧ fpFinite (y.2 r) = true ∧
        ∀ q, q < n → fpFinite (y.1 r q) = true) :
    Eliminates n tau inJ (fun p => (tElim n inJ A H p).1) (fun p => (tElim n inJ A H p).2) := by
  intro p hp
  cases hj : inJ p with
  | true => simp [tElim, hj]
  | false =>
    obtain ⟨h1, h2⟩ := h p hp hj
    have lt : ∀ r, (decide (r < n) && (inJ r || decide (p < r))) = true → r < n := fun r hr => by
      simp only [Bool.and_eq_true, decide_eq_true_eq] at hr; exact hr.1
    refine ⟨h1, fun r q _ => by simp only [tElim, hj]; rfl, fun r => by simp only [tElim, hj]; rfl, fun r hr => ?_, fun r q _ hr hq => ?_⟩
    · exact ⟨(h2 r (lt r hr)).1, (h2 r (lt r hr)).2.1⟩
    · exact (h2 r (lt r hr)).2.2 q (lt q hq)
theorem tFolds (f : Nat → Nat → Nat) (x : Nat) (l : List Nat) (h : ∀ k, k < l.length + 1 → fpFinite ((l.take k).foldl f x) = true) :
    FoldFinite f x l := by
  intro k
  by_cases hk : k < l.length + 1
  · exact h k hk
  · rw [List.take_of_length_le (by omega)]
    exact List.take_length (l := l) ▸ h l.length (by omega)
/-- The factor of chapter 13's worked example with its message (GUPD, and GELIM without it): h = (1, 0), J = ((2, −1), (−1, 1)); j = 1. -/
def tFactor : GRec := ⟨0x50000, 0x50000, 0x110042 + 2 ^ 64 * 0x3F800000 + 2 ^ 576 * (0x40000000 + 2 ^ 32 * 0xBF800000 + 2 ^ 64 * 0x3F800000)⟩
def tA (m : Nat) (r q : Nat) : Nat :=
  let x := tFactor.val (72 + 4 * (r * 2 - r * (r - 1) / 2 + (q - r)))
  if r = 0 ∧ q = 0 ∧ m ≠ 0 then fp32.add 0 x m else x
def tH (m : Nat) (r : Nat) : Nat := if r = 0 ∧ m ≠ 0 then fp32.add 0 (tFactor.val 8) m else tFactor.val (8 + 4 * r)
def tInJ (r : Nat) : Bool := decide (tFactor.off 1 ≤ r ∧ r < tFactor.off 1 + tFactor.dim 1)
theorem wit_EngineEvents_factor : tFactor.factorOk = true ∧ 1 < tFactor.v ∧ tFactor.n = 2 ∧ (∀ r, r < 2 → fpFinite (tFactor.val (8 + 4 * r)) = true) ∧
    (∀ k, k < 3 → fpFinite (tFactor.val (72 + 4 * k)) = true) ∧
    (∀ m ∈ [0, 0x40000000], Eliminates 2 0 tInJ (fun p => (tElim 2 tInJ (tA m) (tH m) p).1) (fun p => (tElim 2 tInJ (tA m) (tH m) p).2) ∧
      ∀ o ∈ [tEmpty], ∀ d ∈ [true, false],
        OutputOk o 1 (blockOf (tElim 2 tInJ (tA m) (tH m) 2).1 (tElim 2 tInJ (tA m) (tH m) 2).2 (tFactor.off 1) (tFactor.dim 1)) d) ∧
    (let x := tMsg 0x40000000 0x40000000
     x.d = tFactor.dim 0 ∧ fpFinite (x.val 8) = true ∧ fpFinite (x.val 40) = true ∧ tH 0x40000000 0 = fp32.add 0 (tFactor.val 8) (x.val 8) ∧
       tA 0x40000000 0 0 = fp32.add 0 (tFactor.val 72) (x.val 40) ∧ fpFinite (tH 0x40000000 0) = true ∧ fpFinite (tA 0x40000000 0 0) = true) := by
  refine ⟨by decide +kernel, by decide +kernel, by decide +kernel, by decide +kernel, by decide +kernel, fun m hm => ⟨tEliminates _ _ _ _ _ ?_, ?_⟩,
    by decide +kernel⟩
  · revert m; decide +kernel
  · unfold OutputOk; revert m; decide +kernel
/-- GSOLVE of ((2, 1), (1, 2)) x = (1, 1), with the diagonal of the inverse. -/
def tSolve : GRec :=
  ⟨0x400, 0x400, 2 + 2 ^ 64 * (0x3F800000 + 2 ^ 32 * 0x3F800000) + 2 ^ 320 * (0x40000000 + 2 ^ 32 * 0x3F800000 + 2 ^ 64 * 0x40000000)⟩
def tSA (r q : Nat) : Nat := tSolve.val (40 + 4 * (r * 2 - r * (r - 1) / 2 + (q - r)))
def tSE (p : Nat) : (Nat → Nat → Nat) × (Nat → Nat) := tElim 2 (fun _ => false) tSA (fun r => tSolve.val (8 + 4 * r)) p
def tSL (k p : Nat) : Nat := fp32.div 0 ((tSE p).1 p k) ((tSE p).1 p p)
def tMu1 : Nat := fp32.div 0 ((tSE 2).2 1) ((tSE 1).1 1 1)
def tW1 : Nat := (fp32.fma 0 (tSL 1 0) 0x3F800000 0 false + 2 ^ 31) % 2 ^ 32
theorem wit_EngineEvents_solve : tSolve.d = 2 ∧ (∀ v ∈ tSolve.entries 2, fpFinite v = true) ∧
    Eliminates 2 0 (fun _ => false) (fun p => (tSE p).1) (fun p => (tSE p).2) ∧
    FoldFinite (fun x k => lessProduct x (tSL k 0) tMu1) (fp32.div 0 ((tSE 2).2 0) ((tSE 0).1 0 0)) [1] ∧ fpFinite tMu1 = true ∧
    FoldFinite (fun x t => fp32.fma 0 (tSL 1 t) 0x3F800000 x false) 0 [0] ∧
    FoldFinite (fun x t => fp32.add 0 x (fp32.div 0 (fp32.mul 0 (if t = 0 then 0x3F800000 else tW1) (if t = 0 then 0x3F800000 else tW1))
      ((tSE t).1 t t))) 0 [0, 1] := by
  refine ⟨by decide +kernel, by decide +kernel, tEliminates _ _ _ _ _ (by decide +kernel), tFolds _ _ _ ?_, by decide +kernel, tFolds _ _ _ ?_, tFolds _ _ _ ?_⟩
  all_goals decide +kernel

/-! #### Events: links -/

/-- Port 0 of module 0, and a flit of its window. -/
def tLink (p : Port) : State := { tState with cycle := 20000, mods := [(0, { Module.initial with ports := [(0, p)] })] }
def tFlit (resent : Nat) : Flit := ⟨0, 0, 6, 0, 0, resent⟩

/-- A steady port, one whose key may not go on, and ones with and without a key pending, with flits of this and of an earlier generation. -/
theorem wit_LinkEvents : Port.initial.rot = false ∧ Port.initial.stop = false ∧ Port.initial.ctr < 2 ^ 64 - 2 ^ 16 ∧ Port.initial.unsent = [] ∧
    Port.initial.control = [] ∧ Port.initial.width ≠ 0 ∧ Port.initial.retrainAt = 0 ∧ Port.initial.ackSeq ≠ 0 ∧ Port.initial.rgen = 0 ∧
    (tLink { Port.initial with stop := true, pv := true }).link 0 = { Port.initial with stop := true, pv := true } ∧ Port.initial.pv = false ∧
    (∀ x ∈ [tFlit 0], x.gen = (0 : BitVec 15).toNat) ∧ ¬(∀ x ∈ [tFlit 0], x.gen = (1 : BitVec 15).toNat) := by
  decide +kernel
theorem wit_LinkEvents_counter : 2 ^ 64 - 2 ^ 32 ≤ ({ Port.initial with ctr := 2 ^ 64 - 2 ^ 32 } : Port).ctr ∧
    2 ^ 64 - 2 ^ 16 ≤ ({ Port.initial with ctr := 2 ^ 64 - 2 ^ 16 } : Port).ctr ∧ Port.initial.warned = false := by
  decide
/-- Lane failures: none, of the upper lanes, and of both halves; a port at half width; a retrained port of the same width and of another. -/
theorem wit_LinkEvents_lanes : laneWidth 0 = 3 ∧ laneWidth 0x10 = 1 ∧ laneWidth 0x11 = 0 ∧ Port.initial.width ≠ 0 ∧ Port.initial.newWidth = 3 ∧
    (let p := ((tLink { Port.initial with newWidth := 1, retrainAt := 20000 }).link 0)
     p.retrainAt ≠ 0 ∧ p.retrainAt ≤ 20000 ∧ p.newWidth ≠ 0 ∧ p.window = [] ∧ p.width ≠ p.newWidth) := by
  decide +kernel
/-- A replay request for one flit, a width notice, a request that is due again, an acknowledgement that is late. -/
theorem wit_LinkEvents_control : (let k := replayPayload [(0, 1)]
    let p := (tLink { Port.initial with control := [k], window := [tFlit 6] }).link 0
    k % 2 ^ 8 = 1 ∧ k ∈ p.control ∧ p.control.erase k = [] ∧ inRanges k (tFlit 6) = true ∧ (tFlit 6).resent < 7 ∧ p.window = [tFlit 6]) ∧
    ({ Port.initial with control := [2 + 1 * 2 ^ 64] } : Port).notice 1 = some (2 + 1 * 2 ^ 64) ∧
    (let p := ((tLink { Port.initial with asks := [(0, 1, 15904)], window := [tFlit 7], acked := 3616 }).link 0)
     p.width ≠ 0 ∧ p.retrainAt = 0 ∧ p.asks = [(0, 1, 15904)] ∧ 15904 + 4096 ≤ 20000 ∧ p.expect ≤ 0 ∧ p.held = [] ∧ p.window = [tFlit 7] ∧
       p.acked + 16384 ≤ 20000 ∧ 7 ≤ (tFlit 7).resent ∧ p.window.length < 512) := by
  decide +kernel
/-- Two ports to module 1: a request of the first goes over the second. -/
theorem wit_LinkEvents_reroute : (let p := { Port.initial with window := [⟨0, 0, 1, 5, 0, 7⟩] }
    let s := { tLink p with links := [(0, 32), (1, 33)] }
    ((s.link 0).window.map (fun x => (x.type_, x.payload)) ++ (s.link 0).unsent).filter (fun x => decide (1 ≤ x.1 ∧ x.1 ≤ 5)) = [(1, 5)] ∧
      s.otherPort 0 = some 1 ∧ (s.link 1).width ≠ 0 ∧ (s.link 1).retrainAt = 0 ∧ (s.link 1).stop = false ∧ (s.link 1).control = [] ∧ (s.link 1).rot = false ∧ (s.link 1).ctr < 2 ^ 64 - 2 ^ 16 ∧ (s.link 1).unsent = [] ∧
      (s.link 1).window.length < 512) ∧ (tLink Port.initial).otherPort 0 = none := by
  decide +kernel
theorem tField (n c k j r : Nat) : (n + 2 ^ (k + j + r) * c) / 2 ^ k % 2 ^ j = n / 2 ^ k % 2 ^ j := by
  rw [show 2 ^ (k + j + r) * c = 2 ^ k * (2 ^ j * (2 ^ r * c)) by rw [Nat.pow_add, Nat.pow_add, Nat.mul_assoc, Nat.mul_assoc],
    Nat.add_mul_div_left _ _ (Nat.two_pow_pos k), Nat.add_mul_mod_self_left]
theorem tLow (n c k : Nat) (h' : n < 2 ^ 64) (hk : 64 ≤ k) : (n + 2 ^ k * c) % 2 ^ k = n ∧ (n + 2 ^ k * c) / 2 ^ k = c := by
  have h : n < 2 ^ k := Nat.lt_of_lt_of_le h' (Nat.pow_le_pow_right (by decide) hk)
  refine ⟨by rw [Nat.add_mul_mod_self_left, Nat.mod_eq_of_lt h], ?_⟩
  rw [Nat.add_mul_div_left _ _ (Nat.two_pow_pos k), Nat.div_eq_of_lt h, Nat.zero_add]
/-- A flit of type 6 with a SEQ and parity and a good CRC: whatever the CRC function is, its field can hold what it asks for. Whether it opens is what
AES-GCM says, which Config leaves open: each way is a premise of some clause. -/
def tHead (seq : Nat) (par : Bool) : Nat := seq * 2 ^ 48 + 6 * 2 ^ 28 + par.toNat * 2 ^ 27
def tWire (seq : Nat) (par : Bool) : Nat := tHead seq par + 2 ^ 2016 * (Config.crc32 (tHead seq par)).toNat
theorem tWire_field (seq : Nat) (par : Bool) (k j r : Nat) (h : 2016 = k + j + r) :
    tWire seq par / 2 ^ k % 2 ^ j = tHead seq par / 2 ^ k % 2 ^ j := by
  unfold tWire; rw [h, tField]
theorem tBit (n k c : Nat) (h : n / 2 ^ k % 2 ^ 1 = c) : n.testBit k = decide (c = 1) := by
  subst h
  exact Nat.testBit_eq_decide_div_mod_eq
theorem wit_LinkEvents_flit : ∀ seq ∈ [0, 1], ∀ par ∈ [false, true],
    flitCrcOk (tWire seq par) = true ∧ (tWire seq par).testBit 27 = par ∧ tWire seq par / 2 ^ 28 % 2 ^ 4 = 6 ∧
    extendSeq 0 (tWire seq par / 2 ^ 48 % 2 ^ 16) = some seq ∧ tWire seq par / 2 ^ 32 % 2 ^ 16 = 0 ∧ (tFlit 0).ctr % 2 ^ 16 = 0 ∧
    (tLink Port.initial).link 0 = Port.initial ∧ Port.initial.rpar = false ∧ Port.initial.held = [] ∧ Port.initial.known ≤ Port.initial.expect ∧
    ∀ key iv, Config.linkOpen key iv (tWire seq par) = none ∨ ∃ pay, Config.linkOpen key iv (tWire seq par) = some pay := by
  intro seq hs par hp
  have m := tLow (tHead seq par) (Config.crc32 (tHead seq par)).toNat 2016 (by revert seq par; decide) (by decide)
  refine ⟨?_, ?_, ?_, ?_, ?_, rfl, by decide +kernel, rfl, rfl, by decide, fun key iv => ?_⟩
  · rw [flitCrcOk, nbits, tWire, m.1, m.2, Nat.mod_eq_of_lt (BitVec.isLt _), beq_self_eq_true]
  · refine (tBit _ _ _ (tWire_field seq par 27 1 1988 rfl)).trans ?_
    clear m; revert seq par; decide +kernel
  · rw [tWire_field seq par 28 4 1984 rfl]; clear m; revert seq par; decide +kernel
  · rw [tWire_field seq par 48 16 1952 rfl]; clear m; revert seq par; decide +kernel
  · rw [tWire_field seq par 32 16 1968 rfl]; clear m; revert seq par; decide +kernel
  · cases Config.linkOpen key iv (tWire seq par) with
    | none => exact .inl rfl
    | some p => exact .inr ⟨p, rfl⟩
/-- A flit of the next generation, whose key the receiver has; a flit before the next one expected; a port without lanes. -/
theorem wit_LinkEvents_generation : (let p := { Port.initial with rnext := true }
    p.rpar ≠ true ∧ p.asks = [] ∧ p.held = [] ∧ p.window = []) ∧ extendSeq 7 6 = some 6 ∧ ({ Port.initial with width := 0 } : Port).width = 0 := by
  decide
/-- A module that another one answers, with a watch there; a flit older than the one that a port waits for. -/
theorem wit_LinkEvents_loss : (mapFind tState.mods 0).isSome = true ∧ setHas (tState.module 0).mlost 5 = false ∧ tState.accesses = [] ∧ (0 : Nat) ≠ 5 ∧
    (∀ c, c < 128 → (tState.creel c).pulls = []) ∧ setHas ({ Module.initial with mlost := [5] } : Module).mlost 5 = true ∧
    (tWith ({ · with watches := [(0, ⟨.pend, BitVec.ofNat 64 (5 * 2 ^ 52), 1, 0, false, 0, 0, 0, 0⟩)] }) []).lostWatches 0 5 = [(0, 0)] := by
  decide +kernel

/-! #### Events: housekeeping -/

/-- Unit 0 idle, and busy with a claim; a gated unit with and without a fault. -/
theorem wit_HouseEvents : (tState.unitIdle 0 0 = true ∧ (tState.core 0).l2 = []) ∧ (tMat []).unitIdle 0 0 = false ∧
    (∀ f ∈ [[], [0]], (let k : Core := { Core.initial with gated := [(0, 63)], faulty := f }
      mapFind k.gated 0 = some 63 ∧ (63 : Nat) < 64 ∧ (setHas k.faulty 0 = true ↔ f = [0]))) := by
  decide +kernel
/-- Life cycles, the running version at the floor and below it, worlds that exist and not, a world in use and one that is not. -/
def tHouse (l : LifeCycle) : Module :=
  { Module.initial with life := l, worlds := [(1, ⟨true, true, false, 1⟩)], imageA := ⟨0, 5, true⟩ }
def tOwned (w : Nat) (dying : SMap (List (Nat × Nat))) : State :=
  { tWith ({ · with world := BitVec.ofNat 6 w }) [] with mods := [(0, { tHouse .owned with dying := dying })] }
theorem wit_HouseEvents_world : (tHouse .owned).life = .owned ∧ (tHouse .owned).activeVersion = 5 ∧ (worldOf (tHouse .owned) 1).live = true ∧
    (worldOf (tHouse .owned) 63).live = false ∧ mapFind (tHouse .owned).dying 1 = none ∧
    ((∀ e ∈ (tOwned 0 []).slots, e.1 / 512 / 128 = 0 → e.2.world.toNat ≠ 1) ∧
      (∀ a, a < 2 → ((tOwned 0 []).agent 0 a).ctxs = []) ∧ (tOwned 0 []).creels = []) ∧
    (0, (tOwned 1 []).slot 0) ∈ (tOwned 1 []).slots ∧ ((tOwned 1 []).slot 0).world.toNat = 1 ∧ ((tOwned 1 []).slot 0).busy = true := by
  decide +kernel
/-- A world whose slot 0 has not ended, and one whose slot has: its weave is another's now. -/
theorem wit_HouseEvents_dying : ∀ wv ∈ [1, 2], (let s := tOwned 1 [(1, [(0, wv)])]
    mapFind (s.module 0).dying 1 = some [(0, wv)] ∧ ((∀ e ∈ [(0, wv)], (s.slot e.1).busy = false ∨ (s.slot e.1).weave ≠ e.2) ↔ wv = 2) ∧
      (s.slot 0).slock = false) := by
  decide +kernel
/-- Signatures and versions are what they are: both ways of each premise are open in Config. A module that is not owned has no valid image. -/
theorem wit_HouseEvents_image : (tHouse .blank).life = .blank ∧ (tHouse .blank).floor = 0 := by decide
/-- An image whose writing has ended, and one whose writing has not begun. -/
theorem wit_HouseEvents_written : (let s := { tState with cycle := 9, mods := [(0, { tHouse .owned with writing := some (7, 9) })] }
    (s.module 0).writing = some (7, 9) ∧ 9 ≤ s.cycle) ∧ (tHouse .owned).writing = none := by
  decide +kernel
/-- A module with no image that boots: a creel's reset starts nothing. -/
theorem wit_HouseEvents_stopped : ({ tState with mods := [(0, { Module.initial with active := 3 })] } : State).module 0 = { Module.initial with active := 3 } := by
  decide +kernel
/-- Code words with a correctable and an uncorrectable error, and none, in SRAM and DRAM. -/
theorem wit_HouseEvents_scrub : isDram 0x40000000 = true ∧ isSram 0 = true ∧
    (let s := { tState with bad := [0x40000000], soft := [0x40000080] }
     setHas s.bad 0x40000000 = true ∧ setHas s.bad 0x40000080 = false ∧ Rising s.soft ∧ setHas s.soft 0x40000080 = true ∧
       setHas s.soft 0x40000100 = false ∧ (s.creel 0).lwaits = []) := by
  unfold Rising; decide +kernel
theorem wit_HouseEvents_reset : (mapFind tState.mods 0).isSome = true ∧ (∀ e ∈ tState.mods, e.1 = 0) ∧ Memory.wf tState.mem = true ∧
    (∀ l ∈ [LifeCycle.blank, .provisioned, .owned], (tHouse l).life = l) ∧ (∀ c, c < 24 → (tState.core (32 * 0 + c)).l2 = []) ∧
    Rising (tState.slots.map (·.1)) ∧ Rising (tState.tags.map (·.1)) := by
  unfold Rising; decide +kernel

/-! #### Encoding and steps -/

/-- Well-formed instructions of one word and of two, and bytes that decode. -/
theorem wit_EncodeDecode : (Instr.ld 4 9 4 2 0).wf = true ∧ encode (.ld 4 9 4 2 0) ≠ [] ∧ (Instr.liu 5 0x00100400).wf = true ∧
    encode (.liu 5 0x00100400) = [0x34284000, 0x00100400] ∧ (∀ w, Instr.ld 4 9 4 2 0 ≠ .illegalInstruction w) := by
  refine ⟨by decide, by decide, by decide, by decide, fun w h => by cases h⟩
theorem wit_EncodeDecode_bytes : decodeBytes [0x20, 0x41, 0x51, 0x04, 0xFF] = .ok (.add 10 20 9, [0xFF]) := by rfl
/-- A step from outside is due; a strand's turn with its line in the cache, without and with a control transfer before it, and a member's. -/
def tTurn (f : Slot → Slot) : State :=
  { tWith f [] with cores := [(0, { tCore with icache := tLines })], turnq := [0], cycle := 9 }.writeAs 1 (strandLoc 0 0x1000) (natBytes 0x04514120 4)
theorem wit_StepRunsDecoded_input : fromOutside (.hostLinkDown 0) = true := by decide
theorem wit_StepRunsDecoded : ∀ x ∈ [true, false], (let s := tTurn ({ · with xfer := x })
    let sl := s.slot 0
    s.inputs = [] ∧ s.dueEvent = none ∧ s.turnq = [0] ∧ sl.busy = true ∧ sl.terminating = false ∧ s.timerTakes 0 = false ∧ s.userTakes 0 = false ∧
      sl.wait.boundary = true ∧ sl.replay = none ∧ sl.member ≠ .attached ∧ sl.xfer = x) := by
  decide +kernel
theorem wit_StepRunsDecoded_word : (let s := tTurn id
    (s.core 0).tlb.find? (fun e => e.hit 0 false 0 0x1000) = some (tLocal 0 0) ∧
      (match s.fetchPlace 0 0x1000 false (tLocal 0 0) with
        | .ok p => p == tPlace 0x1000
        | .error _ => false) = true ∧ 0x1000 / 8 ∈ (s.core 0).icache ∧
      s.readAs (s.slotKey 0) (strandLoc 0 0x1000) 4 = 0x04514120 ∧ s.unitFor 0 0x04514120 = none) := by
  decide +kernel
theorem wit_StepRunsDecoded_member : (let s := { tTurn tAtt with weaves := [(1, { tWeave with cstate := .branch })] }
    s.dueEvent = none ∧ (s.slot 0).member = .attached ∧ (∃ e q, (s.slot 0).queue = e :: q ∧ e.at_ + 2 ≤ s.cycle ∧ e.fault = none)) :=
  ⟨by decide +kernel, by rfl, _, _, rfl, by decide, rfl⟩
def tNexts (s : State) : Bool :=
  match step s with
  | .next _ => true
  | _ => false
theorem tNext (s : State) (h : tNexts s = true) : ∃ t, step s = .next t := by
  unfold tNexts at h
  cases e : step s with
  | next t => exact ⟨t, rfl⟩
  | fault f => rw [e] at h; cases h
  | refused r => rw [e] at h; cases h
theorem wit_StepKeepsMemory : MemoryOk (tTurn id) ∧ ∃ t, step (tTurn id) = .next t :=
  ⟨by unfold MemoryOk; decide +kernel, tNext _ (by decide +kernel)⟩

/-! ### Single steps, with the spec's own examples and values worked out by hand from its tables -/

/-- The state after an instruction. -/
def tRun (i : Instr) (s : State) : State :=
  match exec i s with
  | .next t => t
  | _ => s
def tVal (i : Instr) (n : Nat) (l : List (Nat × Nat)) : Nat := ((tRun i (tX l)).x n).toNat

/-- R150: a sum that wraps, with a destination that is a source; and x0, which stays 0. -/
theorem test_add_wraps : tVal (.add 11 11 12) 11 [(11, 2 ^ 64 - 1), (12, 2)] = 1 ∧ tVal (.add 0 11 12) 0 [(11, 5), (12, 2)] = 0 := by decide +kernel
/-- R109's example: DIVW of the most negative number by −1, and REMW by zero; DIV of -7 by 2 truncates. -/
theorem test_div_corners : tVal (.divw 10 11 12) 10 [(11, 0x80000000), (12, 0xFFFFFFFF)] = 0xFFFFFFFF80000000 ∧
    tVal (.remw 10 11 12) 10 [(11, 0x1FFFFFFFE), (12, 0)] = 0xFFFFFFFFFFFFFFFE ∧ tVal (.div 10 11 12) 10 [(11, 2 ^ 64 - 7), (12, 2)] = 2 ^ 64 - 3 ∧
    tVal (.divu 10 11 12) 10 [(11, 5), (12, 0)] = 2 ^ 64 - 1 := by
  decide +kernel
/-- R151: the high half of (−1) × (−1), signed and unsigned. -/
theorem test_mul_high : tVal (.mulh 10 11 11) 10 [(11, 2 ^ 64 - 1)] = 0 ∧ tVal (.mulhu 10 11 11) 10 [(11, 2 ^ 64 - 1)] = 2 ^ 64 - 2 := by decide +kernel
/-- The worked example of chapter 8: WIDTH, WSIZE and PRIO of a packet word; and a field that reaches past bit 63 (R152). -/
theorem test_bfx : tVal (.bfxu 10 5 11) 10 [(5, 0x0324000000100400), (11, 0x437)] = 6 ∧ tVal (.bfxu 12 5 11) 12 [(5, 0x0324000000100400), (11, 0x430)] = 4 ∧
    tVal (.bfxu 13 5 11) 13 [(5, 0x0324000000100400), (11, 0x135)] = 1 ∧ tVal (.bfx 10 5 11) 10 [(5, 0x9000000000000000), (11, 0x83C)] = 2 ^ 64 - 7 ∧
    tVal (.clz 10 0) 10 [] = 64 := by
  decide +kernel
/-- R154 and R156: SRAI by 63, LIHI, and MKG in creel 9 of module 0. -/
theorem test_immediates : tVal (.srai 5 6 63) 5 [(6, 2 ^ 63)] = 2 ^ 64 - 1 ∧ tVal (.lihi 5 0x03240000) 5 [(5, 0x00100400)] = 0x0324000000100400 ∧
    (let s := { tState with cur := 512 * 9, slots := [(512 * 9, tSlot)], regs := [(2048 * 32 * 9 + 2, ⟨0x17F00, true, false, 0⟩)] }
     ((tRun (.mkg 6 2) s).x 6).toNat = 0x0001200000017F00) := by
  decide +kernel
/-- R158's example: BNE at 0x1010 back to 0x1000; a branch below 0 raises 0x05, and one that is not taken goes on. -/
theorem test_branch : (tRun (.bne 4 0 0xFFC) { tX [(4, 1)] with slots := [(0, { tSlot with pc := 0x1010 })] }).me.pc = 0x1000 ∧
    (tRun (.bne 4 0 0xFFC) { tX [(4, 0)] with slots := [(0, { tSlot with pc := 0x1010 })] }).me.pc = 0x1014 ∧
    (let t := tRun (.beq 0 0 0x800) (tHandler id)
     t.me.scause.toNat = 0x05 ∧ t.me.stval = BitVec.ofInt 64 (0x1000 - 8192)) := by
  decide +kernel
/-- R160: a JALR reads its base before it writes its link; a target that is not a multiple of 4 raises 0x04. -/
theorem test_jalr : (tRun (.jalr 9 9 4) (tX [(9, 0x2000)])).me.pc = 0x2004 ∧ tVal (.jalr 9 9 4) 9 [(9, 0x2000)] = 0x1004 ∧
    (tRun (.jalr 9 9 2) { tHandler id with regs := [(9, ⟨0x2000, true, false, 0⟩)] }).me.scause.toNat = 0x04 := by
  decide +kernel
/-- R55's example: `ADD x10, x20, x9` in its third pass of four, with every stride 1 but b's, adds x22 and x9 into x12. -/
theorem test_coil_steps : decodeTableWord 32 0x04514120 = some (.add 10 20 9) ∧
    (let s := { tX [(22, 5), (9, 7)] with slots := [(0, { tSlot with coil := some ⟨[0x04514120], 4, 1, 1, 0, 2, 0, 0x1004, false⟩ })] }
     s.me.replay = some 0x04616120) ∧ tVal (.add 12 22 9) 12 [(22, 5), (9, 7)] = 12 := by
  decide +kernel
/-- R166, R3: a byte and its sign, and the little-endian order of a store. -/
def tBytes : State := (tX [(9, 0x200), (4, 0x1122334455667788)]).writeAs 1 0x200 [0x80, 0xFF, 0, 0, 0, 0, 0, 0]
theorem test_load : ((tRun (.ld 5 9 0 0 0) tBytes).x 5).toNat = 0xFFFFFFFFFFFFFF80 ∧ ((tRun (.ld 5 9 1 0 0) tBytes).x 5).toNat = 0x80 ∧
    ((tRun (.ld 5 9 2 0 0) tBytes).x 5).toNat = 0xFFFFFFFFFFFFFF80 := by decide +kernel
theorem test_store : (tRun (.st 4 9 4 1 0) tBytes).byteAs 1 0x204 = 0x88 ∧ (tRun (.st 4 9 4 1 0) tBytes).byteAs 1 0x207 = 0x55 ∧
    (tRun (.st 4 9 4 1 0) tBytes).byteAs 1 0x208 = 0 := by decide +kernel
/-- R173's example: 1.0 and 2⁻²⁴ added by AFADD give 1.0, since the sum ties and rounds to even; the old value is returned. -/
def tOne : State := (tX [(9, 0x200), (12, 0x33800000)]).writeAs 1 0x200 (natBytes 0x3F800000 4)
theorem test_afadd : (tRun (.afadd 5 9 12 0) tOne).readAs 1 0x200 4 = 0x3F800000 ∧ ((tRun (.afadd 5 9 12 0) tOne).x 5).toNat = 0x3F800000 := by
  decide +kernel
/-- R170: LDFE empties a full word, and STFE of a full word parks. -/
theorem test_lsync : (tRun (.ldfe 5 9 0 0) tBytes).fe 0x200 = false ∧ (tRun (.stfe 4 9 0 0) tBytes).me.wait = .lsync := by decide +kernel
/-- R178: the last of four arrivals at phase 0 moves the object to phase 1 with nothing arrived. -/
theorem test_bara : (tRun (.bara 10 11 12) (tBar (4 + 3 * 2 ^ 12) 0 0x10)).me.pc = 0x1004 := by decide +kernel
/-- R230: PUB of a smaller value traps with 0x0C and leaves the word. -/
def tPub : State :=
  ({ tHandler id with cores := [(0, tCore)], regs := [(11, ⟨0x200, true, false, 0⟩), (12, ⟨4, true, false, 0⟩)] } : State).writeAs 1 0x200 (natBytes 5 8)
theorem test_pub : (tRun (.pub 11 12) tPub).me.scause.toNat = 0x0C ∧ (tRun (.pub 11 12) tPub).readAs 1 0x200 8 = 5 := by decide +kernel
/-- R192: one lane of VFMA.f32: 2 × 3 + 0.5; a lane that the mask leaves out keeps its value. -/
theorem test_vfma : (let s := tWith (fun sl => { sl with
      vec := [(1, 0x1111111100000000), (2, 0x40000000), (3, 0x40400000), (4, 0x3F000000)], masks := [(1, 1)] }) []
    ((tRun (.vfma 1 2 3 4 1 0 0) s).me.w 1).toNat % 2 ^ 64 = 0x1111111140D00000) := by decide +kernel
/-- R193, R199: INT8 quads add modulo 2⁸ in each element; VIOTA writes start plus stride times the element's number. -/
theorem test_viadd : (let s := tWith (fun sl => { sl with vec := [(2, 0xFF018001), (3, 0x01017F01)] }) []
    ((tRun (.viadd 1 2 3 0 5) s).me.w 1).toNat % 2 ^ 32 = 0x0002FF02) := by decide +kernel
/-- R285, R327: TRAP in user mode goes to SVEC with the bits [1:0] of its value cleared. -/
theorem test_trap : (let s := { tHandler id with regs := [(9, ⟨0x77, true, false, 0⟩)] }
    (tRun (.trap 9) s).me.pc = 0x4000 ∧ (tRun (.trap 9) s).me.sepc.toNat = 0x1000 ∧ (tRun (.trap 9) s).me.scause.toNat = 0x13 ∧
      (tRun (.trap 9) s).me.stval = 0x77 ∧ (tRun (.trap 9) s).me.mode = true) := by decide +kernel
/-- R138: MFS of CREEL and SLOT; a supervisor register in user mode raises 0x02. -/
theorem test_mfs : (let s := { tState with cur := 512 * 9 + 3, slots := [(512 * 9 + 3, tSlot)] }
    ((tRun (.mfs 5 3) s).x 5).toNat = 9 ∧ ((tRun (.mfs 5 1) s).x 5).toNat = 3) ∧ (tRun (.mfs 5 0x101) (tHandler id)).me.scause.toNat = 0x02 := by
  decide +kernel
/-- R218, R125: MMA of one step: 2.0 × 1.0 in FP8 E4M3 codes 0x40 and 0x38 onto a tile of zero. -/
theorem test_mma : (let s := ((tMat1 (tMCmd 2 0x500)).writeAs 1 0x500 [0x40]).writeAs 1 0x400 [0x38]
    (((s.matrixPart (tMCmd 2 0x500)).1.core 0).element 0 0 0) = 0x40000000) := by decide +kernel
/-- The worked example of chapter 13: one damped update, at the spec's own addresses. -/
def tUpdate : State :=
  [(0x50000, 0x0000000000110042), (0x50008, 0x3F800000), (0x50048, 0xBF80000040000000), (0x50050, 0x3F800000), (0x50400, 0x0000000100000001),
   (0x50408, 0x40000000), (0x50428, 0x40000000), (0x50500, 0x0000000300074001), (0x50508, 0x3F000000), (0x50528, 0x3F800000),
   (0x50600, 0x50400)].foldl (fun s (x : Nat × Nat) => s.writeAs 1 x.1 (natBytes x.2 8)) { tState with cores := [(0, { tCore with tlb := [tLocal 5 0x50000] })] }
def tUpdated : List (Nat × Nat × Nat) :=
  match (tUpdate.gCompute { tGCmd 0 false false .none with a := 0x50000, b := 0x50600, ctl := 1, c1 := 0x50500, tau := 0 }).2 with
  | .ok o => o.ws
  | .error _ => []
theorem test_gupd : tUpdated.map (fun w => (w.1, w.2.1)) = [(0x50508, 176), (0x505F8, 8), (0x50500, 8)] ∧
    tUpdated.map (fun w => w.2.2 % 2 ^ 64) = [0x3F300000, 0x3E400000, 0x0000000400074001] ∧
    (tUpdated.map fun w => w.2.2 / 2 ^ 256 % 2 ^ 64) = [0x3F500000, 0, 0] := by decide +kernel

end Sys2Proof.Tests
end

/-!
SUPPORT. Words and bits that the scalar arithmetic of R150 to R157 is stated in: shifts and rotations as arithmetic on the numbers that a
word stands for, sign-extended 32-bit results, and the counts and reversals of R152 by their bits.
-/

namespace Sys2Proof.Scalar

open Sys2Proof.Machine

/-! ### Shifts and rotations (R150, R154) -/

theorem shiftLeft_eq_ofNat {w : Nat} (x : BitVec w) (n : Nat) : x <<< n = BitVec.ofNat w (x.toNat * 2 ^ n) := by
  apply BitVec.eq_of_toNat_eq
  rw [BitVec.toNat_shiftLeft, BitVec.toNat_ofNat, Nat.shiftLeft_eq]

theorem ushiftRight_eq_ofNat {w : Nat} (x : BitVec w) (n : Nat) : x >>> n = BitVec.ofNat w (x.toNat / 2 ^ n) := by
  apply BitVec.eq_of_toNat_eq
  rw [BitVec.toNat_ushiftRight, BitVec.toNat_ofNat, Nat.shiftRight_eq_div_pow,
    Nat.mod_eq_of_lt (Nat.lt_of_le_of_lt (Nat.div_le_self _ _) x.isLt)]

theorem int_shiftRight_eq_div (a : Int) (n : Nat) : a >>> n = a / 2 ^ n :=
  (Int.shiftRight_eq_div_pow a n).trans (congrArg (a / ·) (Int.natCast_pow 2 n))

theorem sshiftRight_eq_ofInt {w : Nat} (x : BitVec w) (n : Nat) : x.sshiftRight n = BitVec.ofInt w (x.toInt / 2 ^ n) := by
  rw [BitVec.sshiftRight, int_shiftRight_eq_div]

theorem rotateRight_eq_or (x : Word) {n : Nat} (h : n < 64) : x.rotateRight n = x >>> n ||| x <<< (64 - n) :=
  BitVec.rotateRight_eq_rotateRightAux_of_lt h

/-! ### Conditions (R150) -/

/-- Two tests that exclude each other choose the same word when neither holding makes the words equal. -/
theorem ite_eq_ite_swap {p q : Prop} [Decidable p] [Decidable q] {x y : Word} (hpq : p → ¬q) (heq : ¬p → ¬q → x = y) :
    (if p then y else x) = if q then x else y := by
  by_cases hp : p
  · rw [if_pos hp, if_neg (hpq hp)]
  · rw [if_neg hp]
    by_cases hq : q
    · rw [if_pos hq]
    · exact (heq hp hq).trans (if_neg hq).symm

theorem condLt_min (x y : Word) : (if condLt y x then y else x) = if x.toInt < y.toInt then x else y := by
  simp only [condLt, decide_eq_true_eq]
  exact ite_eq_ite_swap (fun h => by omega) fun h h' => BitVec.eq_of_toInt_eq (by omega)

theorem condLt_max (x y : Word) : (if condLt x y then y else x) = if x.toInt < y.toInt then y else x := by
  simp only [condLt, decide_eq_true_eq]

theorem condLtu_min (x y : Word) : (if condLtu y x then y else x) = if x.toNat < y.toNat then x else y := by
  simp only [condLtu, decide_eq_true_eq]
  exact ite_eq_ite_swap (fun h => by omega) fun h h' => BitVec.eq_of_toNat_eq (by omega)

theorem condLtu_max (x y : Word) : (if condLtu x y then y else x) = if x.toNat < y.toNat then y else x := by
  simp only [condLtu, decide_eq_true_eq]

theorem boolWord_condLt (x y : Word) : boolWord (condLt x y) = if x.toInt < y.toInt then 1 else 0 := by
  simp [boolWord, condLt]

theorem boolWord_condLtu (x y : Word) : boolWord (condLtu x y) = if x.toNat < y.toNat then 1 else 0 := by
  simp [boolWord, condLtu]

theorem boolWord_condEq (x y : Word) : boolWord (condEq x y) = if x = y then 1 else 0 := by
  simp [boolWord, condEq]

theorem boolWord_not_condEq (x y : Word) : boolWord (!condEq x y) = if x = y then 0 else 1 := by
  by_cases h : x = y <;> simp [boolWord, condEq, h]

/-! ### 32-bit results (R150, R151) -/

theorem lo32_toNat (x : Word) : (lo32 x).toNat = x.toNat % 2 ^ 32 := BitVec.toNat_setWidth 32 x

theorem wide_eq_ofInt (v : BitVec 32) : wide v = BitVec.ofInt 64 v.toInt := rfl

theorem wide_shiftLeft (x : Word) (n : Nat) :
    wide (lo32 x <<< n) = BitVec.ofInt 64 (BitVec.ofNat 32 (x.toNat % 2 ^ 32 * 2 ^ n)).toInt := by
  rw [shiftLeft_eq_ofNat, lo32_toNat, wide_eq_ofInt]

theorem wide_ushiftRight (x : Word) (n : Nat) :
    wide (lo32 x >>> n) = BitVec.ofInt 64 (BitVec.ofNat 32 (x.toNat % 2 ^ 32 / 2 ^ n)).toInt := by
  rw [ushiftRight_eq_ofNat, lo32_toNat, wide_eq_ofInt]

/-- The 32-bit result of an arithmetic shift is no larger than its operand, so widening it changes nothing. -/
theorem wide_sshiftRight (x : Word) (n : Nat) :
    wide ((lo32 x).sshiftRight n) = BitVec.ofInt 64 ((lo32 x).toInt / 2 ^ n) := by
  rw [wide_eq_ofInt, BitVec.toInt_sshiftRight, int_shiftRight_eq_div]

theorem wide_allOnes : wide (BitVec.allOnes 32) = BitVec.allOnes 64 := by decide

/-- The remainder of a 32-bit division lies in the range of its divisor, so widening it changes nothing. -/
theorem wide_ofInt_tmod (x y : BitVec 32) (hy : y ≠ 0) :
    wide (BitVec.ofInt 32 (x.toInt.tmod y.toInt)) = BitVec.ofInt 64 (x.toInt.tmod y.toInt) := by
  have h0 : y.toInt ≠ 0 := fun h => hy (BitVec.eq_of_toInt_eq (by simpa using h))
  have hlt : (x.toInt.tmod y.toInt).natAbs < y.toInt.natAbs := by
    rw [Int.natAbs_tmod]
    exact Nat.mod_lt _ (Int.natAbs_pos.mpr h0)
  have h1 := BitVec.toInt_lt (x := y)
  have h2 := BitVec.le_toInt y
  have hr : (BitVec.ofInt 32 (x.toInt.tmod y.toInt)).toInt = x.toInt.tmod y.toInt :=
    BitVec.toInt_ofInt_eq_self (by decide) (by omega) (by omega)
  rw [wide_eq_ofInt, hr]

/-- DIVW widens the 32-bit quotient; division by zero gives all ones at either width. -/
theorem wide_divSigned (x y : BitVec 32) :
    wide (divSigned x y) =
      if y = 0 then BitVec.allOnes 64 else BitVec.ofInt 64 (BitVec.ofInt 32 (x.toInt.tdiv y.toInt)).toInt := by
  by_cases hy : y = 0
  · rw [divSigned, if_pos hy, if_pos hy, wide_allOnes]
  · rw [divSigned, if_neg hy, if_neg hy, wide_eq_ofInt]

theorem wide_remSigned (x y : BitVec 32) :
    wide (remSigned x y) = if y = 0 then BitVec.ofInt 64 x.toInt else BitVec.ofInt 64 (x.toInt.tmod y.toInt) := by
  by_cases hy : y = 0
  · rw [remSigned, if_pos hy, if_pos hy, wide_eq_ofInt]
  · rw [remSigned, if_neg hy, if_neg hy, wide_ofInt_tmod x y hy]

/-! ### Products, sums and LONG (R151, R155, R157) -/

theorem mul_eq_ofNat (x y : Word) : x * y = BitVec.ofNat 64 (x.toNat * y.toNat) := by
  apply BitVec.eq_of_toNat_eq
  rw [BitVec.toNat_mul, BitVec.toNat_ofNat]

theorem add_shiftLeft_eq_ofNat (x y : Word) (n : Nat) : x + y <<< n = BitVec.ofNat 64 (x.toNat + y.toNat * 2 ^ n) := by
  rw [shiftLeft_eq_ofNat, BitVec.ofNat_add, BitVec.ofNat_toNat, BitVec.setWidth_eq]

theorem append_lo32_eq_ofNat (imm : BitVec 32) (x : Word) :
    imm ++ lo32 x = BitVec.ofNat 64 (imm.toNat * 2 ^ 32 + x.toNat % 2 ^ 32) := by
  have hi := imm.isLt
  have hlo : x.toNat % 2 ^ 32 < 2 ^ 32 := Nat.mod_lt _ (by decide)
  apply BitVec.eq_of_toNat_eq
  rw [BitVec.toNat_append, lo32_toNat, ← Nat.shiftLeft_add_eq_or_of_lt hlo, Nat.shiftLeft_eq, BitVec.toNat_ofNat]
  omega

/-! ### Counts (R152) -/

theorem clz64_le (x : Word) : clz64 x ≤ 64 := by
  unfold clz64
  split <;> omega

/-- The bits counted are zero, and the bit below them is set. -/
theorem clz64_spec (x : Word) :
    (∀ i, 64 - clz64 x ≤ i → i < 64 → x.getLsbD i = false) ∧ (clz64 x < 64 → x.getLsbD (63 - clz64 x) = true) := by
  by_cases hx : x = 0
  · subst hx
    exact ⟨fun i _ _ => BitVec.getLsbD_zero, fun h => absurd h (by decide)⟩
  · have h0 : x.toNat ≠ 0 := fun h => hx (BitVec.eq_of_toNat_eq (by simpa using h))
    have hlog : Nat.log2 x.toNat < 64 := (Nat.log2_lt h0).mpr x.isLt
    have hc : clz64 x = 63 - Nat.log2 x.toNat := if_neg hx
    constructor
    · intro i hi _
      have hlt : x.toNat < 2 ^ i := (Nat.log2_lt h0).mp (by omega)
      exact Nat.testBit_lt_two_pow hlt
    · intro _
      have hb : 63 - clz64 x = Nat.log2 x.toNat := by omega
      rw [hb]
      exact Nat.testBit_log2 h0

theorem ctzN_le (v n : Nat) : ctzN v n ≤ n := by
  induction n generalizing v with
  | zero => exact Nat.le_refl 0
  | succ n ih =>
    have := ih (v / 2)
    rw [ctzN]
    split <;> omega

theorem ctzN_spec (v n : Nat) :
    (∀ i, i < ctzN v n → v.testBit i = false) ∧ (ctzN v n < n → v.testBit (ctzN v n) = true) := by
  induction n generalizing v with
  | zero => exact ⟨fun i hi => absurd hi (Nat.not_lt_zero i), fun h => absurd h (Nat.not_lt_zero _)⟩
  | succ n ih =>
    obtain ⟨hlow, htop⟩ := ih (v / 2)
    by_cases hv : v % 2 = 1
    · have hc : ctzN v (n + 1) = 0 := if_pos hv
      rw [hc]
      exact ⟨fun i hi => absurd hi (Nat.not_lt_zero i), fun _ => by simp [Nat.testBit_zero, hv]⟩
    · have hc : ctzN v (n + 1) = ctzN (v / 2) n + 1 := (if_neg hv).trans (Nat.add_comm 1 _)
      rw [hc]
      refine ⟨fun i hi => ?_, fun h => ?_⟩
      · cases i with
        | zero => simp [Nat.testBit_zero, hv]
        | succ i => rw [Nat.testBit_succ]; exact hlow i (by omega)
      · rw [Nat.testBit_succ]
        exact htop (by omega)

theorem popN_eq_length (v n : Nat) : popN v n = ((List.range n).filter (v.testBit ·)).length := by
  induction n generalizing v with
  | zero => rfl
  | succ n ih =>
    have hshift : (fun i => v.testBit i) ∘ Nat.succ = fun i => (v / 2).testBit i := funext fun i => Nat.testBit_succ v i
    rw [popN, ih, List.range_succ_eq_map, List.filter_cons, List.filter_map, hshift]
    rcases Nat.mod_two_eq_zero_or_one v with h | h
    · simp [Nat.testBit_zero, h]
    · simp [Nat.testBit_zero, h, Nat.add_comm]

/-! ### Reversals (R152) -/

/-- The n low digits of v to the base b in reverse order: what BREV folds with b = 2 and BSWAP with b = 256. -/
def reverseDigits (b v n : Nat) : Nat := (List.range n).foldl (fun acc i => b * acc + v / b ^ i % b) 0

theorem reverseDigits_succ (b v n : Nat) : reverseDigits b v (n + 1) = b * reverseDigits b v n + v / b ^ n % b := by
  simp [reverseDigits, List.range_succ]

theorem bitReverse_eq (x : Word) : bitReverse x = BitVec.ofNat 64 (reverseDigits 2 x.toNat 64) := rfl

theorem byteSwap_eq (x : Word) : byteSwap x = BitVec.ofNat 64 (reverseDigits 256 x.toNat 8) := rfl

theorem reverseDigits_lt {b : Nat} (hb : 0 < b) (v n : Nat) : reverseDigits b v n < b ^ n := by
  induction n with
  | zero => exact Nat.one_pos
  | succ n ih =>
    have hd : v / b ^ n % b < b := Nat.mod_lt _ hb
    calc reverseDigits b v (n + 1) < b * reverseDigits b v n + b := by rw [reverseDigits_succ]; omega
      _ = b * (reverseDigits b v n + 1) := (Nat.mul_succ _ _).symm
      _ ≤ b * b ^ n := Nat.mul_le_mul_left b ih
      _ = b ^ (n + 1) := (Nat.pow_succ').symm

/-- Digit i of the reversal is digit n − 1 − i of the number. -/
theorem reverseDigits_digit {b : Nat} (hb : 0 < b) (v : Nat) {n i : Nat} (hi : i < n) :
    reverseDigits b v n / b ^ i % b = v / b ^ (n - 1 - i) % b := by
  induction n generalizing i with
  | zero => exact absurd hi (Nat.not_lt_zero i)
  | succ n ih =>
    have hd : v / b ^ n % b < b := Nat.mod_lt _ hb
    rw [reverseDigits_succ]
    cases i with
    | zero => simp
    | succ i =>
      have hq : (b * reverseDigits b v n + v / b ^ n % b) / b = reverseDigits b v n := by
        rw [Nat.mul_add_div hb, Nat.div_eq_of_lt hd, Nat.add_zero]
      have hn : n + 1 - 1 - (i + 1) = n - 1 - i := by omega
      rw [Nat.pow_succ', ← Nat.div_div_eq_div_mul, hq, ih (by omega), hn]

theorem bitReverse_getLsbD (x : Word) {i : Nat} (hi : i < 64) : (bitReverse x).getLsbD i = x.getLsbD (63 - i) := by
  have hd := reverseDigits_digit (b := 2) (by decide) x.toNat hi
  rw [bitReverse_eq, BitVec.getLsbD_ofNat, BitVec.getLsbD]
  simp only [hi, decide_true, Bool.true_and, Nat.testBit_eq_decide_div_mod_eq, hd]

theorem byteSwap_byte (x : Word) {i : Nat} (hi : i < 8) :
    (byteSwap x).extractLsb' (8 * i) 8 = x.extractLsb' (8 * (7 - i)) 8 := by
  have hd := reverseDigits_digit (b := 256) (by decide) x.toNat hi
  have hlt : reverseDigits 256 x.toNat 8 < 2 ^ 64 := reverseDigits_lt (by decide) x.toNat 8
  have hpow : ∀ k, 2 ^ (8 * k) = 256 ^ k := fun k => Nat.pow_mul 2 8 k
  apply BitVec.eq_of_toNat_eq
  rw [byteSwap_eq, BitVec.extractLsb'_toNat, BitVec.extractLsb'_toNat, BitVec.toNat_ofNat, Nat.mod_eq_of_lt hlt,
    Nat.shiftRight_eq_div_pow, Nat.shiftRight_eq_div_pow, hpow, hpow]
  exact hd

end Sys2Proof.Scalar

/-!
SUPPORT. How the scalar groups complete, from the shape of an instruction's meaning to what `Writes` and `Traps` say about it, and what a
word that decodes under one of their majors holds.
-/

namespace Sys2Proof.Scalar

open Sys2Proof.Machine Sys2Proof.Safety Sys2Proof.Laws

/-! ### Completing with a result -/

section
variable {s : State} {i : Instr} {d a b : BitVec 7} {v : Word}

theorem writes_opRRR {f : Word → Word → Word} (he : exec i s = opRRR d a b f s) (h : Issues s [d, a, b] [a, b])
    (hv : f (s.x a.toNat) (s.x b.toNat) = v) : Writes s i d v 4 :=
  hv ▸ writes_of (he.trans (opRRR_of_Issues f h))

theorem writes_opRRRd {f : Word → Word → Word → Word} (he : exec i s = opRRRd d a b f s) (h : Issues s [d, a, b] [d, a, b])
    (hv : f (s.x d.toNat) (s.x a.toNat) (s.x b.toNat) = v) : Writes s i d v 4 :=
  hv ▸ writes_of (he.trans (opRRRd_of_Issues f h))

theorem writes_opRR {f : Word → Word} (he : exec i s = opRR d a f s) (h : Issues s [d, a] [a]) (hv : f (s.x a.toNat) = v) :
    Writes s i d v 4 :=
  hv ▸ writes_of (he.trans (opRR_of_Issues f h))

theorem writes_opLong {reads : Bool} {f : Word → Word} (he : exec i s = opLong d reads f s)
    (h : Issues s [d] (if reads then [d] else [])) (hv : f (s.x d.toNat) = v) : Writes s i d v 8 :=
  hv ▸ writes_of (he.trans (opLong_of_Issues reads f h))

end

/-! ### Immediates (R153) -/

theorem sext12_toInt (i : BitVec 12) : (sext12 i).toInt = i.toInt := BitVec.toInt_signExtend_of_le (by decide)

theorem zext12_toNat (i : BitVec 12) : (zext12 i).toNat = i.toNat := BitVec.toNat_setWidth_of_le (by decide)

theorem zext12_eq_ofNat (i : BitVec 12) : zext12 i = BitVec.ofNat 64 i.toNat := (BitVec.ofNat_toNat 64 i).symm

/-! ### What a word that decodes holds (R341, R342) -/

theorem decodeWord_ok {w imm : BitVec 32} {i : Instr} (h : decodeWord w imm = .ok i) :
    decodeFields w imm = .ok i ∧ (encode i).head? = some w := by
  unfold decodeWord at h
  split at h
  · cases h
  · next j hj =>
    split at h
    · next he =>
      split at h
      · cases h
        exact ⟨hj, he⟩
      · cases h
    · cases h

theorem code_major {w : BitVec 32} {m : Nat} (h : w.toNat / 2 ^ 26 = m) : code w 26 6 = m := by
  have := w.isLt
  simp only [code]
  omega

theorem fmtRRR_toNat {op fn : Nat} (d a b : BitVec 7) (hop : op < 64) (hfn : fn < 32) :
    (fmtRRR op d a b fn).toNat = op * 2 ^ 26 + d.toNat * 2 ^ 19 + a.toNat * 2 ^ 12 + b.toNat * 2 ^ 5 + fn := by
  have h0 := d.isLt
  have h1 := a.isLt
  have h2 := b.isLt
  simp only [fmtRRR, BitVec.toNat_ofNat]
  omega

theorem fmtRI_toNat {op : Nat} (d a : BitVec 7) (i : BitVec 12) (hop : op < 64) :
    (fmtRI op d a i).toNat = op * 2 ^ 26 + d.toNat * 2 ^ 19 + a.toNat * 2 ^ 12 + i.toNat := by
  have h0 := d.isLt
  have h1 := a.isLt
  have h2 := i.isLt
  simp only [fmtRI, BitVec.toNat_ofNat]
  omega

theorem fmtL_toNat {op fn : Nat} (d : BitVec 7) (hop : op < 64) (hfn : fn < 32) :
    (fmtL op d fn).toNat = op * 2 ^ 26 + d.toNat * 2 ^ 19 + fn * 2 ^ 14 := by
  have h0 := d.isLt
  simp only [fmtL, BitVec.toNat_ofNat]
  omega

/-- Major 0x03: below function code 5 stand the unary forms, and the assigned codes end at 8. -/
theorem decodeBit_ok {w : BitVec 32} {i : Instr} (h : decodeBit w = .ok i) :
    code w 0 5 ≤ 8 ∧ (code w 0 5 < 5 → ∃ d a, ∃ fn < 32, encode i = [fmtRRR 0x03 d a 0 fn]) := by
  unfold decodeBit at h
  split at h <;> cases h <;> refine ⟨by omega, fun hlt => ?_⟩
  case h_1 | h_2 | h_3 | h_4 | h_5 => exact ⟨_, _, _, by decide, rfl⟩
  case h_6 | h_7 | h_8 | h_9 => omega

/-- Major 0x0A: the amount in 6 bits below two bits of kind. -/
theorem decodeShi_ok {w : BitVec 32} {i : Instr} (h : decodeShi w = .ok i) :
    ∃ d a, ∃ n < 64, ∃ k < 4, encode i = [fmtRI 0x0A d a (BitVec.ofNat 12 (n + k * 1024))] := by
  unfold decodeShi at h
  split at h <;> cases h
  · exact ⟨_, _, _, (bits w 0 6).isLt, 0, by decide, rfl⟩
  · exact ⟨_, _, _, (bits w 0 6).isLt, 1, by decide, rfl⟩
  · exact ⟨_, _, _, (bits w 0 6).isLt, 2, by decide, rfl⟩
  · exact ⟨_, _, _, (bits w 0 6).isLt, 3, by decide, rfl⟩

/-- Major 0x0D: seven function codes, each of them encoded over zeros. -/
theorem decodeLong_ok {w imm : BitVec 32} {i : Instr} (h : decodeLong w imm = .ok i) :
    code w 14 5 ≤ 6 ∧ ∃ d, ∃ fn < 32, encode i = [fmtL 0x0D d fn, imm] := by
  unfold decodeLong at h
  split at h <;> cases h <;> exact ⟨by omega, _, _, by decide, rfl⟩

/-- R152: the assigned codes of BIT, and b = 0 in its unary forms. -/
theorem bit_decodeWord_ok {v imm : BitVec 32} {i : Instr} (hv : v.toNat / 2 ^ 26 = 0x03) (h : decodeWord v imm = .ok i) :
    v.toNat % 2 ^ 5 ≤ 0x08 ∧ (v.toNat % 2 ^ 5 < 0x05 → v.toNat / 2 ^ 5 % 2 ^ 7 = 0) := by
  obtain ⟨hf, he⟩ := decodeWord_ok h
  simp only [decodeFields, code_major hv] at hf
  obtain ⟨hle, hunary⟩ := decodeBit_ok hf
  simp only [code, Nat.pow_zero, Nat.div_one] at hle hunary
  refine ⟨hle, fun hlt => ?_⟩
  obtain ⟨d, a, fn, hfn, hw⟩ := hunary hlt
  rw [hw] at he
  cases he
  rw [fmtRRR_toNat d a 0 (by decide) hfn, BitVec.ofNat_eq_ofNat, BitVec.toNat_zero]
  omega

/-- R154: bits [9:6] of a shift by an amount. -/
theorem shi_decodeWord_ok {v imm : BitVec 32} {i : Instr} (hv : v.toNat / 2 ^ 26 = 0x0A) (h : decodeWord v imm = .ok i) :
    v.toNat / 2 ^ 6 % 2 ^ 4 = 0 := by
  obtain ⟨hf, he⟩ := decodeWord_ok h
  simp only [decodeFields, code_major hv] at hf
  obtain ⟨d, a, n, hn, k, hk, hw⟩ := decodeShi_ok hf
  rw [hw] at he
  cases he
  rw [fmtRI_toNat d a _ (by decide), BitVec.toNat_ofNat]
  omega

/-- R155: bits [4:3] of LEA. -/
theorem lea_decodeWord_ok {v imm : BitVec 32} {i : Instr} (hv : v.toNat / 2 ^ 26 = 0x0B) (h : decodeWord v imm = .ok i) :
    v.toNat / 2 ^ 3 % 2 ^ 2 = 0 := by
  obtain ⟨hf, he⟩ := decodeWord_ok h
  simp only [decodeFields, code_major hv] at hf
  cases hf
  have hk := (bits v 0 3).isLt
  have hw : fmtRRR 0x0B (bits v 19 7) (bits v 12 7) (bits v 5 7) (bits v 0 3).toNat = v := Option.some.inj he
  rw [← hw, fmtRRR_toNat _ _ _ (by decide) (by omega)]
  omega

/-- R156: bits [11:0] of MKG. -/
theorem mkg_decodeWord_ok {v imm : BitVec 32} {i : Instr} (hv : v.toNat / 2 ^ 26 = 0x0C) (h : decodeWord v imm = .ok i) :
    v.toNat % 2 ^ 12 = 0 := by
  obtain ⟨hf, he⟩ := decodeWord_ok h
  simp only [decodeFields, code_major hv] at hf
  cases hf
  have hw : fmtRRR 0x0C (bits v 19 7) (bits v 12 7) 0 0 = v := Option.some.inj he
  rw [← hw, fmtRRR_toNat _ _ _ (by decide) (by decide), BitVec.ofNat_eq_ofNat, BitVec.toNat_zero]
  omega

/-- R157: the assigned codes of LONG, over reserved bits [13:0]. -/
theorem long_decodeWord_ok {v imm : BitVec 32} {i : Instr} (hv : v.toNat / 2 ^ 26 = 0x0D) (h : decodeWord v imm = .ok i) :
    v.toNat / 2 ^ 14 % 2 ^ 5 ≤ 0x06 ∧ v.toNat % 2 ^ 14 = 0 := by
  obtain ⟨hf, he⟩ := decodeWord_ok h
  simp only [decodeFields, code_major hv] at hf
  obtain ⟨hle, d, fn, hfn, hw⟩ := decodeLong_ok hf
  refine ⟨hle, ?_⟩
  rw [hw] at he
  cases he
  rw [fmtL_toNat d (by decide) hfn]
  omega

/-- The word of a shift by an amount: its kind k stands above the amount (R154). -/
theorem encode_shift {i : Instr} {d a : BitVec 7} {h : BitVec 6} (k : Nat)
    (he : encode i = [fmtRI 0x0A d a (BitVec.ofNat 12 (h.toNat + k * 1024))]) (hk : k < 4) :
    encode i = [wordRI 0x28000000 d a (k * 2 ^ 10 + h.toNat)] := by
  have hh := h.isLt
  have hn : (BitVec.ofNat 12 (h.toNat + k * 1024)).toNat = k * 2 ^ 10 + h.toNat := by
    rw [BitVec.toNat_ofNat]
    omega
  rw [he, fmtRI, hn]
  rfl

/-! ### MKG (R156) -/

theorem mkg_of_Issues {s : State} {d a : BitVec 7} (h : Issues s [d, a] [a]) :
    exec (.mkg d a) s = .next (if 2 ^ 45 ≤ (s.x a.toNat).toNat then s.trapWith 0x05 (s.x a.toNat)
      else s.finish d (BitVec.ofNat 64 (s.lin * 2 ^ 45) + s.x a.toNat)) := by
  rw [exec_mkg, execMkg, issue_of_Issues h]
  rfl

theorem mkg_traps {s : State} {d a : BitVec 7} (h : Issues s [d, a] [a]) (hx : 2 ^ 45 ≤ (s.x a.toNat).toNat) :
    Traps s (.mkg d a) 0x05 (s.x a.toNat) := by
  rw [Traps, mkg_of_Issues h, if_pos hx]

/-- The creel's number is its module's and its place there, so its window is the sum of two parts (R63). -/
theorem mkg_writes {s : State} {d a : BitVec 7} (h : Issues s [d, a] [a]) (hx : (s.x a.toNat).toNat < 2 ^ 45) :
    Writes s (.mkg d a) d
      (BitVec.ofNat 64 (s.cur / 512 / 128 * 2 ^ 52 + s.cur / 512 % 128 * 2 ^ 45 + (s.x a.toNat).toNat)) 4 := by
  have hlin : s.cur / 512 / 128 * 2 ^ 52 + s.cur / 512 % 128 * 2 ^ 45 = s.lin * 2 ^ 45 := by
    simp only [State.lin, slotLin]
    omega
  apply writes_of
  rw [mkg_of_Issues h, if_neg (Nat.not_le.mpr hx), hlin, BitVec.ofNat_add, BitVec.ofNat_toNat, BitVec.setWidth_eq]
  rfl

/-! ### Targets (R159, R160) -/

theorem withTarget_out {t : Int} (s : State) (go : Nat → State) (h : t < 0 ∨ 2 ^ 47 ≤ t) :
    s.withTarget t go = s.trapWith 0x05 (BitVec.ofInt 64 t) := if_pos h

theorem withTarget_in {t : Int} (s : State) (go : Nat → State) (h0 : 0 ≤ t) (h1 : t < 2 ^ 47) : s.withTarget t go = go t.toNat :=
  if_neg (by omega)

theorem branchTo_of_not_attached {s : State} (h : s.me.member ≠ .attached) (t : Nat) : s.branchTo t = s.jump t := if_neg h

theorem me_setX (s : State) (n : Nat) (v : Word) : (s.setX n v).me = s.me := by simp [State.me]

theorem j_eq (o : BitVec 26) (s : State) : exec (.j o) s = .next (s.withTarget (s.me.pc + 4 * o.toInt) s.jump) := by
  rw [exec_j, execJ, issue_of_Issues (issues_nil s)]
  rfl

theorem jal_eq (o : BitVec 26) (s : State) :
    exec (.jal o) s =
      .next (s.withTarget (s.me.pc + 4 * o.toInt) fun t => (s.setX 1 (BitVec.ofNat 64 (s.me.pc + 4))).jump t) := by
  rw [exec_jal, execJal, issue_of_Issues (issues_nil s)]
  rfl

theorem jalr_of_Issues {s : State} {d a : BitVec 7} (i : BitVec 12) (h : Issues s [d, a] [a]) :
    let r := s.x a.toNat + BitVec.ofInt 64 i.toInt
    exec (.jalr d a i) s = .next (if r.toNat % 4 ≠ 0 then s.trapWith 0x04 r else if 2 ^ 47 ≤ r.toNat then s.trapWith 0x05 r
      else (s.setX d.toNat (BitVec.ofNat 64 (s.me.pc + 4))).branchTo r.toNat) := by
  rw [exec_jalr, execJalr, issue_of_Issues h]
  rfl

end Sys2Proof.Scalar

/-!
The obligations on arithmetic and jumps: R150 to R157, R159 and R160. Each row of a group writes its value by the shape of its meaning and
one equation between the model's expression and the spec's; the words of a group are compared as lists.
-/

namespace Sys2Proof.Scalar

open Sys2Proof.Machine Sys2Proof.Safety Sys2Proof.Laws

/-! ### ALU (R150) -/

/-- Settles O1: each form writes the value of its row, under one equation for each kind of row. -/
theorem aluResults : Obligations.AluResults := by
  unfold Obligations.AluResults
  intro s d a b x y forms
  have hy6 : y.toNat % 64 < 64 := Nat.mod_lt _ (by decide)
  refine ⟨List.map_inj_left.mp rfl, rfl, fun h => ?_, fun h => writes_opRRRd (exec_sel ..) h (by simp [x, y])⟩
  simp only [forms, List.forall_mem_cons]
  exact ⟨writes_opRRR (exec_add ..) h rfl,
    writes_opRRR (exec_sub ..) h rfl,
    writes_opRRR (exec_and ..) h rfl,
    writes_opRRR (exec_or ..) h rfl,
    writes_opRRR (exec_xor ..) h rfl,
    writes_opRRR (exec_andn ..) h rfl,
    writes_opRRR (exec_sll ..) h (shiftLeft_eq_ofNat x _),
    writes_opRRR (exec_srl ..) h (ushiftRight_eq_ofNat x _),
    writes_opRRR (exec_sra ..) h (sshiftRight_eq_ofInt x _),
    writes_opRRR (exec_rotr ..) h (rotateRight_eq_or x hy6),
    writes_opRRR (exec_mins ..) h (condLt_min x y),
    writes_opRRR (exec_maxs ..) h (condLt_max x y),
    writes_opRRR (exec_minu ..) h (condLtu_min x y),
    writes_opRRR (exec_maxu ..) h (condLtu_max x y),
    writes_opRRR (exec_slt ..) h (boolWord_condLt x y),
    writes_opRRR (exec_sltu ..) h (boolWord_condLtu x y),
    writes_opRRR (exec_seq ..) h (boolWord_condEq x y),
    writes_opRRR (exec_sne ..) h (boolWord_not_condEq x y),
    writes_opRRR (exec_addw ..) h rfl,
    writes_opRRR (exec_subw ..) h rfl,
    writes_opRRR (exec_sllw ..) h (wide_shiftLeft x _),
    writes_opRRR (exec_srlw ..) h (wide_ushiftRight x _),
    writes_opRRR (exec_sraw ..) h (wide_sshiftRight x _), List.forall_mem_nil _⟩

/-! ### MULDIV (R151, R109) -/

/-- Settles O2: each form writes the value of its row; DIVW and REMW widen a 32-bit division. -/
theorem mulDivResults : Obligations.MulDivResults := by
  unfold Obligations.MulDivResults
  intro s d a b x y x32 y32 forms
  refine ⟨List.map_inj_left.mp rfl, rfl, fun h => ?_, fun h => writes_opRRRd (exec_mad ..) h rfl⟩
  simp only [forms, List.forall_mem_cons]
  exact ⟨writes_opRRR (exec_mul ..) h (mul_eq_ofNat x y),
    writes_opRRR (exec_mulh ..) h rfl,
    writes_opRRR (exec_mulhu ..) h rfl,
    writes_opRRR (exec_mulw ..) h rfl,
    writes_opRRR (exec_div ..) h rfl,
    writes_opRRR (exec_divu ..) h rfl,
    writes_opRRR (exec_rem ..) h rfl,
    writes_opRRR (exec_remu ..) h rfl,
    writes_opRRR (exec_divw ..) h (wide_divSigned x32 y32),
    writes_opRRR (exec_remw ..) h (wide_remSigned x32 y32), List.forall_mem_nil _⟩

/-! ### BIT (R152) -/

/-- Settles O3: the fields by their control word, the counts and reversals by their bits, and the refused words by the decoder of the
major. -/
theorem bitResults : Obligations.BitResults := by
  unfold Obligations.BitResults
  intro s d a b x y w p w' f m forms
  refine ⟨List.map_inj_left.mp rfl, rfl, List.map_inj_left.mp rfl, fun h => ?_, fun h => ?_, fun h => ⟨?_, ?_, ?_, ?_, ?_⟩, ?_⟩
  · simp only [forms, List.forall_mem_cons]
    exact ⟨writes_opRRR (exec_bfx ..) h rfl, writes_opRRR (exec_bfxu ..) h rfl, writes_opRRR (exec_sext ..) h rfl,
      List.forall_mem_nil _⟩
  · refine writes_opRRRd (exec_bfi ..) h ?_
    rw [shiftLeft_eq_ofNat]
    rfl
  · obtain ⟨hzero, hone⟩ := clz64_spec x
    exact ⟨clz64 x, clz64_le x, writes_opRR (exec_clz ..) h rfl, hzero, hone⟩
  · obtain ⟨hzero, hone⟩ := ctzN_spec x.toNat 64
    exact ⟨ctzN x.toNat 64, ctzN_le x.toNat 64, writes_opRR (exec_ctz ..) h rfl, hzero, hone⟩
  · exact writes_opRR (exec_popc ..) h (congrArg (BitVec.ofNat 64) (popN_eq_length x.toNat 64))
  · exact ⟨bitReverse x, writes_opRR (exec_brev ..) h rfl, fun i => bitReverse_getLsbD x⟩
  · exact ⟨byteSwap x, writes_opRR (exec_bswap ..) h rfl, fun i => byteSwap_byte x⟩
  · exact fun v i hv hd => bit_decodeWord_ok hv hd

/-! ### Immediate forms, shifts by an amount, LEA and MKG (R153 to R156) -/

/-- Settles O4: each form writes the value of its row; MKG splits on its bound; a word that decodes is its instruction's encoding, whose
reserved bits are zero. -/
theorem immediateResults : Obligations.ImmediateResults := by
  unfold Obligations.ImmediateResults
  refine ⟨?_, ?_, fun v i hd =>
    ⟨fun hv => shi_decodeWord_ok hv hd, fun hv => lea_decodeWord_ok hv hd, fun hv => mkg_decodeWord_ok hv hd⟩⟩
  · intro s d a b i h k x ri sh
    refine ⟨List.map_inj_left.mp rfl, ?_, rfl, fun hs => ?_, fun hs => writes_opRRR (exec_lea ..) hs ?_⟩
    · simp only [sh, List.forall_mem_cons]
      exact ⟨encode_shift 0 rfl (by decide), encode_shift 1 rfl (by decide), encode_shift 2 rfl (by decide),
        encode_shift 3 rfl (by decide), List.forall_mem_nil _⟩
    · simp only [ri, sh, List.cons_append, List.nil_append, List.forall_mem_cons]
      exact ⟨writes_opRR (exec_addi ..) hs rfl,
        writes_opRR (exec_andi ..) hs (by rw [zext12_eq_ofNat]),
        writes_opRR (exec_ori ..) hs (by rw [zext12_eq_ofNat]),
        writes_opRR (exec_xori ..) hs (by rw [zext12_eq_ofNat]),
        writes_opRR (exec_slti ..) hs (by rw [boolWord_condLt, sext12_toInt]),
        writes_opRR (exec_sltiu ..) hs (by rw [boolWord_condLtu, zext12_toNat]),
        writes_opRR (exec_slli ..) hs (shiftLeft_eq_ofNat x _),
        writes_opRR (exec_srli ..) hs (ushiftRight_eq_ofNat x _),
        writes_opRR (exec_srai ..) hs (sshiftRight_eq_ofInt x _),
        writes_opRR (exec_rotri ..) hs (rotateRight_eq_or x h.isLt), List.forall_mem_nil _⟩
    · exact add_shiftLeft_eq_ofNat x (s.x b.toNat) k.toNat
  · intro s d a x
    exact ⟨rfl, fun h => ⟨mkg_traps h, mkg_writes h⟩⟩

/-! ### LONG (R157) -/

/-- Settles O5: each form writes the value of its row, and a first word that decodes is its instruction's encoding. -/
theorem longResults : Obligations.LongResults := by
  unfold Obligations.LongResults
  intro s d imm x fresh reads
  refine ⟨List.map_inj_left.mp rfl, fun h => ?_, fun h => ?_, fun v e i hv hd => long_decodeWord_ok hv hd⟩
  · simp only [fresh, List.forall_mem_cons]
    exact ⟨writes_opLong (exec_li ..) h rfl, writes_opLong (exec_liu ..) h (BitVec.ofNat_toNat 64 imm).symm, List.forall_mem_nil _⟩
  · simp only [reads, List.forall_mem_cons]
    exact ⟨writes_opLong (exec_lihi ..) h (append_lo32_eq_ofNat imm x),
      writes_opLong (exec_addl ..) h rfl,
      writes_opLong (exec_andl ..) h rfl,
      writes_opLong (exec_orl ..) h rfl,
      writes_opLong (exec_xorl ..) h rfl, List.forall_mem_nil _⟩

/-! ### J, JAL and JALR (R159, R160) -/

/-- Settles O8: the target decides between the trap and the transfer. -/
theorem jumpResults : Obligations.JumpResults := by
  unfold Obligations.JumpResults
  intro s d a i o t r link
  refine ⟨rfl, rfl, rfl, fun ht => ⟨?_, ?_⟩, fun h0 h1 => ⟨?_, ?_⟩, fun h => ⟨fun h4 => ?_, fun h4 h47 => ?_, fun h4 h47 hm => ?_⟩⟩
  · rw [Traps, j_eq, withTarget_out s _ ht]
  · rw [Traps, jal_eq, withTarget_out s _ ht]
  · exact goesTo_of (by rw [j_eq, withTarget_in s _ h0 h1])
  · exact links_of (by rw [jal_eq, withTarget_in s _ h0 h1]; rfl)
  · rw [Traps, jalr_of_Issues i h, if_pos h4]
  · rw [Traps, jalr_of_Issues i h, if_neg (fun hn => hn h4), if_pos h47]
  · apply links_of
    rw [jalr_of_Issues i h, if_neg (fun hn => hn h4), if_neg (Nat.not_le.mpr h47), branchTo_of_not_attached (by rwa [me_setX])]

end Sys2Proof.Scalar
